-- ==== Sys2Proof/Word.lean ====
section
/-!
DEFINITION. Word.lean: the words the JV8 block model is written with.
-/
namespace Sys2Proof

/-- One byte of memory, of a record or of a frame. -/
abbrev Byte := BitVec 8

/-- A string of bytes, lowest address first (R1). -/
abbrev Bytes := List Byte

/-- A 32-bit pattern: an FP32 value, a record word. -/
abbrev Word32 := BitVec 32

/-- A 64-bit word of a record, a register or an argument. -/
abbrev Word64 := BitVec 64

/-- A 48-bit address: device virtual, physical, or an address register (R151, R242). -/
abbrev Addr := BitVec 48

end Sys2Proof
end

