-- ==== Sys2Proof/Syntax.lean ====
section
/-!
DEFINITION. Syntax.lean: the block's commands, one constructor of `Instr` per row of spec/opcode_table.json, and the operands they carry.
The table gives its rows no bits; the operands are the arguments, records, frames and observations that the rule of each row names.
-/
namespace Sys2Proof

/-! ## Operands of SVIS instructions (Tables 5.4 to 5.12) -/

/-- Where an instruction runs and under whose rules: deal code of a slot (R125), or an open program in ordered or region mode (R123). -/
inductive CodeOwner where
  | deal (slot : Nat)
  | program (id : Nat) (region : Bool)
deriving DecidableEq, Repr

/-- The logical core that executes one word of a stream (R120, R125). -/
structure Site where
  die : Nat
  row : Nat
  col : Nat
  core : Nat
  /-- Index of the stream in the program's stream table (R124). -/
  stream : Nat
  owner : CodeOwner
  /-- The word of the stream, counted from its first, and the REPEATs that hold it, outermost first, each as its word and iteration (R128, R129). -/
  word : Nat := 0
  path : List (Nat × Nat) := []
  /-- The capacity position of the slot whose lanes the word works on; none for work of the slot as a whole (R74). -/
  lane : Option Nat := none
  /-- A read of the word in host memory ends in a PCIe completion error (R272). -/
  pcieFails : Bool := false
deriving DecidableEq, Repr

/-- The base word's common fields (Table 5.4). -/
structure Base where
  issue : BitVec 28
  pe : BitVec 1
  post : BitVec 5
  we : BitVec 1
  wait : BitVec 5
  need : BitVec 4
  abase : BitVec 4
deriving DecidableEq, Repr

/-- One dimension of a batch word (R140): count and strides in lines. -/
structure Dim where
  count : BitVec 8
  sa : BitVec 9
  sb : BitVec 12
  sc : BitVec 9
deriving DecidableEq, Repr

/-- The extension of an instruction (R140). -/
inductive Ext where
  | none
  | batch (d0 d1 d2 : Dim)
  | ptrs (addr : BitVec 12) (count : BitVec 11)
deriving DecidableEq, Repr

/-- Table 5.7. -/
structure MmaOps where
  aAddr : BitVec 7
  bSpace : BitVec 1
  bAddr : BitVec 12
  cAddr : BitVec 7
  mt : BitVec 5
  nt : BitVec 5
  kt : BitVec 8
  fmtA : BitVec 4
  fmtB : BitVec 4
  order : BitVec 2
  acc : BitVec 1
  mode : BitVec 2
  mparam : BitVec 13
deriving DecidableEq, Repr

/-- MZERO's operands (R139). -/
structure MzeroOps where
  cAddr : BitVec 7
  mt : BitVec 5
  nt : BitVec 5
  int : BitVec 1
deriving DecidableEq, Repr

/-- Table 5.8. -/
structure VOps where
  d : BitVec 7
  s1 : BitVec 7
  s2 : BitVec 7
  s3 : BitVec 7
  count : BitVec 12
  fmtD : BitVec 4
  fmtS : BitVec 4
  rnd : BitVec 3
  sat : BitVec 1
  bcast : BitVec 1
deriving DecidableEq, Repr

/-- SFN (Table 5.9). -/
structure SfnOps where
  d : BitVec 7
  s : BitVec 7
  count : BitVec 12
  fn : BitVec 6
  fmtD : BitVec 4
  fmtS : BitVec 4
  rnd : BitVec 3
deriving DecidableEq, Repr

/-- SFUSE (Table 5.9). -/
structure SfuseOps where
  d : BitVec 7
  s : BitVec 7
  bias : BitVec 7
  scale : BitVec 7
  count : BitVec 12
  fn : BitVec 6
  fmtD : BitVec 4
  fmtS : BitVec 4
  rnd : BitVec 3
  sat : BitVec 1
deriving DecidableEq, Repr

/-- SSTAT (Table 5.9). -/
structure SstatOps where
  d : BitVec 7
  s : BitVec 7
  rows : BitVec 6
  rowlen : BitVec 12
  stats : BitVec 3
  fmtS : BitVec 4
deriving DecidableEq, Repr

/-- SMERGE (Table 5.9). -/
structure SmergeOps where
  d : BitVec 7
  s1 : BitVec 7
  s2 : BitVec 7
  count : BitVec 12
deriving DecidableEq, Repr

/-- SMASK (Table 5.9). -/
structure SmaskOps where
  d : BitVec 7
  segq : BitVec 7
  segk : BitVec 7
  qt : BitVec 6
  kt : BitVec 6
  causal : BitVec 1
  segment : BitVec 1
  qreg : BitVec 4
  kreg : BitVec 4
deriving DecidableEq, Repr

/-- LMOV, LGATH, LSCAT (Table 5.10). -/
structure LOps where
  ssp : BitVec 3
  soff : BitVec 20
  dsp : BitVec 3
  doff : BitVec 20
  count : BitVec 12
  fmtS : BitVec 4
  fmtD : BitVec 4
  rnd : BitVec 3
  sat : BitVec 1
deriving DecidableEq, Repr

/-- LDA (Table 5.10). -/
structure LdaOps where
  dreg : BitVec 4
  ssp : BitVec 3
  soff : BitVec 20
deriving DecidableEq, Repr

/-- WSTREAM (Table 5.10). -/
structure WstreamOps where
  block : BitVec 22
  doff : BitVec 12
  nblk : BitVec 7
  mset : BitVec 12
  fmtS : BitVec 4
  fmtD : BitVec 4
deriving DecidableEq, Repr

/-- XPUT (Table 5.11). -/
structure XputOps where
  ssp : BitVec 3
  soff : BitVec 12
  die : BitVec 3
  row : BitVec 6
  col : BitVec 5
  dsp : BitVec 1
  dcore : BitVec 6
  doff : BitVec 12
  count : BitVec 12
  rpe : BitVec 1
  rchip : BitVec 5
  rel : BitVec 1
deriving DecidableEq, Repr

/-- XCAST (Table 5.11). -/
structure XcastOps where
  ssp : BitVec 3
  soff : BitVec 12
  mset : BitVec 12
  dcore : BitVec 6
  doff : BitVec 12
  count : BitVec 12
  rpe : BitVec 1
  rchip : BitVec 5
deriving DecidableEq, Repr

/-- XDECK (Table 5.11). -/
structure XdeckOps where
  ssp : BitVec 3
  soff : BitVec 12
  link : BitVec 3
  die : BitVec 3
  row : BitVec 6
  col : BitVec 5
  dcore : BitVec 6
  doff : BitVec 12
  count : BitVec 12
  rpe : BitVec 1
  rchip : BitVec 5
deriving DecidableEq, Repr

/-- REPEAT (Table 5.12). -/
structure RepeatOps where
  count : BitVec 12
  period : BitVec 28
  body : BitVec 12
  stepreg : BitVec 4
  step : BitVec 15
deriving DecidableEq, Repr

/-- REGION (Table 5.12). -/
structure RegionOps where
  num : BitVec 6
  store : BitVec 1
  base : BitVec 12
  len : BitVec 12
  access : BitVec 2
deriving DecidableEq, Repr

/-- The opcodes of the V queue (Table 5.6, OP 0x00 to 0x0E). -/
inductive VOp where
  | add | sub | mul | fma | max | min | abs | neg | cvt | cmplt | cmpeq | sel | qmx | and | or
deriving DecidableEq, Repr

/-- One SVIS instruction with its operands, as the queues hold it (Table 5.6). -/
inductive SvisOp where
  | mma (o : MmaOps) (x : Ext)
  | mzero (o : MzeroOps)
  | vec (op : VOp) (o : VOps)
  | sfn (o : SfnOps)
  | sfuse (o : SfuseOps)
  | sstat (o : SstatOps)
  | smerge (o : SmergeOps)
  | smask (o : SmaskOps)
  | lmov (o : LOps) (x : Ext)
  | lgath (o : LOps) (x : Ext)
  | lscat (o : LOps) (x : Ext)
  | lda (o : LdaOps)
  | wstream (o : WstreamOps)
  | xput (o : XputOps)
  | xcast (o : XcastOps)
  | xdeck (o : XdeckOps)
  | nop
  | repeatF (o : RepeatOps)
  | seta (dreg : BitVec 4) (imm : BitVec 48)
  | adda (dreg : BitVec 4) (imm : BitVec 32)
  | addid (dreg : BitVec 4) (sel : BitVec 3) (scale : BitVec 32)
  | region (o : RegionOps)
  | rfree (num : BitVec 6) (store : BitVec 1)
  | mark (value : BitVec 16)
  | rwait (num : BitVec 6) (store : BitVec 1)
  | endP
deriving DecidableEq, Repr

/-! ## Operands of host commands and dictionary accesses -/

/-- A slot of a function's command ring (R545): who sent it, where it stood, and its bytes.
`rsvd` says that a rsvd field of the 64-byte header is nonzero. -/
structure CmdSlot where
  fn : Nat
  slot : Nat
  irq : Bool
  rsvd : Bool
  tag : Word32
  arg0 : Word64
  arg1 : Word64
  arg2 : Word64
  payload : Bytes
deriving DecidableEq, Repr

/-- The path of a dictionary access, which fixes its class (R430). -/
inductive Path where
  /-- A Hatband call: its slot, CLASS field and caller address. -/
  | ring (slot cls caller : Nat)
  /-- A mirror slot of a function. -/
  | mirror (fn slot : Nat)
  /-- A VENDOR_DEFINED_REQUEST in SPDM session `n` (R503). -/
  | secured (n : Nat)
  | tap
  /-- The Banker's own local intake (R371). -/
  | self
deriving DecidableEq, Repr

/-- One dictionary access (R426 to R438). -/
structure Access where
  path : Path
  index : Nat
  sub : Nat
  write : Bool
  offset : Nat
  len : Nat
  data : Bytes
deriving DecidableEq, Repr

/-- A request written into a mirror slot's header (Table 15.9); `rsvd` says a rsvd field is nonzero. -/
structure MirrorReq where
  fn : Nat
  slot : Nat
  index : Nat
  sub : Nat
  target : Nat
  op : Nat
  irq : Bool
  offset : Nat
  len : Nat
  tag : Word32
  rsvd : Bool
  data : Bytes
deriving DecidableEq, Repr

/-! ## Operands of forms -/

/-- A multicast set entry (R127). -/
structure MSet where
  dieMask : BitVec 8
  rowLo : Nat
  rowHi : Nat
  colLo : Nat
  colHi : Nat
deriving DecidableEq, Repr

/-- A stream entry (Table 5.3), as far as the device needs it. -/
structure Stream where
  dieMask : BitVec 8
  region : Bool
  rowLo : Nat
  rowHi : Nat
  colLo : Nat
  colHi : Nat
  slot : Nat
  coreMask : Word64
  first : Nat
  words : Nat
deriving DecidableEq, Repr

/-- What the device reads out of the Blocker's private native image: function-table slots it evaluates (R227), its multicast sets and its streams. -/
structure NativeInfo where
  tables : Word32
  msets : List MSet
  streams : List Stream
deriving DecidableEq, Repr

/-- The load image of FORM_LOAD: the sections of the container that the device receives (R107), each as bytes, and the native image. -/
structure FormImage where
  header : Bytes
  slots : Bytes
  windows : Bytes
  foot : Bytes
  cert : Bytes
  native : NativeInfo
deriving DecidableEq, Repr

/-! ## Operands of ring, link and board events -/

/-- The round header of a first-lap or second-lap frame (Tables 2.2 and 14.4); `ok` says that its CRC is correct and no symbol error fell in it, `rsvd` that a rsvd bit is set. -/
structure HbHeader where
  ok : Bool
  rsvd : Bool
  round : Nat
  curDeal : Nat
  stampTrick : Nat
  curPeriod : Nat
  nextLen : Nat
  nextPeriod : Nat
  stretchPend : Bool
  bankerId : Nat
  void : Bool
  accDelay : Nat
deriving DecidableEq, Repr

/-- An ORDER entry (R408): [7] V, [6] BMC, [5] ELIG, [4:0] address. -/
structure OrderEntry where
  bmc : Bool
  elig : Bool
  addr : Nat
deriving DecidableEq, Repr

/-- The standing block (Table 14.5); `order` holds the entries with V set, in order. -/
structure HbStanding where
  ok : Bool
  present : Word32
  join : Word32
  notSeated : Word32
  stretch : Nat
  floor : Nat
  order : List OrderEntry
deriving DecidableEq, Repr

/-- A call slot (Table 14.6); `ok` says that the slot's CRC is correct, `rsvd` that a rsvd bit is set. -/
structure HbCall where
  ok : Bool
  rsvd : Bool
  used : Bool
  kind : Nat
  cls : Nat
  target : Nat
  caller : Nat
  index : Nat
  sub : Nat
  op : Nat
  len : Nat
  offset : Nat
  status : Nat
  tag : Nat
  data : Bytes
  contrib : Nat
  alen : Nat
deriving DecidableEq, Repr

/-- A frame (Table 14.3): `slots` are the call slots 0 to 17, `serial` the origin block, `symErrs` the symbols received with an error. `dtPs` is an observation of the receiver: its start of frame arrives that many ps after the last event (R29, R32). -/
structure HbFrame where
  header : HbHeader
  standing : HbStanding
  slots : List HbCall
  serial : Word64
  originOk : Bool
  eofVoid : Bool
  symErrs : Nat
  dtPs : Nat := 0
deriving DecidableEq, Repr

/-- A flit of a Deck link (Table 13.1); `ok` says the CRC matches, `rsvd` that a rsvd bit is set. -/
structure Flit where
  ok : Bool
  rsvd : Bool
  type : Nat
  seq : Nat
  ack : Nat
  crData : Nat
  crNotice : Nat
  crPass : Nat
  len : Nat
  first : Bool
  payload : Bytes
deriving DecidableEq, Repr

/-- A group notice record (Table 13.6). -/
structure Notice where
  member : Nat
  groupId : Nat
  deal : Nat
  arg : BitVec 48
deriving DecidableEq, Repr

/-! ## Operands of repair and physical units -/

/-- A physical unit of the package (Table 12.5, R357); columns and cores are physical. -/
inductive UnitRef where
  | core (die row col core : Nat)
  | coreStore (die row col core : Nat)
  | clusterStore (die row col : Nat)
  | table (die row col : Nat)
  | sfu (die row col : Nat)
  | router (die row col : Nat)
  | gateway (die row : Nat)
  | vaultPort (die : Nat)
  | hub
  | die (die : Nat)
deriving DecidableEq, Repr

/-- An audit record (Table 12.3): one write of a window, as the kibitzer takes it. -/
structure AuditRecord where
  kind : Nat
  queue : Nat
  cycle : Nat
  addr : Nat
  data : BitVec 512
deriving DecidableEq, Repr

/-- One comparison of an audit window (R340, R341): the cluster (physical column), the shadowed logical core, the physical shadow (with its own physical column, R338), and the records the kibitzer took of each of the two. -/
structure AuditCmp where
  die : Nat
  row : Nat
  col : Nat
  logical : Nat
  shadowCol : Nat
  shadow : Nat
  coreRecords : List AuditRecord
  shadowRecords : List AuditRecord
deriving DecidableEq, Repr

/-- A temperature in units of 0.1 degree C, or none when its sensor failed its range check (R469). -/
abbrev Temp := Option Int

/-- One millisecond's readings (R461, R584): the nine readings C0 to C7 and H, and the mean package power in W. -/
structure Readings where
  temps : List Temp
  power : Nat
deriving DecidableEq, Repr

/-- How an arriving memory-plane item fares (R179): its last data arrived `slack` ps before (or, negative, after) the start of its due trick;
`pcieError` says that a PCIe window answered an open program's access with a completion error (Table 9.9). -/
structure Arrival where
  slack : Int
  pcieError : Bool
  /-- Blocks of a WSTREAM, counted from its first, that met an uncorrectable media error (R286, Table 10.7). -/
  mediaFails : List Nat
deriving DecidableEq, Repr

/-- What the media of a vault block answered (R286, R298). -/
inductive Media where
  | good | corrected | failed
deriving DecidableEq, Repr

/-- What the decoder finds in the next frame of its bitstream (R322, Table 11.3): the bitstream used, the frame's cropped size and sample depth, whether it is monochrome,
an IRAP or key frame, carries film grain parameters, and is the last of its buffer; its level, a profile, chroma format or tool of Table 11.3, the buffers its DPB needs,
and the bytes of reference buffers read for it, each a buffer and an offset. -/
structure Picture where
  width : Nat
  height : Nat
  depth : Nat
  consumed : Nat
  mono : Bool := false
  key : Bool := false
  grain : Bool := false
  last : Bool := false
  level : Nat := 0
  refused : Bool := false
  dpb : Nat := 1
  refs : List (Nat × Nat) := []
deriving DecidableEq, Repr

/-- What decoding the next frame came to: a frame, or a stream error with the bitstream it used (R322, R325). -/
inductive DecOutcome where
  | frame (p : Picture)
  | error (consumed : Nat)
deriving DecidableEq, Repr

/-- What an engine read of reference buffers for a slice, each byte a buffer and an offset: which of them a search looks at is the encoder's choice (R321). -/
structure SliceOut where
  refs : List (Nat × Nat) := []
deriving DecidableEq, Repr

/-- The levels of the straps sampled at reset release and of the rails (R568, R580). -/
structure Straps where
  bankerEn : Bool
  hbAddr : Nat
  railsOk : Bool
deriving DecidableEq, Repr

/-- What the ROM and the Crown find of the images they verify (R513): each is the answer of the signature and digest check, which the spec leaves to the standards it names. -/
structure BootChecks where
  crownOk : Bool
  stagedOk : Bool
  crownMatchesStaged : Bool
  copyOk : Bool
  slotAOk : Bool
  slotBOk : Bool
deriving DecidableEq, Repr

/-- What the factory records and NV copies read as at Hatband-ready (R509, R510, R471). -/
structure NvChecks where
  factoryOk : Bool
  fieldXOk : Bool
  fieldYOk : Bool
  lifeOk : Bool
deriving DecidableEq, Repr

/-- An agent of the coherence directory (R268): a die's Kitty, or H. -/
inductive CohAgent where
  | die (d : Nat)
  | hub
deriving DecidableEq, Repr

/-! ## The commands -/

/-- The commands of the block, one constructor per row of spec/opcode_table.json, in the table's order. -/
inductive Instr where
  | beatEdge (offsetPs : Int)
  | flywheelEdge
  | beatLoss
  | dealMark (edge : Option Int)
  | loadHintRise
  | seamStart
  | drainEnd
  | dealDecision
  | repairCheckDone (passes : List Bool) (rereads : List Bool)
  | sheetDb (fn : Nat) (buf : Nat) (image : Bytes)
  | sheetArrival (buf : Nat)
  | sheetCutoff
  | seat (c : CmdSlot)
  | hold (c : CmdSlot)
  | release (c : CmdSlot)
  | clear (c : CmdSlot)
  | readSeat (c : CmdSlot)
  | abort (c : CmdSlot)
  | formLoad (c : CmdSlot) (img : FormImage)
  | formUnload (c : CmdSlot)
  | unloadEffect (formId : Nat)
  | context (c : CmdSlot)
  | invalidate (c : CmdSlot)
  | invalidateDone (tag : Word32)
  | qbind (c : CmdSlot)
  | audit (c : CmdSlot)
  | program (c : CmdSlot) (info : NativeInfo)
  | pass (c : CmdSlot)
  | imageDelete (c : CmdSlot)
  | openSession (c : CmdSlot)
  | closeSession (c : CmdSlot)
  | sessionDrained (engine session : Nat)
  | abandon (c : CmdSlot)
  | forceKey (c : CmdSlot)
  | rate (c : CmdSlot)
  | poolMark (c : CmdSlot)
  | decodeCmd (c : CmdSlot)
  | decodeFrameDone (engine session : Nat) (out : DecOutcome)
  | sliceDone (engine : Nat) (out : SliceOut)
  | bsRead (fn engine session : Nat) (offset : Nat)
  | engineDefect (engine : Nat)
  | engineResetDone (engine : Nat)
  | poolEntryWrite (path : Path) (engine entry : Nat) (value : Bytes)
  | mma (s : Site) (b : Base) (o : MmaOps) (x : Ext)
  | mzero (s : Site) (b : Base) (o : MzeroOps)
  | vadd (s : Site) (b : Base) (o : VOps)
  | vsub (s : Site) (b : Base) (o : VOps)
  | vmul (s : Site) (b : Base) (o : VOps)
  | vfma (s : Site) (b : Base) (o : VOps)
  | vmax (s : Site) (b : Base) (o : VOps)
  | vmin (s : Site) (b : Base) (o : VOps)
  | vabs (s : Site) (b : Base) (o : VOps)
  | vneg (s : Site) (b : Base) (o : VOps)
  | vcvt (s : Site) (b : Base) (o : VOps)
  | vcmplt (s : Site) (b : Base) (o : VOps)
  | vcmpeq (s : Site) (b : Base) (o : VOps)
  | vsel (s : Site) (b : Base) (o : VOps)
  | vqmx (s : Site) (b : Base) (o : VOps)
  | vand (s : Site) (b : Base) (o : VOps)
  | vor (s : Site) (b : Base) (o : VOps)
  | sfn (s : Site) (b : Base) (o : SfnOps)
  | sfuse (s : Site) (b : Base) (o : SfuseOps)
  | sstat (s : Site) (b : Base) (o : SstatOps)
  | smerge (s : Site) (b : Base) (o : SmergeOps)
  | smask (s : Site) (b : Base) (o : SmaskOps)
  | lmov (s : Site) (b : Base) (o : LOps) (x : Ext)
  | lgath (s : Site) (b : Base) (o : LOps) (x : Ext)
  | lscat (s : Site) (b : Base) (o : LOps) (x : Ext)
  | lda (s : Site) (b : Base) (o : LdaOps)
  | wstream (s : Site) (b : Base) (o : WstreamOps)
  | xput (s : Site) (b : Base) (o : XputOps)
  | xcast (s : Site) (b : Base) (o : XcastOps)
  | xdeck (s : Site) (b : Base) (o : XdeckOps)
  | nop (s : Site) (b : Base)
  | repeatFrame (s : Site) (b : Base) (o : RepeatOps)
  | repeatIteration (s : Site)
  | seta (s : Site) (b : Base) (dreg : BitVec 4) (imm : BitVec 48)
  | adda (s : Site) (b : Base) (dreg : BitVec 4) (imm : BitVec 32)
  | addid (s : Site) (b : Base) (dreg : BitVec 4) (sel : BitVec 3) (scale : BitVec 32)
  | region (s : Site) (b : Base) (o : RegionOps)
  | rfree (s : Site) (b : Base) (num : BitVec 6) (store : BitVec 1)
  | markTrace (s : Site) (b : Base) (value : BitVec 16)
  | rwait (s : Site) (b : Base) (num : BitVec 6) (store : BitVec 1)
  | endProgram (s : Site) (b : Base)
  | instructionComplete (item : Nat)
  | tileLanding (item : Nat) (late : Nat)
  | memoryItemComplete (item : Nat) (arr : Arrival)
  | auditWindowStart
  | auditCompare (window : Nat) (cmps : List AuditCmp)
  | bistDone (failed : List UnitRef)
  | storeEcc (u : UnitRef) (line : Nat) (uncorrectable : Bool)
  | linkParity (die row col : Nat)
  | gatewayParity (die row : Nat)
  | tableEcc (die row col : Nat) (uncorrectable : Bool)
  | sfuParity (die row col : Nat)
  | vaultPort (die : Nat) (block : Nat)
  | hubDefect
  | droop (die : Nat) (ns : Nat)
  | hbmUncorrectable (pa : Nat)
  | scReadRequest (a : CohAgent) (line : Nat)
  | scWriteRequest (a : CohAgent) (line : Nat)
  | kittyEviction (die line : Nat)
  | fetchInvalidate (die line : Nat)
  | bar2Read (fn : Nat) (offset len : Nat)
  | bar2Write (fn : Nat) (offset : Nat) (data : Bytes)
  | ldmaDb (fn queue tail : Nat) (ring : List Bytes)
  | looseDmaDescriptor (queue : Nat) (hostData : Bytes) (hostFails : Option Nat)
  | looseDmaStop (queue : Nat)
  | resume (fn queue : Nat) (desc : Bytes)
  | skip (fn queue : Nat)
  | halt (fn queue : Nat)
  | pcieWindowWrite (path : Path) (w : Nat) (value : Bytes)
  | windowChangeEffect (w : Nat)
  | openWindowStart
  | openProgramStart
  | openWindowEnd
  | keyLoad (path : Path) (value : Bytes)
  | keyUnload (path : Path) (slot : Nat)
  | keySlotUpdate (slot : Nat)
  | passHeader (value : Bytes)
  | passRecord (value : Bytes) (media : Media)
  | passStreamEnd (linkLost : Bool)
  | passEndReport (highest : Nat)
  | vaultScrub (die block : Nat) (media : Media)
  | tableSlotWrite (path : Path) (k : Nat) (value : Bytes)
  | tableSlotUpdate (k : Nat)
  | hbFirstLapFrame (f : HbFrame)
  | hbSecondLapFrame (f : HbFrame)
  | hbRead (slot : Nat) (call : HbCall)
  | hbWrite (slot : Nat) (call : HbCall)
  | hbBroadcastRead (slot : Nat) (call : HbCall)
  | roundOrigin
  | frameReturn (f : HbFrame) (delayNs : Nat)
  | nodeLost (addr : Nat)
  | ringBreak
  | slowEntryPrepared (index sub : Nat)
  | snapshotLapse (path : Path) (index sub : Nat)
  | stagingTimeout (path : Path) (index sub : Nat)
  | mirrorRead (r : MirrorReq)
  | mirrorWrite (r : MirrorReq)
  | mirrorBroadcastRead (r : MirrorReq)
  | tapAccess (a : Access)
  | dictionaryWrite (a : Access)
  | storeLayer (path : Path) (value : Word32)
  | storeComplete (firstOk secondOk : Bool)
  | restoreLayer (path : Path) (value : Word32)
  | accountCounterClear (path : Path) (account value : Nat)
  | houseCounterClear (path : Path) (value : Nat)
  | accountBinding (path : Path) (value : Bytes)
  | logClear (path : Path) (value : Nat)
  | joinMark (path : Path) (deal : Word64)
  | handover (path : Path) (target : Nat)
  | groupBinding (path : Path) (value : Bytes)
  | bindingEffect
  | bankerElectionTimeout
  | bankerTakeover (handover : Bool)
  | refInLoss
  | syncIn
  | linkTrained (link : Nat)
  | linkDown (link : Nat)
  | deckDataFlit (link : Nat) (f : Flit)
  | deckNak (link ack : Nat)
  | deckIdent (link : Nat) (serial : Word64) (addr far : Nat) (sameRing : Bool)
  | selectNotice (link : Nat) (n : Notice)
  | causeNotice (link : Nat) (n : Notice)
  | foldNotice (link : Nat) (n : Notice)
  | noRedealNotice (link : Nat) (n : Notice)
  | leaveNotice (link : Nat) (n : Notice)
  | groupCompare
  | leftRelease
  | thermalEvaluation (r : Readings)
  | thermalTrip (reading : Int)
  | tripRelease
  | criticalTemperature (reading : Int)
  | sleepRequest (path : Path)
  | runRequest (path : Path)
  | sleepEntry (failed : List UnitRef)
  | sleepComplete
  | wakeComplete (measureOk : Bool)
  | grantObserve (path : Path) (rec : Bytes)
  | grantOpen (path : Path) (rec : Bytes)
  | blankOpenGrant (path : Path)
  | recordVerified (measureOk : Bool)
  | openPreparation
  | openPreparationDone
  | endDebugSession (path : Path) (measureOk : Bool)
  | grantExpiry (measureOk : Bool)
  | provision
  | deploy
  | undeploy
  | returnCmd
  | dealerHalt (path : Path) (value : Nat)
  | dealerStep (path : Path) (n : Nat)
  | getVersion
  | getCapabilities
  | negotiateAlgorithms (sig hash dhe aead : Nat)
  | getDigests
  | getCertificate (slot offset len : Nat)
  | challenge (slot : Nat) (nonce : Bytes)
  | getMeasurements (index : Nat)
  | keyExchange (slot : Nat)
  | finish (session : Nat) (verifyOk : Bool)
  | keyUpdate (session : Nat)
  | heartbeat (session : Nat)
  | endSession (session : Nat)
  | vendorDefinedRequest (session : Nat) (registryOk : Bool) (r : MirrorReq) (kind : Nat)
  | ideIntegrityFail (stream : Nat)
  | resetRelease (st : Straps) (ck : BootChecks)
  | hatbandReady (nv : NvChecks)
  | runReady
  | resetNPulse (us : Nat)
  | pwrGoodFall
  | pcieReset
  | flr (fn : Nat)
  | watchdogExpiry
  | firmwareReset (path : Path) (value : Word32)
  | stagingPieceWrite (path : Path) (k : Nat) (value : Bytes)
  | stageCheck (path : Path)
  | checkComplete (signatureOk orphan : Bool)
  | discard (path : Path)
  | crownAuthorisation (path : Path) (rec : Bytes)
  | brimConfirm
  | rollback (path : Path) (value : Word32) (verifies : Bool)
  | evHead (fn head : Nat)
  | cplHead (fn head : Nat)
  | registerWrite (fn offset : Nat) (value : Word64)
  | missedEdge
  | hbmTrained (ok : Bool)
  | vaultMounted (ok : Bool)
  | delayLineStep
  | refInLock
  | ideKmRequest (session stream : Nat) (start : Bool)
  | msiXRaise (fn vector : Nat)
deriving DecidableEq, Repr

end Sys2Proof
end

