-- ==== Sys2Proof/WellFormed.lean ====
section
/-!
DEFINITION. WellFormed.lean: what a command's operands must satisfy to be a command of the block at all: the static rules of an SVIS word, which the Blocker enforces (R110, R123, R131 to R150, R201, R217, R229), and the ranges of the other commands' operands.
-/
namespace Sys2Proof

/-- Width of an element of a format that the L queue converts (Table 7.1); 0 for any other. -/
def lWidth (code : Nat) : Nat :=
  match code with
  | 0 => 32
  | 1 => 16
  | 2 => 16
  | 3 => 8
  | 4 => 8
  | 10 => 8
  | 11 => 4
  | _ => 0

/-- POST, WAIT and NEED as Table 5.4 ranges them. -/
def baseLegal (region : Bool) (b : Base) : Bool :=
  (b.pe = 1 || b.post = 0) && (if b.we = 1 then b.need ≠ 0 else b.wait = 0 && b.need = 0) && (!region || b.issue = 0)

/-- Formats of an M operand outside MODE 1 to 3. -/
def mFormat (code : Nat) : Bool := 1 ≤ code && code ≤ 10

/-- R136, R137, Table 5.7. -/
def mmaLegal (o : MmaOps) (x : Ext) : Bool :=
  let p := o.mparam.toNat
  let glog := p / 2 ^ 5 % 2 ^ 4
  let kt := o.kt.toNat
  let mx := fun (c : Nat) => 5 ≤ c && c ≤ 9
  (o.bSpace = 1 || o.bAddr.toNat < 128)
    && (match o.mode.toNat with
        | 0 => o.fmtA = o.fmtB && mFormat o.fmtA.toNat && p = 0
        | 3 => o.fmtA = 0 && o.fmtB = 0 && p % 2 ^ 11 = 0 && 2 ≤ p / 2 ^ 11
        | _ => o.fmtB = 11 && (o.fmtA = 3 || o.fmtA = 1) && p % 2 ^ 5 = 0 && 5 ≤ glog && glog ≤ 12 && kt * 4 % 2 ^ glog = 0)
    && (!(mx o.fmtA.toNat || mx o.fmtB.toNat) || kt % 8 = 0)
    && (match x with | .ptrs _ n => decide (n.toNat ≤ 1024) | _ => true)

/-- R145, R201, Tables 5.5 and 5.8. -/
def vecLegal (op : VOp) (o : VOps) : Bool :=
  let s2 : Bool := match op with | .abs | .neg | .cvt | .qmx => o.s2 = 0 | _ => true
  let s3 : Bool := match op with | .fma | .sel => true | _ => o.s3 = 0
  let src := o.fmtS.toNat ≤ 10 || o.fmtS = 12
  let dst : Bool := match op with
    | .qmx => 5 ≤ o.fmtD.toNat && o.fmtD.toNat ≤ 9 && o.count.toNat % 32 = 0
    | .and | .or => o.fmtD = 0 && o.fmtS = 0
    | _ => o.fmtD.toNat ≤ 4 || o.fmtD = 10
  o.count.toNat % 4 = 0 && o.rnd.toNat ≤ 3 && s2 && s3 && src && dst

/-- Formats of the S queue (R217). -/
def sFormat (c : BitVec 4) : Bool := c.toNat ≤ 4 || c = 10

/-- R147, R148: spaces, formats, whole lines. -/
def lLegal (o : LOps) : Bool :=
  let n := o.count.toNat
  let fs := lWidth o.fmtS.toNat
  let fd := lWidth o.fmtD.toNat
  let side := fun (sp : BitVec 3) (off : BitVec 20) => sp = 2 || (sp = 0 && off.toNat < 128) || (sp = 1 && off.toNat < 4096)
  side o.ssp o.soff && side o.dsp o.doff && !(o.ssp = 2 && o.dsp = 2) && o.rnd.toNat ≤ 3
    && fs ≠ 0 && fd ≠ 0 && o.fmtD ≠ 11 && n * fd % fs = 0

/-- The pairs of Table 10.3. -/
def streamPair (fs fd : Nat) : Bool :=
  (fs = fd && fs ≤ 11) || ((fs = 3 || fs = 4) && fd ≤ 2) || ((fs = 1 || fs = 2) && fd = 0) || (fs = 11 && fd = 10)

/-- A store source of the X queue. -/
def xSource (ssp : BitVec 3) (soff : BitVec 12) : Bool := (ssp = 0 && soff.toNat < 128) || ssp = 1

def regionNum (num : BitVec 6) (store : BitVec 1) : Bool := store = 1 || num.toNat < 16

/-- An SVIS word the Blocker admits, in a stream of region or ordered mode. -/
def svisLegal (region : Bool) (b : Base) (op : SvisOp) : Bool :=
  baseLegal region b && (match op with
    | .mma o x => mmaLegal o x
    | .mzero _ => true
    | .vec v o => vecLegal v o
    | .sfn o => (o.fn.toNat ≤ 5 || 32 ≤ o.fn.toNat) && sFormat o.fmtS && sFormat o.fmtD && o.rnd.toNat ≤ 3 && o.count.toNat % 4 = 0
    | .sfuse o => (o.fn.toNat ≤ 6 || 32 ≤ o.fn.toNat) && sFormat o.fmtS && sFormat o.fmtD && o.rnd.toNat ≤ 3
    | .sstat o => o.stats ≠ 0 && sFormat o.fmtS && o.rowlen.toNat % 4 = 0
    | .smerge _ => true
    | .smask _ => true
    | .lmov o x => lLegal o && (match x with
        | .none => true
        | .batch d0 d1 d2 => d0.sb = 0 && d1.sb = 0 && d2.sb = 0
        | .ptrs _ _ => false)
    | .lgath o x => lLegal o && o.ssp = 2 && (match x with | .ptrs _ n => decide (n.toNat ≤ 1024) | _ => false)
    | .lscat o x => lLegal o && o.dsp = 2 && (match x with | .ptrs _ n => decide (n.toNat ≤ 1024) | _ => false)
    | .lda o => o.dreg ≠ 0 && (o.ssp = 2 || (o.ssp = 0 && o.soff.toNat < 128) || (o.ssp = 1 && o.soff.toNat < 4096))
    | .wstream o => !region && o.nblk.toNat ≤ 64 && streamPair o.fmtS.toNat o.fmtD.toNat
    | .xput o => xSource o.ssp o.soff && (o.dsp = 1 || o.doff.toNat < 128)
    | .xcast o => xSource o.ssp o.soff
    | .xdeck o => xSource o.ssp o.soff
    | .nop => true
    | .repeatF o => o.body ≠ 0 && (!region || o.period = 0)
    | .seta d _ => d ≠ 0
    | .adda d _ => d ≠ 0
    | .addid d sel _ => d ≠ 0 && sel.toNat ≤ 4
    | .region o => regionNum o.num o.store && o.access ≠ 0
    | .rfree n st => regionNum n st
    | .mark _ => true
    | .rwait n st => region && regionNum n st
    | .endP => region)

/-- Region mode of the code an instruction belongs to. -/
def ownerRegion : CodeOwner → Bool
  | .deal _ => false
  | .program _ r => r

/-- Coordinates of a site (R8, R125). -/
def siteOk (x : Site) : Bool := x.die < 8 && x.row < 64 && x.col < 32 && x.core < 64

def wordOk (x : Site) (b : Base) (op : SvisOp) : Bool := siteOk x && svisLegal (ownerRegion x.owner) b op

/-- A command slot: its function and its place in the ring (Table 19.1, R542). -/
def slotOk (c : CmdSlot) : Bool := c.fn < 64 && c.slot < 64 && c.payload.length ≤ 448

/-- A mirror slot (Table 15.9). -/
def mirrorOk (r : MirrorReq) : Bool := r.fn < 64 && r.slot < 16

def engineOk (e n : Nat) : Bool := e < 4 && n < 64

/-- Operands are in the ranges the spec's records and registers give them. -/
def Instr.wf : Instr → Bool
  | .beatEdge _ | .flywheelEdge | .beatLoss | .dealMark _ | .loadHintRise | .seamStart | .drainEnd | .dealDecision => true
  | .repairCheckDone _ _ => true
  | .sheetDb fn buf _ => fn < 64 && buf < 16
  | .sheetArrival buf => buf < 16
  | .sheetCutoff => true
  | .seat c | .hold c | .release c | .clear c | .readSeat c | .abort c => slotOk c
  | .formLoad c _ => slotOk c
  | .formUnload c => slotOk c
  | .unloadEffect id => id < 65536
  | .context c | .invalidate c => slotOk c
  | .invalidateDone _ => true
  | .qbind c | .audit c => slotOk c
  | .program c _ => slotOk c
  | .pass c | .imageDelete c | .openSession c | .closeSession c => slotOk c
  | .sessionDrained e n => engineOk e n
  | .abandon c | .forceKey c | .rate c | .poolMark c | .decodeCmd c => slotOk c
  | .decodeFrameDone e n _ => engineOk e n
  | .sliceDone e _ => e < 4
  | .bsRead fn e n _ => fn < 64 && engineOk e n
  | .engineDefect e | .engineResetDone e => e < 4
  | .poolEntryWrite _ e n _ => e < 4 && n < 64
  | .mma s b o x => wordOk s b (.mma o x)
  | .mzero s b o => wordOk s b (.mzero o)
  | .vadd s b o => wordOk s b (.vec .add o)
  | .vsub s b o => wordOk s b (.vec .sub o)
  | .vmul s b o => wordOk s b (.vec .mul o)
  | .vfma s b o => wordOk s b (.vec .fma o)
  | .vmax s b o => wordOk s b (.vec .max o)
  | .vmin s b o => wordOk s b (.vec .min o)
  | .vabs s b o => wordOk s b (.vec .abs o)
  | .vneg s b o => wordOk s b (.vec .neg o)
  | .vcvt s b o => wordOk s b (.vec .cvt o)
  | .vcmplt s b o => wordOk s b (.vec .cmplt o)
  | .vcmpeq s b o => wordOk s b (.vec .cmpeq o)
  | .vsel s b o => wordOk s b (.vec .sel o)
  | .vqmx s b o => wordOk s b (.vec .qmx o)
  | .vand s b o => wordOk s b (.vec .and o)
  | .vor s b o => wordOk s b (.vec .or o)
  | .sfn s b o => wordOk s b (.sfn o)
  | .sfuse s b o => wordOk s b (.sfuse o)
  | .sstat s b o => wordOk s b (.sstat o)
  | .smerge s b o => wordOk s b (.smerge o)
  | .smask s b o => wordOk s b (.smask o)
  | .lmov s b o x => wordOk s b (.lmov o x)
  | .lgath s b o x => wordOk s b (.lgath o x)
  | .lscat s b o x => wordOk s b (.lscat o x)
  | .lda s b o => wordOk s b (.lda o)
  | .wstream s b o => wordOk s b (.wstream o)
  | .xput s b o => wordOk s b (.xput o)
  | .xcast s b o => wordOk s b (.xcast o)
  | .xdeck s b o => wordOk s b (.xdeck o)
  | .nop s b => wordOk s b .nop
  | .repeatFrame s b o => wordOk s b (.repeatF o)
  | .repeatIteration s => siteOk s
  | .seta s b d i => wordOk s b (.seta d i)
  | .adda s b d i => wordOk s b (.adda d i)
  | .addid s b d e c => wordOk s b (.addid d e c)
  | .region s b o => wordOk s b (.region o)
  | .rfree s b n t => wordOk s b (.rfree n t)
  | .markTrace s b v => wordOk s b (.mark v)
  | .rwait s b n t => wordOk s b (.rwait n t)
  | .endProgram s b => wordOk s b .endP
  | .instructionComplete _ | .tileLanding _ _ | .memoryItemComplete _ _ => true
  | .auditWindowStart | .auditCompare _ _ | .bistDone _ => true
  | .storeEcc _ _ _ => true
  | .linkParity d r c => d < 8 && r < 64 && c < 34
  | .gatewayParity d r => d < 8 && r < 64
  | .tableEcc d r c _ => d < 8 && r < 64 && c < 34
  | .sfuParity d r c => d < 8 && r < 64 && c < 34
  | .vaultPort d b => d < 8 && b < 4194304
  | .hubDefect => true
  | .droop d _ => d < 8
  | .hbmUncorrectable _ => true
  | .scReadRequest _ _ | .scWriteRequest _ _ => true
  | .kittyEviction d _ | .fetchInvalidate d _ => d < 8
  | .bar2Read fn _ _ => fn < 64
  | .bar2Write fn _ _ => fn < 64
  | .ldmaDb fn q t _ => fn < 64 && q < 64 && t < 256
  | .looseDmaDescriptor q _ _ => q < 64
  | .looseDmaStop q => q < 64
  | .resume fn q _ => fn < 64 && q < 64
  | .skip fn q | .halt fn q => fn < 64 && q < 64
  | .pcieWindowWrite _ w _ => w < 128
  | .windowChangeEffect w => w < 128
  | .openWindowStart | .openProgramStart | .openWindowEnd => true
  | .keyLoad _ _ => true
  | .keyUnload _ k => k < 8
  | .keySlotUpdate k => k < 8
  | .passHeader _ | .passRecord _ _ | .passStreamEnd _ | .passEndReport _ => true
  | .vaultScrub d b _ => d < 8 && b < 4194304
  | .tableSlotWrite _ k _ => k < 32
  | .tableSlotUpdate k => k < 32
  | .hbFirstLapFrame f | .hbSecondLapFrame f => f.slots.length ≤ 18
  | .hbRead n _ | .hbWrite n _ | .hbBroadcastRead n _ => n < 18
  | .roundOrigin => true
  | .frameReturn f _ => f.slots.length ≤ 18
  | .nodeLost a => a < 32
  | .ringBreak => true
  | .slowEntryPrepared i n => i < 65536 && n < 256
  | .snapshotLapse _ i n | .stagingTimeout _ i n => i < 65536 && n < 256
  | .mirrorRead r | .mirrorWrite r | .mirrorBroadcastRead r => mirrorOk r
  | .tapAccess a | .dictionaryWrite a => a.index < 65536 && a.sub < 256
  | .storeLayer _ _ | .storeComplete _ _ | .restoreLayer _ _ => true
  | .accountCounterClear _ a _ => a < 4096
  | .houseCounterClear _ _ | .accountBinding _ _ | .logClear _ _ | .joinMark _ _ => true
  | .handover _ _ | .groupBinding _ _ | .bindingEffect | .bankerElectionTimeout | .bankerTakeover _ | .refInLoss | .syncIn => true
  | .linkTrained k | .linkDown k => k < 8
  | .deckDataFlit k _ => k < 8
  | .deckNak k _ => k < 8
  | .deckIdent k _ _ _ _ => k < 8
  | .selectNotice k _ | .causeNotice k _ | .foldNotice k _ | .noRedealNotice k _ | .leaveNotice k _ => k < 8
  | .groupCompare | .leftRelease => true
  | .thermalEvaluation r => r.temps.length = 9
  | .thermalTrip _ | .tripRelease | .criticalTemperature _ => true
  | .sleepRequest _ | .runRequest _ | .sleepEntry _ | .sleepComplete | .wakeComplete _ => true
  | .grantObserve _ _ | .grantOpen _ _ | .blankOpenGrant _ | .recordVerified _ | .openPreparation | .openPreparationDone => true
  | .endDebugSession _ _ | .grantExpiry _ | .provision | .deploy | .undeploy | .returnCmd => true
  | .dealerHalt _ _ | .dealerStep _ _ => true
  | .getVersion | .getCapabilities | .negotiateAlgorithms _ _ _ _ | .getDigests | .getCertificate _ _ _ | .challenge _ _ => true
  | .getMeasurements _ | .keyExchange _ | .finish _ _ | .keyUpdate _ | .heartbeat _ | .endSession _ => true
  | .vendorDefinedRequest _ _ r _ => mirrorOk r
  | .ideIntegrityFail _ => true
  | .resetRelease st _ => st.hbAddr < 32
  | .hatbandReady _ | .runReady | .resetNPulse _ | .pwrGoodFall | .pcieReset => true
  | .flr fn => fn < 64
  | .watchdogExpiry => true
  | .firmwareReset _ _ => true
  | .stagingPieceWrite _ k _ => k < 16
  | .stageCheck _ | .checkComplete _ _ | .discard _ | .crownAuthorisation _ _ | .brimConfirm | .rollback _ _ _ => true
  | .evHead fn h => fn < 64 && h < 2048
  | .cplHead fn h => fn < 64 && h < 1024
  | .registerWrite fn _ _ => fn < 64
  | .missedEdge | .hbmTrained _ | .vaultMounted _ | .delayLineStep | .refInLock => true
  | .ideKmRequest _ _ _ => true
  | .msiXRaise fn v => fn < 64 && v < 512

end Sys2Proof
end

