-- ==== Sys2Proof/Decode.lean ====
section
/-!
DEFINITION. Decode.lean: words that spell commands, and the 128-bit words of SVIS.
The opcode table gives its rows no bits, so no table word spells a command. The 27 SVIS commands carry the fields of words that chapter 5 lays out: `decodeSvis` reads them from the words of Tables 5.4 to 5.12, `encodeSvis` writes them.
-/
namespace Sys2Proof

/-- The command a table word spells: no row of spec/opcode_table.json gives bits. -/
def decodeTableWord (_nbits _w : Nat) : Option Instr := none

/-! ## Operand fields, [70:0] of the base word -/

/-- The operand bits of a base word. -/
abbrev OpBits := BitVec 71

/-- Table 5.7. -/
def MmaOps.pack (o : MmaOps) : OpBits :=
  o.aAddr ++ o.bSpace ++ o.bAddr ++ o.cAddr ++ o.mt ++ o.nt ++ o.kt ++ o.fmtA ++ o.fmtB ++ o.order ++ o.acc ++ o.mode ++ o.mparam

def MmaOps.unpack (w : OpBits) : MmaOps :=
  { aAddr := w.extractLsb' 64 7, bSpace := w.extractLsb' 63 1, bAddr := w.extractLsb' 51 12, cAddr := w.extractLsb' 44 7, mt := w.extractLsb' 39 5
    nt := w.extractLsb' 34 5, kt := w.extractLsb' 26 8, fmtA := w.extractLsb' 22 4, fmtB := w.extractLsb' 18 4, order := w.extractLsb' 16 2
    acc := w.extractLsb' 15 1, mode := w.extractLsb' 13 2, mparam := w.extractLsb' 0 13 }

/-- MZERO: C_ADDR, MT, NT, INT. -/
def MzeroOps.pack (o : MzeroOps) : OpBits := o.cAddr ++ o.mt ++ o.nt ++ o.int ++ (0 : BitVec 53)

def MzeroOps.unpack (w : OpBits) : MzeroOps :=
  { cAddr := w.extractLsb' 64 7, mt := w.extractLsb' 59 5, nt := w.extractLsb' 54 5, int := w.extractLsb' 53 1 }

/-- Table 5.8. -/
def VOps.pack (o : VOps) : OpBits :=
  o.d ++ o.s1 ++ o.s2 ++ o.s3 ++ o.count ++ o.fmtD ++ o.fmtS ++ o.rnd ++ o.sat ++ o.bcast ++ (0 : BitVec 18)

def VOps.unpack (w : OpBits) : VOps :=
  { d := w.extractLsb' 64 7, s1 := w.extractLsb' 57 7, s2 := w.extractLsb' 50 7, s3 := w.extractLsb' 43 7, count := w.extractLsb' 31 12
    fmtD := w.extractLsb' 27 4, fmtS := w.extractLsb' 23 4, rnd := w.extractLsb' 20 3, sat := w.extractLsb' 19 1, bcast := w.extractLsb' 18 1 }

/-- SFN (Table 5.9). -/
def SfnOps.pack (o : SfnOps) : OpBits := o.d ++ o.s ++ o.count ++ o.fn ++ o.fmtD ++ o.fmtS ++ o.rnd ++ (0 : BitVec 28)

def SfnOps.unpack (w : OpBits) : SfnOps :=
  { d := w.extractLsb' 64 7, s := w.extractLsb' 57 7, count := w.extractLsb' 45 12, fn := w.extractLsb' 39 6, fmtD := w.extractLsb' 35 4
    fmtS := w.extractLsb' 31 4, rnd := w.extractLsb' 28 3 }

/-- SFUSE (Table 5.9). -/
def SfuseOps.pack (o : SfuseOps) : OpBits :=
  o.d ++ o.s ++ o.bias ++ o.scale ++ o.count ++ o.fn ++ o.fmtD ++ o.fmtS ++ o.rnd ++ o.sat ++ (0 : BitVec 13)

def SfuseOps.unpack (w : OpBits) : SfuseOps :=
  { d := w.extractLsb' 64 7, s := w.extractLsb' 57 7, bias := w.extractLsb' 50 7, scale := w.extractLsb' 43 7, count := w.extractLsb' 31 12
    fn := w.extractLsb' 25 6, fmtD := w.extractLsb' 21 4, fmtS := w.extractLsb' 17 4, rnd := w.extractLsb' 14 3, sat := w.extractLsb' 13 1 }

/-- SSTAT (Table 5.9). -/
def SstatOps.pack (o : SstatOps) : OpBits := o.d ++ o.s ++ o.rows ++ o.rowlen ++ o.stats ++ o.fmtS ++ (0 : BitVec 32)

def SstatOps.unpack (w : OpBits) : SstatOps :=
  { d := w.extractLsb' 64 7, s := w.extractLsb' 57 7, rows := w.extractLsb' 51 6, rowlen := w.extractLsb' 39 12, stats := w.extractLsb' 36 3
    fmtS := w.extractLsb' 32 4 }

/-- SMERGE (Table 5.9). -/
def SmergeOps.pack (o : SmergeOps) : OpBits := o.d ++ o.s1 ++ o.s2 ++ o.count ++ (0 : BitVec 38)

def SmergeOps.unpack (w : OpBits) : SmergeOps :=
  { d := w.extractLsb' 64 7, s1 := w.extractLsb' 57 7, s2 := w.extractLsb' 50 7, count := w.extractLsb' 38 12 }

/-- SMASK (Table 5.9). -/
def SmaskOps.pack (o : SmaskOps) : OpBits :=
  o.d ++ o.segq ++ o.segk ++ o.qt ++ o.kt ++ o.causal ++ o.segment ++ o.qreg ++ o.kreg ++ (0 : BitVec 28)

def SmaskOps.unpack (w : OpBits) : SmaskOps :=
  { d := w.extractLsb' 64 7, segq := w.extractLsb' 57 7, segk := w.extractLsb' 50 7, qt := w.extractLsb' 44 6, kt := w.extractLsb' 38 6
    causal := w.extractLsb' 37 1, segment := w.extractLsb' 36 1, qreg := w.extractLsb' 32 4, kreg := w.extractLsb' 28 4 }

/-- LMOV, LGATH, LSCAT (Table 5.10). -/
def LOps.pack (o : LOps) : OpBits :=
  o.ssp ++ o.soff ++ o.dsp ++ o.doff ++ o.count ++ o.fmtS ++ o.fmtD ++ o.rnd ++ o.sat ++ (0 : BitVec 1)

def LOps.unpack (w : OpBits) : LOps :=
  { ssp := w.extractLsb' 68 3, soff := w.extractLsb' 48 20, dsp := w.extractLsb' 45 3, doff := w.extractLsb' 25 20, count := w.extractLsb' 13 12
    fmtS := w.extractLsb' 9 4, fmtD := w.extractLsb' 5 4, rnd := w.extractLsb' 2 3, sat := w.extractLsb' 1 1 }

/-- LDA (Table 5.10). -/
def LdaOps.pack (o : LdaOps) : OpBits := o.dreg ++ o.ssp ++ o.soff ++ (0 : BitVec 44)

def LdaOps.unpack (w : OpBits) : LdaOps := { dreg := w.extractLsb' 67 4, ssp := w.extractLsb' 64 3, soff := w.extractLsb' 44 20 }

/-- WSTREAM (Table 5.10). -/
def WstreamOps.pack (o : WstreamOps) : OpBits := o.block ++ o.doff ++ o.nblk ++ o.mset ++ o.fmtS ++ o.fmtD ++ (0 : BitVec 10)

def WstreamOps.unpack (w : OpBits) : WstreamOps :=
  { block := w.extractLsb' 49 22, doff := w.extractLsb' 37 12, nblk := w.extractLsb' 30 7, mset := w.extractLsb' 18 12, fmtS := w.extractLsb' 14 4
    fmtD := w.extractLsb' 10 4 }

/-- XPUT (Table 5.11). -/
def XputOps.pack (o : XputOps) : OpBits :=
  o.ssp ++ o.soff ++ o.die ++ o.row ++ o.col ++ o.dsp ++ o.dcore ++ o.doff ++ o.count ++ o.rpe ++ o.rchip ++ o.rel ++ (0 : BitVec 4)

def XputOps.unpack (w : OpBits) : XputOps :=
  { ssp := w.extractLsb' 68 3, soff := w.extractLsb' 56 12, die := w.extractLsb' 53 3, row := w.extractLsb' 47 6, col := w.extractLsb' 42 5
    dsp := w.extractLsb' 41 1, dcore := w.extractLsb' 35 6, doff := w.extractLsb' 23 12, count := w.extractLsb' 11 12, rpe := w.extractLsb' 10 1
    rchip := w.extractLsb' 5 5, rel := w.extractLsb' 4 1 }

/-- XCAST (Table 5.11). -/
def XcastOps.pack (o : XcastOps) : OpBits := o.ssp ++ o.soff ++ o.mset ++ o.dcore ++ o.doff ++ o.count ++ o.rpe ++ o.rchip ++ (0 : BitVec 8)

def XcastOps.unpack (w : OpBits) : XcastOps :=
  { ssp := w.extractLsb' 68 3, soff := w.extractLsb' 56 12, mset := w.extractLsb' 44 12, dcore := w.extractLsb' 38 6, doff := w.extractLsb' 26 12
    count := w.extractLsb' 14 12, rpe := w.extractLsb' 13 1, rchip := w.extractLsb' 8 5 }

/-- XDECK (Table 5.11). -/
def XdeckOps.pack (o : XdeckOps) : OpBits :=
  o.ssp ++ o.soff ++ o.link ++ o.die ++ o.row ++ o.col ++ o.dcore ++ o.doff ++ o.count ++ o.rpe ++ o.rchip ++ (0 : BitVec 3)

def XdeckOps.unpack (w : OpBits) : XdeckOps :=
  { ssp := w.extractLsb' 68 3, soff := w.extractLsb' 56 12, link := w.extractLsb' 53 3, die := w.extractLsb' 50 3, row := w.extractLsb' 44 6
    col := w.extractLsb' 39 5, dcore := w.extractLsb' 33 6, doff := w.extractLsb' 21 12, count := w.extractLsb' 9 12, rpe := w.extractLsb' 8 1
    rchip := w.extractLsb' 3 5 }

/-- REPEAT (Table 5.12). -/
def RepeatOps.pack (o : RepeatOps) : OpBits := o.count ++ o.period ++ o.body ++ o.stepreg ++ o.step

def RepeatOps.unpack (w : OpBits) : RepeatOps :=
  { count := w.extractLsb' 59 12, period := w.extractLsb' 31 28, body := w.extractLsb' 19 12, stepreg := w.extractLsb' 15 4, step := w.extractLsb' 0 15 }

/-- REGION (Table 5.12). -/
def RegionOps.pack (o : RegionOps) : OpBits := o.num ++ o.store ++ o.base ++ o.len ++ o.access ++ (0 : BitVec 38)

def RegionOps.unpack (w : OpBits) : RegionOps :=
  { num := w.extractLsb' 65 6, store := w.extractLsb' 64 1, base := w.extractLsb' 52 12, len := w.extractLsb' 40 12, access := w.extractLsb' 38 2 }

/-! ## The extension word (R140) -/

/-- A dimension, from its top bit down: COUNT, SA, SB, SC. -/
def Dim.pack (d : Dim) : BitVec 38 := d.count ++ d.sa ++ d.sb ++ d.sc

def Dim.unpack (w : BitVec 38) : Dim := { count := w.extractLsb' 30 8, sa := w.extractLsb' 21 9, sb := w.extractLsb' 9 12, sc := w.extractLsb' 0 9 }

/-- The extension word of an instruction; none where it has none. -/
def Ext.pack : Ext → Option (BitVec 128)
  | .none => Option.none
  | .batch d0 d1 d2 => some ((1 : BitVec 2) ++ d0.pack ++ d1.pack ++ d2.pack ++ (0 : BitVec 12))
  | .ptrs addr count => some ((2 : BitVec 2) ++ addr ++ count ++ (0 : BitVec 103))

/-- Why a word is no SVIS instruction (SVIS_DECODE): the opcode or an operand value is unused, the extension is missing, unused or not allowed, a rsvd bit is set. -/
inductive SvisReject where
  | opcode | extension | reserved | operands
deriving DecidableEq, Repr

/-- Read an extension word. -/
def Ext.unpack (w : BitVec 128) : Except SvisReject Ext :=
  if w.extractLsb' 126 2 = 1 then
    (if w.extractLsb' 0 12 ≠ 0 then .error .reserved
     else .ok (.batch (Dim.unpack (w.extractLsb' 88 38)) (Dim.unpack (w.extractLsb' 50 38)) (Dim.unpack (w.extractLsb' 12 38))))
  else if w.extractLsb' 126 2 = 2 then
    (if w.extractLsb' 0 103 ≠ 0 then .error .reserved else .ok (.ptrs (w.extractLsb' 114 12) (w.extractLsb' 103 11)))
  else .error .extension

/-! ## The base word (Tables 5.4 and 5.6) -/

/-- OP of a V instruction. -/
def VOp.code : VOp → BitVec 5
  | .add => 0x00
  | .sub => 0x01
  | .mul => 0x02
  | .fma => 0x03
  | .max => 0x04
  | .min => 0x05
  | .abs => 0x06
  | .neg => 0x07
  | .cvt => 0x08
  | .cmplt => 0x09
  | .cmpeq => 0x0A
  | .sel => 0x0B
  | .qmx => 0x0C
  | .and => 0x0D
  | .or => 0x0E

/-- The V instruction of an OP. -/
def VOp.ofCode (c : BitVec 5) : Option VOp :=
  [VOp.add, .sub, .mul, .fma, .max, .min, .abs, .neg, .cvt, .cmplt, .cmpeq, .sel, .qmx, .and, .or][c.toNat]?

/-- Queue, opcode and operand bits of an instruction. -/
def SvisOp.pack : SvisOp → BitVec 3 × BitVec 5 × OpBits
  | .mma o _ => (0, 0x00, o.pack)
  | .mzero o => (0, 0x01, o.pack)
  | .vec v o => (1, v.code, o.pack)
  | .sfn o => (2, 0x00, o.pack)
  | .sfuse o => (2, 0x01, o.pack)
  | .sstat o => (2, 0x02, o.pack)
  | .smerge o => (2, 0x03, o.pack)
  | .smask o => (2, 0x04, o.pack)
  | .lmov o _ => (3, 0x00, o.pack)
  | .lgath o _ => (3, 0x01, o.pack)
  | .lscat o _ => (3, 0x02, o.pack)
  | .lda o => (3, 0x03, o.pack)
  | .wstream o => (3, 0x04, o.pack)
  | .xput o => (4, 0x00, o.pack)
  | .xcast o => (4, 0x01, o.pack)
  | .xdeck o => (4, 0x02, o.pack)
  | .nop => (5, 0x00, 0)
  | .repeatF o => (5, 0x01, o.pack)
  | .seta d i => (5, 0x02, d ++ i ++ (0 : BitVec 19))
  | .adda d i => (5, 0x03, d ++ i ++ (0 : BitVec 35))
  | .addid d sel scale => (5, 0x04, d ++ sel ++ scale ++ (0 : BitVec 32))
  | .region o => (5, 0x05, o.pack)
  | .rfree n st => (5, 0x06, n ++ st ++ (0 : BitVec 64))
  | .mark v => (5, 0x07, v ++ (0 : BitVec 55))
  | .rwait n st => (5, 0x10, n ++ st ++ (0 : BitVec 64))
  | .endP => (5, 0x11, 0)

/-- The extension an instruction carries. -/
def SvisOp.ext : SvisOp → Ext
  | .mma _ x => x
  | .lmov _ x => x
  | .lgath _ x => x
  | .lscat _ x => x
  | _ => .none

/-- The base word and the extension word of an instruction. -/
def encodeSvis (b : Base) (op : SvisOp) : BitVec 128 × Option (BitVec 128) :=
  let p := op.pack
  let ext : BitVec 1 := if op.ext = .none then 0 else 1
  (p.1 ++ p.2.1 ++ ext ++ b.issue ++ b.pe ++ b.post ++ b.we ++ b.wait ++ b.need ++ b.abase ++ p.2.2, op.ext.pack)

/-- The common fields of a base word. -/
def Base.unpack (w : BitVec 128) : Base :=
  { issue := w.extractLsb' 91 28, pe := w.extractLsb' 90 1, post := w.extractLsb' 85 5, we := w.extractLsb' 84 1, wait := w.extractLsb' 79 5
    need := w.extractLsb' 75 4, abase := w.extractLsb' 71 4 }

/-- The instruction, once its rsvd bits, the low `n` of its operand bits, are zero. -/
def unlessRsvd (w : OpBits) (n : Nat) (op : SvisOp) : Except SvisReject SvisOp := if w.extractLsb' 0 n = 0 then .ok op else .error .reserved

/-- An instruction that carries extension `x`, and no other takes one. -/
def noExt (x : Ext) (r : Except SvisReject SvisOp) : Except SvisReject SvisOp := if x = .none then r else .error .extension

/-- Table 5.6: the instruction of queue `q` and opcode `c`. -/
def SvisOp.unpack (q : BitVec 3) (c : BitVec 5) (w : OpBits) (x : Ext) : Except SvisReject SvisOp :=
  match q.toNat, c.toNat with
  | 0, 0x00 => .ok (.mma (MmaOps.unpack w) x)
  | 0, 0x01 => noExt x (unlessRsvd w 53 (.mzero (MzeroOps.unpack w)))
  | 1, _ => (match VOp.ofCode c with
    | some v => noExt x (unlessRsvd w 18 (.vec v (VOps.unpack w)))
    | none => .error .opcode)
  | 2, 0x00 => noExt x (unlessRsvd w 28 (.sfn (SfnOps.unpack w)))
  | 2, 0x01 => noExt x (unlessRsvd w 13 (.sfuse (SfuseOps.unpack w)))
  | 2, 0x02 => noExt x (unlessRsvd w 32 (.sstat (SstatOps.unpack w)))
  | 2, 0x03 => noExt x (unlessRsvd w 38 (.smerge (SmergeOps.unpack w)))
  | 2, 0x04 => noExt x (unlessRsvd w 28 (.smask (SmaskOps.unpack w)))
  | 3, 0x00 => unlessRsvd w 1 (.lmov (LOps.unpack w) x)
  | 3, 0x01 => unlessRsvd w 1 (.lgath (LOps.unpack w) x)
  | 3, 0x02 => unlessRsvd w 1 (.lscat (LOps.unpack w) x)
  | 3, 0x03 => noExt x (unlessRsvd w 44 (.lda (LdaOps.unpack w)))
  | 3, 0x04 => noExt x (unlessRsvd w 10 (.wstream (WstreamOps.unpack w)))
  | 4, 0x00 => noExt x (unlessRsvd w 4 (.xput (XputOps.unpack w)))
  | 4, 0x01 => noExt x (unlessRsvd w 8 (.xcast (XcastOps.unpack w)))
  | 4, 0x02 => noExt x (unlessRsvd w 3 (.xdeck (XdeckOps.unpack w)))
  | 5, 0x00 => noExt x (unlessRsvd w 71 .nop)
  | 5, 0x01 => noExt x (.ok (.repeatF (RepeatOps.unpack w)))
  | 5, 0x02 => noExt x (unlessRsvd w 19 (.seta (w.extractLsb' 67 4) (w.extractLsb' 19 48)))
  | 5, 0x03 => noExt x (unlessRsvd w 35 (.adda (w.extractLsb' 67 4) (w.extractLsb' 35 32)))
  | 5, 0x04 => noExt x (unlessRsvd w 32 (.addid (w.extractLsb' 67 4) (w.extractLsb' 64 3) (w.extractLsb' 32 32)))
  | 5, 0x05 => noExt x (unlessRsvd w 38 (.region (RegionOps.unpack w)))
  | 5, 0x06 => noExt x (unlessRsvd w 64 (.rfree (w.extractLsb' 65 6) (w.extractLsb' 64 1)))
  | 5, 0x07 => noExt x (unlessRsvd w 55 (.mark (w.extractLsb' 55 16)))
  | 5, 0x10 => noExt x (unlessRsvd w 64 (.rwait (w.extractLsb' 65 6) (w.extractLsb' 64 1)))
  | 5, 0x11 => noExt x (unlessRsvd w 71 .endP)
  | _, _ => .error .opcode

/-- The instruction a base word and the word after it spell, in a stream of region or ordered mode (R132, R134). -/
def decodeSvis (region : Bool) (w : BitVec 128) (next : Option (BitVec 128)) : Except SvisReject (Base × SvisOp) :=
  let x : Except SvisReject Ext :=
    if w.extractLsb' 119 1 = 0 then .ok .none else match next with | some n => Ext.unpack n | none => .error .extension
  match x with
  | .error e => .error e
  | .ok x =>
    match SvisOp.unpack (w.extractLsb' 125 3) (w.extractLsb' 120 5) (w.extractLsb' 0 71) x with
    | .error e => .error e
    | .ok op => if svisLegal region (Base.unpack w) op then .ok (Base.unpack w, op) else .error .operands

end Sys2Proof
end

