-- ==== Sys2Proof/Config.lean ====
section
/-!
DEFINITION. Config.lean: what an implementation fixes and the free values the spec leaves open.
No constant here has a body: nothing in Lean can evaluate one or prove a value of it.
-/
namespace Sys2Proof.Config

/-- Coefficient `k` (0 to 2) of segment `seg` of ROM table `table` (0 TANH, 1 EXP2, 2 LOG2, 3 RCP, 4 RSQ_E, 5 RSQ_O), FP32.
The spec publishes the tables as OD 0x2600.40 to 0x2600.45 and gives no coefficient but c0 of segment 0 (R221); log entry 10. -/
opaque romCoeff : Nat → Nat → Nat → Word32

/-- AES-256-GCM authenticated decryption (NIST SP 800-38D, R282): key, IV, additional data, ciphertext, tag; `none` when the tag fails. Log entry 11. -/
opaque gcmOpen : BitVec 256 → BitVec 96 → Bytes → Bytes → BitVec 128 → Option Bytes

/-- SHA-384 (FIPS 180-4, R282, R479). Log entry 11. -/
opaque sha384 : Bytes → BitVec 384

/-- ECDSA P-384 verification (FIPS 186-5, R479): public point, digest, signature string. Log entry 11. -/
opaque ecdsaVerify : Bytes → BitVec 384 → Bytes → Bool

/-- RFC 3394 wrap of a 256-bit key under the fused device key (R283). Log entry 11. -/
opaque keyWrap : BitVec 256 → BitVec 320

/-- RFC 3394 unwrap under the fused device key; `none` when the integrity check fails (R283). Log entry 11. -/
opaque keyUnwrap : BitVec 320 → Option (BitVec 256)

/-- Estimated energy in mJ of work number `n` of kind `k` (0 slot, 1 deal-wide), R84 and R85 state no value. Log entry 12. -/
opaque energy : Nat → Nat → Nat

/-- Bytes of a device-made message whose content the spec takes from another standard (SPDM responses, R501), by kind and free counter. Log entry 13. -/
opaque message : Nat → Nat → Bytes

/-- The device's certificate chain in DER, which the factory writes (OD 0x1000.09). Log entry 14. -/
opaque certChain : Bytes

/-- The spec's free values of plain words, by the counter `State.fresh` (log entry 15). -/
opaque freeWord : Nat → Word64

/-- The value of a dictionary entry whose factory content the spec does not give (energy calibration OD 0x1300.26). Log entry 14. -/
opaque factoryBlob : Nat → Bytes

/-- Offset of a placed seat's 256-byte record within its slot's MIRROR window, by position in the slot: no public field states it (R56). Log entry 16. -/
opaque mirrorOffset : Nat → Nat

/-- Offset of a placed seat's completion word within its slot's MIRROR window, by position in the slot (R56, Table 3.3). Log entry 16. -/
opaque completionOffset : Nat → Nat

/-- TPP, the token positions of a KV page, by FORM_ID and slot: the footprint fixes it in no public field (R238). Log entry 17. -/
opaque tokensPerPage : Nat → Nat → Nat

/-- The token position within its KV page that line `l` of the page belongs to, by FORM_ID, slot and `l`: how a page is laid out is Kralixa's choice (R238). Log entry 22. -/
opaque kvPosition : Nat → Nat → Nat → Nat

/-- λ of a frame quantised with `qp`, HEVC or AV1: R321 makes it a function of the quantiser alone and states no value. Log entry 32. -/
opaque motionLambda : Bool → Nat → Rat

/-- Coded bits of the vector (dx, dy), in eighths of a sample, for a block (x, y, w, h) from a reference buffer, after what the session has coded (R321; the codecs' standards). Log entry 32. -/
opaque vectorBits : List Nat → List (List Nat) → List Nat → Nat → Int → Int → Nat

/-- The standard forbids the vector (dx, dy), in eighths of a sample, for a block (R321; the codecs' standards). Log entry 32. -/
opaque vectorForbidden : List Nat → List Nat → Int → Int → Bool

/-- The standard's luma sample at (x, y), in eighths of a sample, of a picture given by its whole samples (R321). Log entry 32. -/
opaque fracSample : Bool → Nat → (Int → Int → Nat) → Int → Int → Nat

/-- SATD of a block of differences of a width (R321 names no transform size). Log entry 32. -/
opaque satd : Nat → List Int → Nat

/-- The inter blocks of a slice, each as (x, y, w, h), which mode decision chooses (R313, Table 11.2). Log entry 32. -/
opaque interBlocks : List Nat → List (List Nat) → Nat → List (List Nat)

/-- The coded bytes of a slice, by descriptor, coded frames (newest first), slice and motion of its inter blocks; and how many they are (R313; the codecs' standards). Log entry 32. -/
opaque codedByte : List Nat → List (List Nat) → Nat → List (Nat × Int × Int) → Nat → Byte
opaque codedLength : List Nat → List (List Nat) → Nat → List (Nat × Int × Int) → Nat

/-- Byte `i` of what a pool buffer holds of a reconstructed frame, and the luma sample (x, y) of it, by descriptor and coded frames (R317, R318; the codecs' standards). Log entry 32. -/
opaque reconByte : List Nat → List (List Nat) → Nat → Byte
opaque reconLuma : List Nat → List (List Nat) → Int → Int → Nat

/-- Sample `i` of plane `p` (0 luma, 1 Cb, 2 Cr) of a decoded frame, by codec, the bitstream consumed so far and the frame's output number (R305; the codecs' standards). Log entry 32. -/
opaque decodedSample : Nat → Bytes → Nat → Nat → Nat → Nat

/-- Sign of an exact zero that a V or SFUSE sum of values of unlike sign gives, by RND: R197 and R229 fix the value and not the sign. Log entry 24. -/
opaque zeroSign : Nat → Bool

end Sys2Proof.Config
end

