-- ==== Sys2Proof/Machine/State.lean ====
section
/-!
DEFINITION. Machine/State.lean: the state of one JV8 device as plain data, the reasons a step can stop, and the state at reset.
Sparse collections are lists of (key, value) pairs, keys rising, one entry per key; a missing key stands for the default that the accessor in Machine/Ops.lean gives.
-/
namespace Sys2Proof.Machine

/-- The model raises no fault: every condition the spec calls a fault is an effect on State (a fold, a status, an event). -/
inductive Fault where
  /-- Never raised by a meaning of this model; it keeps the type inhabited. Safe. -/
  | none
deriving DecidableEq, Repr

/-- Why a command is turned away without a meaning. -/
inductive Refusal where
  /-- The command of this mnemonic has no meaning in the model yet (raised by Machine/Dispatch.lean only). Safe. -/
  | notModelled (mnemonic : String)
deriving DecidableEq, Repr

/-! ## Deal clock (chapter 2) -/

/-- Table 2.5. -/
inductive CadState where
  | unlocked | acquiring | ready | dealing | flywheel | left
deriving DecidableEq, Repr

/-- The Cadence unit. Times are in ps since reset release. -/
structure Cad where
  /-- OD 0x1200.04 -/
  st : CadState := .unlocked
  deal : Nat := 0
  trick : Nat := 0
  /-- The length of the deal in progress, when known (R592). -/
  len : Option Nat := none
  /-- The period in force, ns; 0 while no position is held (R53). -/
  period : Nat := 0
  /-- Start of the trick in progress. -/
  startPs : Nat := 0
  /-- Length and period of the deal before the mark just passed, for stamps that lie before it (R32). -/
  prevLen : Nat := 0
  prevPeriod : Nat := 0
  /-- Consecutive flywheel edges (R45). -/
  missRun : Nat := 0
  /-- Consecutive accepted edges in ACQUIRING (Table 2.5). -/
  edgeRun : Nat := 0
  /-- Consecutive valid headers that passed R32 (Table 2.5). -/
  hdrRun : Nat := 0
  /-- The last valid header (R31, R33, R592). -/
  lastHdr : Option HbHeader := none
  /-- When it was received (ps). -/
  lastHdrPs : Nat := 0
  /-- Latched NEXT_LEN and NEXT_PERIOD (R29). -/
  latch : Option (Nat × Nat) := none
  /-- What was latched for the deal in progress, against which a header of the deal before it is still checked (R30). -/
  markLatch : Option (Nat × Nat) := none
  /-- OD 0x1200.08, .09, .0C -/
  flyCount : BitVec 32 := 0
  strayCount : BitVec 32 := 0
  departures : BitVec 32 := 0
  /-- OD 0x1200.0A, and every raise not withdrawn: the deal it counts from and the period it asked for (R42). -/
  stretchReq : Nat := 0
  stretchRaises : List (Nat × Nat) := []
  /-- The join mark the Banker announced for this node (R49, R371). -/
  joinMark : Option Nat := none
  /-- A new Banker's position has been refused under R379. -/
  refused : Bool := false
  /-- When that write arrived (ps; R371). -/
  joinPs : Nat := 0
  /-- Departure holds (R48): thermal trip and recurring HUB_DEFECT. -/
  holdThermal : Bool := false
  holdHub : Bool := false
  /-- OD 0x1200.07, and the delay line's position as it slews (R575), ps. -/
  trim : Nat := 0
  delayLine : Nat := 0
  /-- The outcome of the deal in progress is fixed (R26). -/
  decided : Bool := false
  /-- The cutoff of the next deal has been served in the deal in progress (R64). -/
  cutDone : Bool := false
  /-- The drain window of the deal has ended (Table 2.1). -/
  drained : Bool := false
  /-- The group comparison of R391 has been made. -/
  compared : Bool := false
deriving DecidableEq, Repr

/-! ## Seats and accounts (chapter 3) -/

/-- A seat record (Table 3.1). `rsvd` is the or of every reserved bit of the record. -/
structure Seat where
  /-- 0 EMPTY, 1 SEATED, 2 IN_DEAL, 3 HELD, 4 DONE. -/
  state : Nat := 0
  sel : Bool := false
  taint : Bool := false
  osel : Bool := false
  account : Nat := 0
  priority : Nat := 0
  phaseIdx : Nat := 0
  step : Nat := 0
  plan : Word64 := 0
  latentA : Nat := 0
  latentB : Nat := 0
  cond : Nat := 0
  kvRoot : Nat := 0
  kvPages : Nat := 0
  kvLen : Nat := 0
  residency : Nat := 0
  lastForm : Nat := 0
  lastSlot : Nat := 0
  heldCause : Nat := 0
  lastDeal : Nat := 0
  out : Nat := 0
  tag : Nat := 0
  videoEn : Bool := false
  videoEngine : Nat := 0
  videoSession : Nat := 0
  sCoreTricks : Nat := 0
  sHbm : Nat := 0
  sVault : Nat := 0
  sEnergy : Nat := 0
  deals : Nat := 0
  folds : Nat := 0
  args : Bytes := List.replicate 64 0
  rsvd : Bool := false
deriving DecidableEq, Repr

/-- One account (Table 3.13): counters of subindices 1 to 6 in order, the last update, the policy, and a pending clear (R84). -/
structure Acct where
  coreTricks : Nat := 0
  hbm : Nat := 0
  vault : Nat := 0
  pcie : Nat := 0
  deck : Nat := 0
  energy : Nat := 0
  lastDeal : Nat := 0
  /-- OD (0x3000 + a).08, default ENABLED. -/
  enabled : Bool := true
  loose : Bool := false
  clearPending : Bool := false
  /-- PCIe bytes of loose DMA completed since the last settle window (R84, R86; log entry 23). -/
  pciePending : Nat := 0
deriving DecidableEq, Repr

/-! ## Forms (chapter 4) -/

/-- Table 4.3. -/
structure FormSlot where
  cls : Nat
  cap : Nat
  group : Nat
  region : Nat
  cost : Nat
  scratch : Nat
  footFirst : Nat
  footCount : Nat
deriving DecidableEq, Repr

/-- Table 4.5. -/
structure Foot where
  kind : Nat
  base : Nat
  read : Bool
  write : Bool
  slot : Nat
  offset : Nat
  length : Nat
deriving DecidableEq, Repr

/-- Table 4.4. -/
structure OpenWin where
  start : Nat
  span : Nat
  dieMask : BitVec 8
  programs : Bool
  looseDma : Bool
  gbps : Nat
deriving DecidableEq, Repr

/-- Table 4.6. -/
structure Cert where
  ctVersion : Nat
  /-- TMIN_A to TMIN_D. -/
  tmin : List Nat
  maxTerms : Nat
  accBound : Nat
  repairHops : Nat
  lastIssue : Nat
  drain : Nat
  hbmPeak : Nat
  vaultPeak : Nat
  deckPeak : Nat
  digest : Bytes
deriving DecidableEq, Repr

/-- Where a command came from and how its completion record is to be written (R545, Table 19.6). -/
structure Ticket where
  fn : Nat
  op : Nat
  tag : Nat
  slot : Nat
  irq : Bool
  /-- Resets of the function before the command was taken (R539). -/
  epoch : Nat := 0
deriving DecidableEq, Repr

/-- A loaded form (Tables 4.2 to 4.6). -/
structure Form where
  id : Nat
  len : Nat
  cutoff : Nat
  dieMask : BitVec 8
  shortMask : BitVec 8
  mode : Nat
  groupSize : Nat
  member : Nat
  stageOffset : Nat
  weightImage : Nat
  slots : List FormSlot
  wins : List OpenWin
  foots : List Foot
  cert : Cert
  native : NativeInfo
  account : Nat
  predecessor : Option Nat
  revoked : Bool
  /-- FORM_UNLOAD commands that wait for the unload to take effect (R113). -/
  unload : List Ticket
deriving DecidableEq, Repr

/-! ## Sheets and deals (chapter 3) -/

/-- Sheet source, OD 0x2200.02. -/
inductive Source where
  | queued | cut | standing | repeatSheet | idle
deriving DecidableEq, Repr

/-- A fill list (Table 3.9). -/
structure Fill where
  slot : Nat
  affinity : Bool
  seats : List Nat
deriving DecidableEq, Repr

/-- A sheet (Table 3.8) that has been accepted or is under check. -/
structure Sheet where
  formId : Nat
  cut : Bool
  standing : Bool
  target : Nat
  tag : Nat
  fills : List Fill
  /-- Its completions are discarded: PF0 has been reset since its doorbell (R539). -/
  mute : Bool := false
deriving DecidableEq, Repr

/-- An owner of a pinned page (R256). -/
inductive Owner where
  | seat (id : Nat)
  | slot (i : Nat)
  | dealer
deriving DecidableEq, Repr

/-- A pinned physical page, `size` bytes at `base`, and its owner set (R256). -/
structure Pin where
  base : Nat
  size : Nat
  owners : List Owner
deriving DecidableEq, Repr

/-- One page of a resolved window: device VA, physical address, bytes. -/
structure PagePiece where
  va : Nat
  pa : Nat
  size : Nat
deriving DecidableEq, Repr

/-- A resolved window of the run-time footprint (R94), in resolution order (R255). -/
structure Window where
  slot : Nat
  pos : Nat
  seat : Nat
  foot : Nat
  kind : Nat
  acct : Nat
  va : Nat
  len : Nat
  read : Bool
  write : Bool
  pages : List PagePiece
  /-- Logical page of a page of a KV map, and whether the map is a ring (R80, R94, R238). -/
  page : Option Nat := none
  ring : Bool := false
deriving DecidableEq, Repr

/-- A sheet entry placed in a slot (R77); `cause` is the lowest fold cause that fell on it (R261); `descs` counts the KV page descriptors the Ante emitted for it. -/
structure Entry where
  slot : Nat
  pos : Nat
  seat : Nat
  void : Bool
  cause : Option Nat
  descs : Nat
  /-- A short-deck fill left the seat out: the entry is void and no placed fill (R353, R67). -/
  left : Bool := false
deriving DecidableEq, Repr

/-- A selected deal: the sheet, its placement and its Ante (R64, R72). An idle deal has no form and no entries (R65). -/
structure Plan where
  source : Source
  formId : Option Nat
  tag : Nat
  /-- A further status is owed to a sheet with this target (R548). -/
  owed : Option Nat
  entries : List Entry
  slotFolds : List (Nat × Nat)
  windows : List Window
  pins : List Pin
  /-- The misdealt deal this is a re-deal of (R352). -/
  redealOf : Option Nat
  /-- Detail and slot of each renege of the misdeal this repeats (R105). -/
  lastRenege : List (Nat × Nat)
  /-- Consecutive misdeals of this sheet with cause core defect, kibitzer mismatch or overrun (R356). -/
  streak : Nat
  /-- The deal is a repair idle deal (R351) or an audit deal (R357). -/
  repairIdle : Bool
  /-- Lines whose shared poison misdealt the deal this repeats (R260). -/
  poisonPages : List Nat
  /-- Vault blocks that failed in the deal this repeats: image, die, block (R300). -/
  vaultFailed : List (Nat × Nat × Nat)
  /-- A short-deck fill (R353): the sheet's voids so far. -/
  shortFill : Bool
  /-- Lane masks (Table 3.11, step 6): the placed positions, slot and position, whose lanes are not masked; and the slots folded from the first trick on, all of whose lanes are (R74, R105, R260). -/
  lanes : List (Nat × Nat) := []
  deadSlots : List Nat := []
deriving DecidableEq, Repr

/-- A misdeal cause (Table 1.3): `deal` is the deal it belongs to under R26, `slot` 0xFFF when none. -/
structure Cause where
  deal : Nat
  rank : Nat
  detail : Nat
  member : Nat
  remote : Bool
  slot : Nat
  die : Nat
  place : Nat
  repair : Bool
deriving DecidableEq, Repr

/-- A poisoned line that deal code read (R259), with the page ownership judged when it was met. -/
structure PoisonRead where
  deal : Nat
  pa : Nat
  /-- The gather window has judged it. -/
  judged : Bool := false
deriving DecidableEq, Repr

/-- A foreign write into a guarded page (R257). -/
structure ForeignWrite where
  deal : Nat
  pa : Nat
  /-- The gather window has judged it. -/
  judged : Bool := false
deriving DecidableEq, Repr

/-- An event to be posted (R555): the record's fields, the account it concerns, and whether every function receives it (R556). -/
structure EvReq where
  cls : Nat
  cause : Nat
  detail : Nat
  remote : Bool
  deal : Nat
  member : Nat
  subject : Nat
  place : Nat
  w0 : Nat
  w1 : Nat
  w2 : Nat
  w3 : Nat
  acct : Option Nat
  toAll : Bool
  /-- Logged without being posted (R466). -/
  logOnly : Bool
deriving DecidableEq, Repr

/-- A HOLD that waits for a decision or for the end of a settle window (R58): `deal` is the first deal at whose decision it may fold, none when it takes effect at the mark. -/
structure PendingHold where
  seat : Nat
  deal : Option Nat
  ticket : Ticket
deriving DecidableEq, Repr

/-- A vault block that failed to read in the deal (R300, R301). -/
structure VaultFail where
  deal : Nat
  image : Nat
  die : Nat
  block : Nat
  detail : Nat
deriving DecidableEq, Repr

/-- A defect whose check runs at the decision of its deal (R348): the unit, the cause's detail, the deal. -/
structure Check where
  unit : UnitRef
  rank : Nat
  detail : Nat
  deal : Nat
  /-- The decision has passed and the check is under way. -/
  running : Bool
deriving DecidableEq, Repr

/-- The Dealer's serving state. -/
structure Dealer where
  /-- Accepted sheets, oldest first (R62). -/
  sheets : List Sheet := []
  /-- The registered standing sheet, and one that replaces it from the next cutoff (R66). -/
  standing : Option Sheet := none
  standingNext : Option Sheet := none
  /-- The sheet selected for the next deal (R64). -/
  selected : Option Plan := none
  /-- The deal in progress. -/
  running : Option Plan := none
  /-- A misdealt deal that awaits its re-deal, and the first deal at which it may be dealt (R351, R50). -/
  redeal : Option Plan := none
  redealAt : Nat := 0
  /-- The most recent non-idle deal selected (R67). -/
  lastPlan : Option Plan := none
  holds : List PendingHold := []
  causes : List Cause := []
  poisonReads : List PoisonRead := []
  foreignWrites : List ForeignWrite := []
  vaultFails : List VaultFail := []
  /-- Completion words at the end of the drain window, by seat; none is a poisoned word (R56). -/
  completions : Option (List (Nat × Option Nat)) := none
  /-- Events gathered for the mark that follows the decision, in posting order (R83, R354). -/
  toPost : List EvReq := []
  /-- Events of Sleep entry's self-test, posted after the wake (R357). -/
  afterWake : List EvReq := []
  /-- Checks, rewrites and re-reads under way after a decision (R350), and whether the sheet's re-deal waits for them. -/
  checks : List Check := []
  rereads : List VaultFail := []
  /-- A running or requested audit run: deals left, and its command (R357). -/
  auditLeft : Nat := 0
  auditTickets : List Ticket := []
  /-- The misdeal streak of R356 holds the re-deal until BIST completes. -/
  bistHold : Bool := false
  bistRunning : Bool := false
  /-- A form to be revoked's next deal is idle (R106). -/
  forceIdle : Nat := 0
  /-- OD 0x1400.0B, instructions stepped under OD 0x1400.0C. -/
  halted : Bool := false
  stepsDone : Nat := 0
  /-- Outcome (committed) of the last decided deal (Table 13.6). -/
  lastOutcome : Bool := true
  /-- OD 0x2200.08 to .0C. -/
  committedDeals : Nat := 0
  idleDeals : Nat := 0
  foldCount : Nat := 0
  voidCount : Nat := 0
  lateCount : Nat := 0
  /-- LATE sheets and folds and voids since the last settle window (R464). -/
  latePending : Nat := 0
  /-- OD 0x2000.11, .12. -/
  misdeals : BitVec 32 := 0
  repairIdles : BitVec 32 := 0
  /-- House counters OD 0x2200.10 to .15, .16, and a pending clear (R85). -/
  house : List Nat := [0, 0, 0, 0, 0, 0]
  houseDeal : Nat := 0
  houseClear : Bool := false
  /-- Bytes moved by deal code in the deal: per slot HBM bytes, and per deal vault and Deck bytes (R85). -/
  slotHbm : List (Nat × Nat) := []
  vaultBytes : Nat := 0
  deckBytes : Nat := 0
  /-- What the lines that the running deal wrote held before it, in HBM, oldest first: the line's number, its bytes, whether it was poisoned (R14, R349). -/
  undo : List (Nat × Bytes × Bool) := []
  /-- Slots whose ACC_SAT is set (R212). -/
  accSat : List Nat := []
deriving DecidableEq, Repr

/-! ## Repair (chapter 12) -/

/-- Table 12.1: the cluster record of a physical cluster; `sub` is SUB0 to SUB3, the logical core each spare carries. -/
structure ClusterMap where
  condemned : BitVec 68 := 0
  sub : List (Option Nat) := [none, none, none, none]
deriving DecidableEq, Repr

/-- Table 12.2, without DECK's count rule: `lost` is DECK 2 set by a gateway or a vault port (R332). -/
structure DieMap where
  retired : BitVec 34 := 0
  lost : Bool := false
deriving DecidableEq, Repr

/-- A repair map, factory or field (R331); clusters by `clusterKey` of the physical cluster. -/
structure RepairMap where
  dies : List DieMap := List.replicate 8 {}
  clusters : List (Nat × ClusterMap) := []
deriving DecidableEq, Repr

/-- A suspect core (R343, R344): physical core `core` of the cluster, the shadow that raised the suspicion with its column, the logical core, the window, and whether the double audit waits for the re-deal (else BIST, R346). -/
structure Suspect where
  die : Nat
  row : Nat
  col : Nat
  core : Nat
  shadowCol : Nat
  shadow : Nat
  logical : Nat
  window : Nat
  deal : Nat
  single : Bool
  awaitBist : Bool
  /-- Its double audit runs in the first window of the next deal in which the core issues deal code (R347). -/
  anyWindow : Bool
  /-- The substitution or verdict is still to be made at the decision. -/
  fresh : Bool
  /-- The double audit's result: p = a, s0 = a, p = s0. -/
  result : Option (Bool × Bool × Bool)
deriving DecidableEq, Repr

/-- A window of audit in progress or awaiting comparison (R336, R341): the deal, the index, and the rotation pointers and suspects its shadows were chosen by (R337). -/
structure AuditWin where
  deal : Nat
  index : Nat
  rp : List (Nat × Nat) := []
  suspects : List Suspect := []
deriving DecidableEq, Repr

structure Repair where
  factory : RepairMap := {}
  /-- OD 0x2000.03 -/
  generation : BitVec 32 := 0
  suspects : List Suspect := []
  /-- Unconfirmed marks (R345): unit and deal. -/
  marks : List (UnitRef × Nat) := []
  /-- Rotation pointers RP by physical cluster (R337). -/
  rp : List (Nat × Nat) := []
  windows : List AuditWin := []
  /-- Clusters posted as unwatched (R342). -/
  unwatched : List Nat := []
  /-- OD 0x2000.0E to .10 -/
  compared : Nat := 0
  mismatches : Nat := 0
  transients : Nat := 0
  /-- OD 0x2000.13, default 65,536 -/
  transientWindow : Nat := 65536
  /-- OD 0x2000.14 and the deal of the last HUB_DEFECT (R359). -/
  hubHold : Bool := false
  hubDefectDeal : Option Nat := none
  /-- OD 0x1200.0B and a rise that waits for its mark (R358). -/
  agingGuard : Nat := 0
  guardNext : List (Nat × Nat) := []
  /-- OD 0x2000.17, ps, and the least margin of the deal in progress. -/
  lastMargin : Int := 0
  leastMargin : Option Int := none
  overrunSeen : Bool := false
  /-- OD 0x2000.18 -/
  bistResult : Nat := 0
deriving DecidableEq, Repr

/-! ## Events, completions and functions (chapters 16 and 19) -/

/-- Table 16.10. -/
structure LogRec where
  seq : BitVec 32
  cls : Nat
  cause : Nat
  detail : Nat
  posted : Bool
  remote : Bool
  deal : Nat
  member : Nat
  subject : Nat
  place : Nat
  timeUs : Nat
deriving DecidableEq, Repr

structure Log where
  /-- OD 0x4000.04, oldest first. -/
  ring : List LogRec := []
  /-- OD 0x4000.02, .03 -/
  seq : BitVec 32 := 0
  overwritten : Nat := 0
deriving DecidableEq, Repr

/-- An event record as the ring holds it (R555). -/
structure EvRec where
  seq : BitVec 32
  cls : Nat
  cause : Nat
  detail : Nat
  remote : Bool
  deal : Nat
  member : Nat
  w0 : Nat
  w1 : Nat
  w2 : Nat
  w3 : Nat
deriving DecidableEq, Repr

/-- A completion record (Table 19.6) without its PHASE bit. -/
structure CplRec where
  kind : Nat
  status : Nat
  opcode : Nat
  tag : Nat
  v0 : Nat
  v1 : Nat
  index : Nat
deriving DecidableEq, Repr

/-- One PCIe function's registers and rings (Table 19.3, R542 to R557). -/
structure Fn where
  cmdHead : Nat := 0
  /-- Tail last written through CMD_DB (R542). -/
  cmdTail : Nat := 0
  /-- Function Level Resets so far: completions of commands taken before one are discarded (R539). -/
  epoch : Nat := 0
  cplTail : Nat := 0
  cplHead : Nat := 0
  evTail : Nat := 0
  evHead : Nat := 0
  evLost : Nat := 0
  cplLost : Nat := 0
  /-- ERR [3:0]. -/
  err : BitVec 4 := 0
  apAcct : Nat := 0
  apValid : Bool := false
  apBase : Nat := 0
  /-- Ring contents: slot, record and, for a completion, its PHASE bit. -/
  cplRing : List (Nat × CplRec × Bool) := []
  cplPhase : Bool := true
  cplHeld : List (CplRec × Bool) := []
  evRing : List (Nat × EvRec) := []
  evHeld : List EvRec := []
  /-- Events dropped since the ring was last open, and the SEQ of the first (R557). -/
  lostRun : Nat := 0
  lostFirst : BitVec 32 := 0
  /-- Vectors due to be raised (R544), the vectors raised, and when each was last raised (ps). -/
  msixDue : List Nat := []
  msixLast : List (Nat × Nat) := []
  msixRaised : Nat := 0
  /-- The MSI-X table, 16 bytes an entry as two words (R541). -/
  msixTable : List (Nat × Word64) := []
  /-- Payload of a command slot that READ_SEAT filled (R546). -/
  payload : List (Nat × Bytes) := []
deriving DecidableEq, Repr

/-- The host interface. -/
structure HostIf where
  fns : List (Nat × Fn) := []
  /-- Sheet buffers 0 to 15 (R547): contents by buffer, the last status and BUSY. -/
  sheetBuf : List (Nat × Bytes) := []
  sheetStat : List (Nat × Nat) := []
  sheetBusy : List Nat := []
  /-- Buffers whose doorbell came before a reset of PF0 (R539). -/
  sheetMute : List Nat := []
  /-- Answer to the last BAR2 read: `some none` is Completer Abort (R554). -/
  bar2 : Option (Option Bytes) := none
  /-- OD 0x2201.01: function bound to each account; a missing account is bound to PF0. -/
  binding : List (Nat × Nat) := []
deriving DecidableEq, Repr

/-! ## Address contexts, loose DMA, coherence (chapter 9) -/

/-- A context descriptor (R244). -/
structure Context where
  valid : Bool := false
  l1Log : Nat := 0
  l1Base : Nat := 0
deriving DecidableEq, Repr

/-- A cached leaf (R247). -/
structure CachedLeaf where
  ctx : Nat
  va : Nat
  pa : Nat
  size : Nat
  r : Bool
  w : Bool
  sc : Bool
deriving DecidableEq, Repr

/-- An INVALIDATE that waits for pins to be released (R248). -/
structure Deferred where
  ctx : Nat
  va : Nat
  len : Nat
  ticket : Ticket
deriving DecidableEq, Repr

/-- A PCIe window (Table 9.5). -/
structure PcieWindow where
  devBase : Word64 := 0
  hostBase : Word64 := 0
  sizeLog : Nat := 0
  func : Nat := 0
  enable : Bool := false
  read : Bool := false
  write : Bool := false
deriving DecidableEq, Repr

structure Memory where
  /-- HBM bytes by physical address, canonical (Memory.wf); an unlisted byte reads 0 (log entry 3). -/
  bytes : List Host.Cell := []
  /-- Poisoned 64-byte lines, by address / 64, rising (R258). -/
  poison : List Nat := []
  contexts : List (Nat × Context) := []
  cached : List CachedLeaf := []
  deferred : List Deferred := []
  windows : List (Nat × PcieWindow) := []
  windowPending : List (Nat × PcieWindow) := []
  /-- OD 0x2100.02, .03, .04, .06 -/
  poisoned : Nat := 0
  lastPoison : Nat := 0
  walks : Nat := 0
  crossings : Nat := 0
  /-- The loose DMA queue whose turn is next (R266). -/
  turn : Nat := 0
deriving DecidableEq, Repr

/-- A loose DMA descriptor (Table 9.6); `rsvd` says a reserved field is nonzero. -/
structure LdmaDesc where
  src : Nat
  dst : Nat
  len : Nat
  srcHost : Bool
  dstHost : Bool
  irq : Bool
  tag : Nat
  rsvd : Bool
deriving DecidableEq, Repr

/-- A loose DMA queue (R263 to R266, R549). -/
structure LdmaQueue where
  account : Option Nat := none
  tail : Nat := 0
  head : Nat := 0
  status : Nat := 0
  stopped : Bool := false
  stopIndex : Nat := 0
  bytesDone : Nat := 0
  faultAddr : Nat := 0
  vec : Nat := 0
  /-- A fault met and not yet reported: its status and address (R264, R265). -/
  hit : Option (Nat × Nat) := none
  /-- The descriptor in hand, which moves whenever loose DMA may: the bytes its host side still gives from BYTES_DONE up, and the offset of the first line of a failed host read (R264, R266). -/
  hand : Option (Bytes × Option Nat) := none
  /-- The ring in BAR0, 256 slots. -/
  ring : List (Nat × LdmaDesc) := []
deriving DecidableEq, Repr

/-- Directory state of a shared-coherent line (R268). -/
inductive DirState where
  | uncached
  | shared (dies : BitVec 8) (hub : Bool)
  | owned (d : Nat)
  | ownedHub
deriving DecidableEq, Repr

structure Coherence where
  /-- Lines by physical address / 64. -/
  dir : List (Nat × DirState) := []
  /-- Eviction buffers: (die, line, M) of evictions begun and not yet processed (R270). -/
  evicting : List (Nat × Nat × Bool) := []
deriving DecidableEq, Repr

/-- One set of a Kitty: the line (physical address / 64) in each of its 16 ways that holds one, and the 15 bits of its pseudo-LRU tree. -/
structure KittySet where
  ways : List (Nat × Nat) := []
  tree : BitVec 15 := 0
deriving DecidableEq, Repr

/-- The eight Kitties: their sets by die × 65,536 + set, and OD 0x2000.07 and .08 (R181, Table 6.7). -/
structure Kitties where
  sets : List (Nat × KittySet) := []
  hits : Nat := 0
  misses : Nat := 0
deriving DecidableEq, Repr

/-! ## Groups (chapter 13) -/

/-- A group binding (Table 13.3). -/
structure Binding where
  groupId : Nat
  mode : Nat
  size : Nat
  member : Nat
  ring : List Nat
  peer : List Nat
  /-- The record as written, read back at OD 0x2500.11. -/
  image : Bytes
deriving DecidableEq, Repr

/-- A notice record with its KIND (Table 13.6): 1 SELECT, 2 CAUSE, 3 FOLD, 4 NO_REDEAL, 5 LEAVE. -/
structure GroupRec where
  kind : Nat
  note : Notice
deriving DecidableEq, Repr

structure Group where
  /-- OD 0x2500.11, and a binding that waits for its moment; `some none` unbinds (R381, R382). -/
  binding : Option Binding := none
  stored : Option (Option Binding) := none
  /-- Records held, oldest first. -/
  records : List GroupRec := []
  /-- R396. -/
  diverged : Bool := false
  /-- The next deal is dealt idle by R391, and the one after, as decided at the comparison. -/
  idleNext : Bool := false
deriving DecidableEq, Repr

/-! ## Vault (chapter 10) -/

/-- An image entry (Table 10.2) with the digest the vault records keep (R282) and its damaged blocks (die, block). -/
structure ImageEntry where
  id : Nat
  keyId : Nat
  gen : Nat
  /-- 1 WRITING, 2 READY, 3 DAMAGED; an ABSENT entry is not listed. -/
  state : Nat
  pos : Nat
  replicate : Bool
  /-- EXTENT[d]: first block and count. -/
  extents : List (Nat × Nat)
  digest : BitVec 384
  damaged : List (Nat × Nat)
deriving DecidableEq, Repr

/-- Table 10.4. -/
structure PassHead where
  positions : Nat
  replicate : Bool
  mend : Bool
  id : Nat
  keyId : Nat
  gen : Nat
  counts : List Nat
  digest : BitVec 384
deriving DecidableEq, Repr

/-- A pass in progress on this device (R293, R294). -/
structure PassRun where
  head : PassHead
  /-- Index of the entry written or mended; none on a device that only forwards. -/
  entry : Option Nat
  /-- Next block index of each shard, by 8 × position + die. -/
  nextIdx : List (Nat × Nat)
  /-- Own status once decided: 0 while all is well. -/
  status : Nat
  /-- The PASS command, on the position-0 device. -/
  ticket : Option Ticket
  /-- The stream has ended here. -/
  ended : Bool
deriving DecidableEq, Repr

structure Vault where
  /-- Key slots: key ID and key (R283). -/
  keys : List (Nat × Nat × BitVec 256) := []
  /-- Changes that wait for a mark, and when each was accepted (R284). -/
  keyPending : List (Nat × Option (Nat × BitVec 256) × Nat) := []
  pass : Option PassRun := none
  /-- PASS was accepted and its header has not arrived. -/
  passCmd : Option Ticket := none
  /-- The Deck link the pass stream comes in on (R295). -/
  passFrom : Option Nat := none
  /-- PASS flits received whose credits are withheld (R293). -/
  passHeld : Nat := 0
  /-- OD 0x2300.20 to .22, .24, .25 -/
  aboveLowest : Nat := 0
  corrected : Nat := 0
  failures : Nat := 0
  lastStatus : Nat := 0
  scrubDays : Nat := 30
deriving DecidableEq, Repr
/-! ## Video engines (chapter 11) -/

/-- A bank handed to an encode session (R308): its deal, seat, bank address and length, pinned pages, and the frames already begun. -/
structure Handoff where
  deal : Nat
  seat : Nat
  tag : Nat
  va : Nat
  len : Nat
  pins : List Pin
  read : Nat
  /-- The hand-off time (ps). -/
  ps : Nat
deriving DecidableEq, Repr

/-- The session descriptor's fields (Table 11.4). -/
structure SessDesc where
  codec : Nat := 0
  depth : Nat := 8
  level : Nat := 0
  hostMark : Bool := false
  aud : Bool := false
  sliceIrq : Bool := false
  width : Nat := 0
  height : Nat := 0
  fpsNum : Nat := 0
  fpsDen : Nat := 0
  poolFirst : Nat := 0
  poolCount : Nat := 0
  maxShort : Nat := 0
  nref : Nat := 0
  sliceRows : Nat := 0
  tileCols : Nat := 0
  intraPeriod : Nat := 0
  rc : Nat := 0
  qp : Nat := 0
  kbps : Nat := 0
  maxKbps : Nat := 0
  searchX : Nat := 0
  searchY : Nat := 0
  pitch : Nat := 0
  bsBase : Nat := 0
  bsLog : Nat := 0
  srLog : Nat := 0
  srBase : Nat := 0
  stateVa : Nat := 0
  rsvd : Bool := false
deriving DecidableEq, Repr

/-- A DECODE command under way or waiting (R322). -/
structure DecodeRun where
  va : Nat
  len : Nat
  outVa : Nat
  frames : Nat
  tag : Nat
  ticket : Ticket
  consumed : Nat
  /-- Frames of the command so far, written or not (Case 2 of the video chapter). -/
  written : Nat
  /-- The frame now due waits for the release of a pin, and has been counted (R324). -/
  waiting : Bool := false
deriving DecidableEq, Repr

/-- A frame an encode session has coded or is coding, as far as it fixes the bitstream (R313): its number, what it is coded as, its rate, references, marks and reconstruction buffer, and the samples read, slice by slice. -/
structure CodedFrame where
  frame : Nat := 0
  key : Bool := false
  restarted : Bool := false
  kbps : Nat := 0
  maxKbps : Nat := 0
  qp : Nat := 0
  refs : List Nat := []
  marks : List Nat := []
  buf : Nat := 0
  slices : List (List Nat) := []
deriving DecidableEq, Repr

/-- An encode or decode session (R306). -/
structure Session where
  /-- 0 CLOSED, 1 OPEN, 2 DRAINING, 3 FAULTED (R551). -/
  state : Nat := 0
  account : Nat := 0
  frames : Nat := 0
  frameStride : Nat := 0
  desc : SessDesc := {}
  handoffs : List Handoff := []
  /-- Frame number of the frame in progress or next to begin, and the slice that comes next in it. -/
  frame : Nat := 0
  slice : Nat := 0
  /-- The frame in progress is a key frame, and restarted (R311, Table 11.9). -/
  key : Bool := false
  restarted : Bool := false
  forceKey : Bool := false
  /-- The pool buffer that receives the frame in progress, and a mark that waits for it (R318, R319). -/
  recon : Option Nat := none
  markLater : Option Nat := none
  /-- RATE values that apply from the next frame: KBPS, MAX_KBPS, QP. -/
  rate : Option (Nat × Nat × Nat) := none
  /-- Bytes written to the ring and bytes the host has read (R315, R551); the session waits on a full ring. -/
  written : Nat := 0
  hostRead : Nat := 0
  full : Bool := false
  /-- Records since OPEN (R316), output order of decode, and whether frames are skipped to the next key picture (R325). -/
  seq : Nat := 0
  outFrame : Nat := 0
  skipping : Bool := false
  decodes : List DecodeRun := []
  /-- Frames coded, newest first, and the bytes of a slice that waits for room in the ring (R313, R315). -/
  coded : List CodedFrame := []
  waiting : Option Bytes := none
  /-- Bitstream decoded so far: decoder state persists across commands (R322). -/
  stream : Bytes := []
  /-- ABANDON waits for the slice in service. -/
  abandon : Bool := false
  /-- CLOSE and ABANDON commands that wait. -/
  closing : List Ticket := []
  /-- Its MSI-X vector (R551). -/
  vec : Nat := 0
  /-- OD-visible code of the last failure, Table 11.9. -/
  fault : Nat := 0
deriving DecidableEq, Repr

/-- One pool entry (R317): buffer, bytes, mark (0 UNUSED, 1 SHORT, 2 LONG), the session, and the order in which it became SHORT. -/
structure PoolEntry where
  va : Nat := 0
  bytes : Nat := 0
  mark : Nat := 0
  session : Nat := 0
  age : Nat := 0
deriving DecidableEq, Repr

structure Engine where
  /-- The session served last (R314). -/
  last : Nat := 63
  encoded : Nat := 0
  decoded : Nat := 0
  defects : Nat := 0
  /-- In the 10 ms reset of R328. -/
  resetting : Bool := false
  disabled : Bool := false
  pool : List (Nat × PoolEntry) := []
  /-- Counter behind PoolEntry.age. -/
  clock : Nat := 0
deriving DecidableEq, Repr

structure Video where
  /-- Sessions by 64 × engine + session. -/
  sessions : List (Nat × Session) := []
  engines : List (Nat × Engine) := []
  /-- OD 0x2400.10 to .12. -/
  voids : Nat := 0
  held : Nat := 0
  longest : Nat := 0
deriving DecidableEq, Repr

/-! ## The object dictionary (chapters 15 and 16) -/

/-- Live values of the RWN entries that no unit above holds (R440), at their factory defaults. -/
structure Settings where
  /-- OD 0x1100.01, .04 -/
  ringAddr : Nat := 0
  seg : Nat := 2
  /-- OD 0x1300.20 to .24; the two thresholds as binary32 patterns of 95.0 and 90.0 -/
  stretchOn : Word32 := 0x42BE0000
  stretchOff : Word32 := 0x42B40000
  powerOn : Nat := 1650
  step : Nat := 4
  withdraw : Nat := 100
  /-- OD 0x2500.01, .02, .05 to .08, .0A -/
  candidate : Nat := 0
  eligible : Nat := 1
  position : Nat := 0
  passLink : Nat := 0xFF
  lenPlan : Nat := 131072
  periodPlan : Nat := 40
  refSync : Nat := 0
deriving DecidableEq, Repr

/-- The answer to an access. -/
structure DictAns where
  status : Nat
  detail : Nat
  data : Bytes
deriving DecidableEq, Repr

/-- Who asks, as staging buffers and snapshots know them (R436, R438). -/
inductive Requester where
  | ring (caller cls : Nat)
  | mirror (fn slot : Nat)
  | secured (n : Nat)
  | tap
  | self
deriving DecidableEq, Repr

/-- A staging buffer (R436). -/
structure Staging where
  who : Requester
  index : Nat
  sub : Nat
  bytes : Bytes
deriving DecidableEq, Repr

/-- A snapshot held for segmented reads (R438). -/
structure Snapshot where
  who : Requester
  index : Nat
  sub : Nat
  bytes : Bytes
deriving DecidableEq, Repr

/-- A slow entry being prepared on the Hatband (R415): its first PASS (ps), and its copy once prepared. -/
structure SlowPrep where
  index : Nat
  sub : Nat
  firstPs : Nat
  copy : Option Bytes
deriving DecidableEq, Repr

/-- A mirror slot's completed header and data (Table 15.9). -/
structure MirrorAns where
  tag : Nat
  status : Nat
  detail : Nat
  contrib : Nat
  alen : Nat
  data : Bytes
deriving DecidableEq, Repr

/-- A request carried over the ring (R449, R503): the request, its KIND, the secured session it came by, the bytes done, the voids of the call under way, the data so far, the TAG of that call, and the round and slot it stands in. -/
structure RemoteReq where
  req : MirrorReq
  kind : Nat
  secured : Option Nat
  pos : Nat := 0
  tries : Nat := 0
  got : Bytes := []
  tag : Nat := 0
  posted : Option (Nat × Nat) := none
deriving DecidableEq, Repr

/-- A record of a user copy (Table 15.6). -/
structure UserRec where
  index : Nat
  sub : Nat
  type : Nat
  value : Bytes
deriving DecidableEq, Repr

/-- A user copy that is whole (Table 15.5); an invalid copy is held as none. -/
structure UserCopy where
  seq : Nat
  brim : Nat
  recs : List UserRec
deriving DecidableEq, Repr

structure Dict where
  /-- The answer to the last access that answers in place. -/
  answer : Option DictAns := none
  staging : List Staging := []
  snaps : List Snapshot := []
  slow : List SlowPrep := []
  /-- Mirror slots by 16 × function + slot, and requests that wait on the ring. -/
  mirror : List (Nat × MirrorAns) := []
  remote : List RemoteReq := []
  settings : Settings := {}
  /-- OD 0x1500.02, .04, .05, .06 -/
  storeState : Nat := 0
  inForce : Nat := 0
  seqInForce : Nat := 0
  /-- The copy being stored, whether it is a restore, and whether the next store writes B first. -/
  storing : Option UserCopy := none
  firstB : Bool := true
  /-- Records carried forward (R443). -/
  carried : List UserRec := []
deriving DecidableEq, Repr

/-! ## The Hatband (chapter 14) -/

/-- The last write applied for a caller (R412). -/
structure LastWrite where
  caller : Nat
  tag : Nat
  status : Nat
  data : Bytes
deriving DecidableEq, Repr

structure Hatband where
  /-- OD 0x1100.02 -/
  addr : Nat := 0
  /-- R419. -/
  dup : Bool := false
  /-- R409. -/
  order : List OrderEntry := []
  present : Word32 := 0
  /-- OD 0x1100.09 to .0C, .0E -/
  symErrs : BitVec 32 := 0
  voidHeaders : BitVec 32 := 0
  voidCalls : BitVec 32 := 0
  collisions : BitVec 32 := 0
  passes : BitVec 32 := 0
  lastWrites : List LastWrite := []
  /-- ROUND and BANKER_ID of the first-lap frames forwarded or originated last, the latest eight (R593). -/
  seen : List (Nat × Nat) := []
  /-- The frame this node put on HB_OUT last, and slots answered in it. -/
  out : Option HbFrame := none
  answers : List (Nat × HbCall) := []
  /-- Calls met on the first lap, as they left this node, by 32 × round + slot; the latest 72 (R411, R422). -/
  lap1 : List (Nat × HbCall) := []
  /-- Banker: the next round number, the origin of the last round (ps), lap delay (ns), lag, lost and known nodes, missing counts, a break posted, closure (R402 to R406, R423, R424). -/
  round : Nat := 0
  roundPs : Option Nat := none
  dr : Nat := 0
  lag : Nat := 0
  lost : Word32 := 0
  known : Word32 := 0
  missing : List (Nat × Nat) := []
  broken : Bool := false
  closure : Int := 0
  closureBad : Bool := false
  stretch : Nat := 0
  floor : Nat := 0
  join : Word32 := 0
  /-- Rounds out on their first lap: number, origin (ps), ACC_DELAY at origin. -/
  sent : List (Nat × Nat × Nat) := []
  /-- Banker: rounds whose second lap left with EOF VOID, the latest eight (R422). -/
  voided : List Nat := []
  /-- Nodes whose join mark has been written, with its deal (R371). -/
  admitted : List (Nat × Nat) := []
  /-- Next TAG of this device's own calls. -/
  nextTag : Nat := 0
  /-- The last valid header this node received, in every Cadence state, and when (ps); kept for R373 and R377. -/
  lastHdr : Option HbHeader := none
  headerPs : Nat := 0
deriving DecidableEq, Repr

/-! ## Start-up and update (chapter 18) -/

/-- The boot record (Table 18.2). -/
structure Boot where
  seq : Nat := 1
  /-- False is A. -/
  activeB : Bool := false
  /-- 0 EMPTY, 1 CONFIRMED, 2 TRIAL, 3 REJECTED. -/
  slotA : Nat := 1
  slotB : Nat := 0
  tried : Bool := false
  crownCopy : Bool := false
  /-- 0 none, 1 Brim, 2 Crown. -/
  pend : Nat := 0
  last : Nat := 0
  ringAddr : Nat := 0
  ringValid : Bool := false
  brimFloor : Nat := 0
  crownFloor : Nat := 0
deriving DecidableEq, Repr

/-- An image region: its 256-byte header and its body (Table 18.4). -/
structure Image where
  header : Bytes := []
  body : Bytes := []
deriving DecidableEq, Repr

structure Start where
  /-- OD 0x1500.1B: 0 before Hatband-ready. -/
  stage : Nat := 0
  /-- When the device became Hatband-ready (ps). -/
  readyPs : Nat := 0
  /-- Reset has been released and the rails are good; the ROM runs. -/
  up : Bool := false
  /-- A rail was low at reset release (R568). -/
  railFault : Bool := false
  /-- OD 0x1000.0B -/
  reason : Nat := 0
  /-- What stands of the start timeline: BIST done, HBM trained, vault mounted (Table 18.3). -/
  bist : Bool := false
  hbm : Bool := false
  vault : Bool := false
  /-- OD 0x1500.1D, .1C, .12, .15 -/
  heldCause : Nat := 0
  outcome : Nat := 0
  refusal : Nat := 0
  auths : Nat := 0
  /-- The running Brim: slot B, and on trial. -/
  runB : Bool := false
  trial : Bool := false
  /-- A factory record failed (R509). -/
  factoryBad : Bool := false
  /-- A firmware reset waits for its boundary (R531). -/
  resetReq : Bool := false
  /-- Run-ready is due by this time from reset release (ps): 1.5 s, and later at a start that copies an image or completes effects (R516 to R518). -/
  boundPs : Nat := 1500000000000
deriving DecidableEq, Repr

/-! ## Security, debug and power (chapter 17) -/

/-- A signed record that passed its structural checks (Table 17.2): 0 grant, 1 life-cycle command, 2 Crown authorisation. -/
structure SignedRec where
  kind : Nat
  action : Nat
  seq : Nat
  duration : Nat
  path : Nat
  meas : Bytes
  body : Bytes
  sig : Bytes
deriving DecidableEq, Repr

/-- An SPDM secured session (R501): 1 handshake, 2 established. -/
structure Spdm where
  id : Nat
  state : Nat
deriving DecidableEq, Repr

structure Sec where
  /-- OD 0x1000.05: 0 Blank, 1 Provisioned, 2 Deployed, 3 Returned, 4 Lamed (factory: Blank, log entry 5). -/
  lifeCycle : Nat := 0
  /-- The life-cycle record failed its authentication at start (R471). -/
  lcBad : Bool := false
  /-- OD 0x1400.04, and the session: its PATH and its expiry (ps). -/
  level : Nat := 0
  session : Bool := false
  path : Nat := 0
  expiry : Option Nat := none
  /-- A record being verified (R481). -/
  verifying : Option SignedRec := none
  /-- An Open grant that waits for its boundary or its preparation: PATH, expiry (R484, R485). -/
  openWait : Option (Nat × Nat) := none
  preparing : Bool := false
  /-- An accepted life-cycle command that waits for its boundary (R489). -/
  command : Option Nat := none
  /-- The join flag is held low: an Open session in Provisioned or Deployed (R478). -/
  joinLow : Bool := false
  /-- OD 0x1400.07, .0A -/
  lastKey : Nat := 0xFF
  events : BitVec 32 := 0
  /-- SPDM: messages so far (1 version, 2 capabilities, 3 algorithms), the responses given, sessions, and the next session number. -/
  spdmPhase : Nat := 0
  spdm : List Spdm := []
  nextSpdm : Nat := 1
  response : List (Nat × Bytes) := []
  /-- OD 0x1400.09, streams keyed, and streams in the insecure state. -/
  ide : Nat := 0
  ideStreams : List Nat := []
  ideBad : List Nat := []
deriving DecidableEq, Repr

structure Power where
  /-- OD 0x1300.02 -/
  phase : Nat := 0
  /-- A Sleep request that waits, a Run request made during entry (R491, R496). -/
  sleepReq : Bool := false
  runReq : Bool := false
  /-- The wake owes the session-end check (R494). -/
  wakeCheck : Bool := false
  /-- When the last wake completed (ps). -/
  wakePs : Nat := 0
  /-- OD 0x1300.10 to .18, in 0.1 degree C. -/
  temps : List (Option Int) := List.replicate 9 (some 0)
  /-- OD 0x1300.07, .08, .09 -/
  watts : Nat := 0
  energy : Nat := 0
  thermal : Nat := 0
  /-- Since when the period in force has met the own request (ps; R461). -/
  metSince : Option Nat := none
  /-- Evaluations in a row at which the withdraw condition held. -/
  cool : Nat := 0
  /-- Dies all of whose sensors have failed (R469). -/
  blind : List Nat := []
  /-- The trip is in force, and evaluations in a row at or below STRETCH_OFF (R586, R587). -/
  tripped : Bool := false
  tripCool : Nat := 0
  /-- Below 0 degrees C at start: deals nothing until every reading is at or above 0 (Table 20.8). -/
  cold : Bool := false
  /-- The last whole millisecond evaluated. -/
  lastMs : Nat := 0
deriving DecidableEq, Repr

/-! ## Factory records -/

/-- What the factory wrote (log entry 5). -/
structure Factory where
  /-- OD 0x1000.03, .04; OD 0x2000.01 (0 is grade A), .02 -/
  serial : Nat := 1
  revision : Nat := 0x00010000
  grade : Nat := 0
  ctVersion : Nat := 0x00080001
deriving DecidableEq, Repr

/-! ## Board pins (chapter 20) -/

structure Pins where
  loadHint : Bool := false
  hbAlive : Bool := false
  /-- True: asserted (low). -/
  thermN : Bool := false
  critN : Bool := false
  /-- BEAT_OUT drives the trick reference (R571). -/
  beatOut : Bool := false
  /-- Straps sampled at reset release (R580). -/
  bankerEn : Bool := false
  hbAddr : Nat := 0
deriving DecidableEq, Repr
/-! ## Compute (chapters 5 to 8) -/

/-- A live store region (R157); `freeing` says an RFREE waits for its accesses to complete. -/
structure StoreRegion where
  num : Nat
  base : Nat
  len : Nat
  access : Nat
  freeing : Bool := false
deriving DecidableEq, Repr

/-- A store of a core or of a cluster, by key (logical coordinates, R8). -/
inductive StoreRef where
  | core (key : Nat)
  | cluster (key : Nat)
deriving DecidableEq, Repr

/-- The frame a REPEAT has opened at a core (R129): where the REPEAT stands, its issue cycle, its fields, and the last iteration begun. -/
structure Loop where
  path : List (Nat × Nat)
  word : Nat
  base : Nat
  body : Nat
  count : Nat
  period : Nat
  iter : Nat
  stepReg : Nat
  step : Int
deriving DecidableEq, Repr

/-- Where a core stands in one stream: the frames opened, the place in program order of each queue's last instruction, the words done, and whether END has issued. -/
structure StreamPos where
  stream : Nat
  owner : CodeOwner
  loops : List Loop := []
  last : List (Nat × List Nat) := []
  done : Nat := 0
  ended : Bool := false
deriving DecidableEq, Repr

/-- A word of a stream as the first core to issue it had it (R120): of deal code by its form, of an open program by its number. -/
structure CodeWord where
  prog : Option Nat
  form : Nat
  stream : Nat
  word : Nat
  base : Base
  op : SvisOp
deriving DecidableEq, Repr

/-- A queue of a core: cycle and occupancy of its last issue, and its last completion (R184). -/
structure QState where
  issue : Nat
  occ : Nat
  done : Nat
deriving DecidableEq, Repr

/-- A word handed to a queue in region mode that has not issued (R162). -/
structure Handed where
  seq : Nat
  stream : Nat
  program : Nat
  word : Nat
  base : Base
  op : SvisOp
deriving DecidableEq, Repr

/-- A logical core. -/
structure Core where
  /-- Core store bytes, 128 lines of 64 (R167), canonical. -/
  store : List Host.Cell := []
  /-- Lines with the weight mark (R289). -/
  marks : List Nat := []
  /-- A1 to A15 (R151), and writes not visible before a later cycle (R152). -/
  regs : List (Nat × Nat) := []
  regsLate : List (Nat × Nat × Nat) := []
  /-- Chips (R153), and posts not visible before a later cycle (R154). -/
  chips : List (Nat × Nat) := []
  posts : List (Nat × Nat) := []
  regions : List StoreRegion := []
  queues : List (Nat × QState) := []
  streams : List StreamPos := []
  handed : List Handed := []
  /-- Audit windows of the deal in which the core issued deal code (R347). -/
  dealWins : List Nat := []
deriving DecidableEq, Repr

/-- A cluster's store (R169), 4,096 lines. -/
structure Cluster where
  store : List Host.Cell := []
  marks : List Nat := []
  regions : List StoreRegion := []
deriving DecidableEq, Repr

/-- One access of an instruction to lines of a store (R158). -/
structure StoreAcc where
  ref : StoreRef
  first : Nat
  len : Nat
  write : Bool
deriving DecidableEq, Repr

/-- Bytes an instruction writes at completion: the stores, the byte address, the data, and the weight mark the lines take (R289). -/
structure StoreWrite where
  dsts : List StoreRef
  addr : Nat
  data : Bytes
  mark : Bool
deriving DecidableEq, Repr

/-- Which event completes an item (R183, R177, R179). -/
inductive Plane where
  | local | tile | memory
deriving DecidableEq, Repr

/-- An instruction in flight. -/
structure Item where
  id : Nat
  core : Nat
  die : Nat
  stream : Nat
  owner : CodeOwner
  queue : Nat
  seq : Nat
  plane : Plane
  issue : Nat
  /-- The cycle in which it completes. -/
  done : Nat
  /-- Detail and place of the overrun it is when late (Table 6.6). -/
  lateDetail : Nat
  latePlace : Nat
  accs : List StoreAcc
  /-- Lines written in receiving stores at landing (R149, R158). -/
  incoming : List StoreAcc
  writes : List StoreWrite
  hbm : List (Nat × Bytes)
  /-- LDA's register and value. -/
  reg : Option (Nat × Nat)
  post : Option Nat
  /-- Remote posts: core and chip (R150). -/
  remote : List (Nat × Nat)
  /-- WSTREAM: die, first block of the stack, blocks, and bytes each lands. -/
  vault : Option (Nat × Nat × Nat × Nat)
  /-- A landing that waits at the Felt port of a region-mode cluster (R163). -/
  held : Bool
  /-- Place in the order in which a region-mode core was handed its words (R162). -/
  order : Nat := 0
deriving DecidableEq, Repr

/-- An open program (R119). -/
structure Program where
  id : Nat
  account : Nat
  info : NativeInfo
  ticket : Ticket
  dieMask : BitVec 8
  /-- When its PROGRAM command was taken (ps). -/
  takenPs : Nat
  /-- Trick in which it started; none while it waits. -/
  start : Option Nat
  accSat : Bool
  /-- The fault that stops it once the handed words before the faulting one have issued: status, word, and that word's core, stream and place in handing order (R166). -/
  fault : Option (Nat × Nat × Nat × Nat × Nat) := none
deriving DecidableEq, Repr

/-- An open window in progress: dies, uses and rate (Table 4.4), start trick and deal. -/
structure Window0 where
  start : Nat
  stop : Nat
  /-- When it began (ps). -/
  beganPs : Nat
  dieMask : BitVec 8
  programs : Bool
  looseDma : Bool
  /-- DMA_GBPS, none without a limit (R118). -/
  gbps : Option Nat := none
deriving DecidableEq, Repr

/-- Writes that have landed in a cycle, with the plane and core they came from (R187). -/
structure Landed where
  cycle : Nat
  plane : Plane
  core : Nat
  writes : List StoreWrite
deriving DecidableEq, Repr

structure Svis where
  cores : List (Nat × Core) := []
  clusters : List (Nat × Cluster) := []
  /-- The free value from which on the stores of cores and clusters not listed hold free bytes, since all stores were last lost (R492, R586). -/
  lost : Option Nat := none
  items : List Item := []
  nextItem : Nat := 0
  programs : List Program := []
  nextProgram : Nat := 0
  openWin : Option Window0 := none
  /-- Bytes of deal code by 256-trick window (R97): the window's index, and bytes per die of HBM and vault and per link. -/
  meterWin : Nat := 0
  hbmMeter : List (Nat × Nat) := []
  vaultMeter : List (Nat × Nat) := []
  deckMeter : List (Nat × Nat) := []
  /-- Loose DMA bytes moved in the open window in progress (R118). -/
  winMoved : Nat := 0
  /-- Words of the streams in force, as first issued (R120). -/
  code : List CodeWord := []
  /-- Landings of deal code in the latest landing cycle (R187). -/
  landed : List Landed := []
  /-- Reneges of the deal in progress: die and trick (R104). -/
  reneges : List (Nat × Nat) := []
  /-- MARK values in order, for Observe debug. -/
  trace : List (Nat × BitVec 16) := []
  /-- OD 0x2000.05, .06 -/
  corrected : Nat := 0
  parity : Nat := 0
  /-- Function-table slots in force, and accepted images that wait for a mark: slot, image (empty to clear), time (R226). -/
  tables : List (Nat × Bytes) := []
  tablePending : List (Nat × Bytes × Nat) := []
  /-- OD 0x2600.24 -/
  tableRefusal : Nat := 0
deriving DecidableEq, Repr

/-! ## Deck links (chapter 13) -/

/-- A flit sent and not acknowledged (R364): SEQ, channel (1 DATA, 2 NOTICE, 3 PASS), FIRST, payload. -/
structure SentFlit where
  seq : Nat
  chan : Nat
  first : Bool
  payload : Bytes
deriving DecidableEq, Repr

/-- An XDECK transfer being received (R365): its header and the bytes of lines so far. -/
structure DeckXfer where
  deal : Nat
  die : Nat
  row : Nat
  col : Nat
  dcore : Nat
  doff : Nat
  count : Nat
  rpe : Bool
  rchip : Nat
  rsvd : Bool
  data : Bytes
deriving DecidableEq, Repr

/-- One Deck link. -/
structure DeckLink where
  /-- OD 0x2500.20 + k: 0 DOWN, 1 TRAINING, 2 UP, 3 HELD. -/
  st : Nat := 0
  farValid : Bool := false
  farAddr : Nat := 0
  farLink : Nat := 0
  /-- OD 0x2500.30 + k, 0x2500.38 + k -/
  replayed : Nat := 0
  losses : BitVec 32 := 0
  /-- Receiver (R364): next SEQ, discarding until it arrives (its NAK is sent), transfer in progress. -/
  rxNext : Nat := 0
  discarding : Bool := false
  xfer : Option DeckXfer := none
  /-- Credits the next flit sent returns: DATA, NOTICE, PASS (R363). -/
  owed : List Nat := [0, 0, 0]
  /-- Sender (R363, R364): next SEQ, credits, flits unacknowledged, payloads that wait, NAKs without progress. -/
  txSeq : Nat := 0
  credits : List Nat := [1024, 32, 256]
  sent : List SentFlit := []
  waiting : List (Nat × Bool × Bytes) := []
  nakRun : Nat := 0
deriving DecidableEq, Repr

/-- The Banker and cascade settings (Table 13.9, R369 to R380). -/
structure Cascade where
  links : List (Nat × DeckLink) := []
  /-- OD 0x2500.04 -/
  isBanker : Bool := false
  /-- The 100 µs of R373 have been judged. -/
  elected : Bool := false
  /-- OD 0x2500.0B: 0 unused, 1 locked, 2 holdover. -/
  refState : Nat := 0
  /-- A handover written and not complete: its target (R376). -/
  handoverTo : Option Nat := none
  /-- Deal number dealt last, for R379. -/
  lastDealt : Option Nat := none
  /-- Length plan of a Banker for the coming mark, and writes of it not yet due: value, and when accepted (R369). -/
  planLen : Nat := 131072
  lenPlan : List (Nat × Nat) := []
  /-- The generator of a Banker: the deal it drives, its length and period, the time of its mark (ps), and whether it is a lead-in (R378). -/
  genDeal : Nat := 0
  genLen : Nat := 131072
  genPeriod : Nat := 40
  genPs : Nat := 0
  leadIn : Bool := false
  /-- NEXT_LEN and NEXT_PERIOD this Banker announces (R369, R370). -/
  nextLen : Nat := 131072
  nextPeriod : Nat := 40
  /-- The first mark waits for SYNC_IN (R393). -/
  syncWait : Bool := false
deriving DecidableEq, Repr


/-! ## The device -/

/-- What the hub store keeps across resets (R498, Table 18.1). -/
structure Nv where
  /-- Field repair map in force (R331), the copy written before it, and whether copy X holds the newer one (R510). -/
  field : RepairMap := {}
  fieldOld : RepairMap := {}
  newerX : Bool := true
  /-- OD 0x4000.06 (R468), oldest first. -/
  plog : List LogRec := []
  /-- Wrapped keys by slot: key ID and wrapped form (R283). -/
  wrapped : List (Nat × Nat × BitVec 320) := []
  /-- Image entries by index, vault blocks by 2^22 × die + block (ciphertext, tag), and blocks the media has lost (R278, R275). -/
  images : List (Nat × ImageEntry) := []
  blocks : List (Nat × Bytes × BitVec 128) := []
  /-- Bytes written to each stack, and spare blocks used (R277, Table 10.8). -/
  written : List (Nat × Nat) := []
  sparesUsed : List (Nat × Nat) := []
  /-- Life-cycle record (R470), and the fuse that holds Returned (3) or Lamed (4). -/
  lifeCycle : Nat := 0
  fuse : Nat := 0
  /-- R482. -/
  authSeq : Nat := 0
  /-- A preparation for Open in Deployed that a start must complete (R487). -/
  scrubOwed : Bool := false
  /-- Boot record copies A and B (R511); a copy that is not valid is none. -/
  bootA : Option Boot := some {}
  bootB : Option Boot := some {}
  /-- Crown, Brim slots, staging (R507, R523): the staging pieces, and OD 0x1500.10. -/
  crown : Image := {}
  slotA : Image := {}
  slotB : Image := {}
  staging : List (Nat × Bytes) := []
  stagingState : Nat := 0
  /-- The Brim staged passed its check in rescue (R515). -/
  rescueStaged : Bool := false
  /-- User copies (R442), and OD 0x1500.08. -/
  userA : Option UserCopy := none
  userB : Option UserCopy := none
  stores : BitVec 32 := 0
deriving DecidableEq, Repr

/-- One JV8. -/
structure State where
  /-- Commands that wait, first in, first out. -/
  pending : List Instr := []
  /-- Time since reset release, ps. -/
  now : Nat := 0
  /-- The model's own counter behind the free values (log entry 15). -/
  fresh : Nat := 0
  cad : Cad := {}
  dealer : Dealer := {}
  seats : List (Nat × Seat) := []
  accts : List (Nat × Acct) := []
  forms : List Form := []
  repair : Repair := {}
  log : Log := {}
  host : HostIf := {}
  mem : Memory := {}
  ldma : List (Nat × LdmaQueue) := []
  coh : Coherence := {}
  kitty : Kitties := {}
  svis : Svis := {}
  cascade : Cascade := {}
  group : Group := {}
  vault : Vault := {}
  video : Video := {}
  sec : Sec := {}
  power : Power := {}
  dict : Dict := {}
  hb : Hatband := {}
  factory : Factory := {}
  board : Pins := {}
  start : Start := {}
  nv : Nv := {}
deriving DecidableEq, Repr

/-- The device in reset, just before RESET_RELEASE. -/
def State.reset : State := {}

end Sys2Proof.Machine
end

