-- ==== Sys2Proof/Machine/Operands.lean ====
section
/-!
DEFINITION. Machine/Operands.lean: how the bytes of records, sheets, forms and command slots are read (R1, R3).
-/
namespace Sys2Proof.Machine

/-! ## Little-endian fields (R1) -/

/-- Byte `i` of `b`; a byte past the end reads 0. -/
def byteAt (b : Bytes) (i : Nat) : Nat := (b.getD i 0).toNat

/-- The number whose little-endian bytes these are. -/
def leAll : Bytes → Nat
  | [] => 0
  | b :: t => b.toNat + 256 * leAll t

/-- The `n`-byte little-endian field at `off`. -/
def le (b : Bytes) (off n : Nat) : Nat := leAll ((b.drop off).take n)

/-- The `n` little-endian bytes of `v`. -/
def toLe (v : Nat) : Nat → Bytes
  | 0 => []
  | n + 1 => BitVec.ofNat 8 v :: toLe (v / 256) n

/-- Bits [lo+w-1 : lo] of `v`. -/
def bits (v lo w : Nat) : Nat := v / 2 ^ lo % 2 ^ w

/-- Bit `i` of `v`. -/
def bit (v i : Nat) : Bool := bits v i 1 = 1

/-- The bytes at `off`, `n` of them, are not all zero (R3). -/
def nonzero (b : Bytes) (off n : Nat) : Bool := ((b.drop off).take n).any (· ≠ 0)

def boolNat (b : Bool) : Nat := if b then 1 else 0

/-- `b` cut or zero-padded to `n` bytes. -/
def padTo (n : Nat) (b : Bytes) : Bytes := (b ++ List.replicate n 0).take n

/-- The bytes of `b` cut into pieces of `k` bytes, as many as `n`. -/
def chunks (k : Nat) : Nat → Bytes → List Bytes
  | 0, _ => []
  | n + 1, b => b.take k :: chunks k n (b.drop k)

/-! ## Seat records (Tables 3.1 and 3.2) -/

/-- A 256-byte record as Table 3.1 lays it out. -/
def parseSeat (b : Bytes) : Seat :=
  let flags := byteAt b 1
  let acct := le b 2 2
  let vid := le b 0x54 2
  let va := fun off => le b off 8
  { state := byteAt b 0
    sel := bit flags 0, taint := bit flags 1, osel := bit flags 2
    account := acct % 4096
    priority := byteAt b 4 % 8
    phaseIdx := byteAt b 5
    step := le b 6 2
    plan := BitVec.ofNat 64 (le b 8 8)
    latentA := va 0x10 % 2 ^ 48, latentB := va 0x18 % 2 ^ 48
    cond := va 0x20 % 2 ^ 48, kvRoot := va 0x28 % 2 ^ 48
    kvPages := le b 0x30 4, kvLen := le b 0x34 4
    residency := le b 0x38 2
    lastForm := le b 0x3A 2, lastSlot := le b 0x3C 2 % 4096, heldCause := le b 0x3E 2
    lastDeal := va 0x40 % 2 ^ 48
    out := va 0x48 % 2 ^ 48
    tag := le b 0x50 4
    videoEn := bit vid 15, videoEngine := bits vid 6 2, videoSession := bits vid 0 6
    sCoreTricks := le b 0x58 8, sHbm := le b 0x60 8, sVault := le b 0x68 8, sEnergy := le b 0x70 8
    deals := le b 0x78 4, folds := le b 0x7C 4
    args := padTo 64 ((b.drop 0x80).take 64)
    -- every reserved bit, those inside Dealer fields too (R3; log entry 45)
    rsvd := flags / 8 ≠ 0 || le b 0x3C 2 / 4096 ≠ 0 || va 0x40 / 2 ^ 48 ≠ 0 || acct / 4096 ≠ 0 || byteAt b 4 / 8 ≠ 0 || va 0x10 / 2 ^ 48 ≠ 0 || va 0x18 / 2 ^ 48 ≠ 0
      || va 0x20 / 2 ^ 48 ≠ 0 || va 0x28 / 2 ^ 48 ≠ 0 || va 0x48 / 2 ^ 48 ≠ 0
      || bits vid 8 7 ≠ 0 || nonzero b 0x56 2 || nonzero b 0xC0 64 }

/-- The 256 bytes of a seat record (Table 3.1). -/
def seatBytes (t : Seat) : Bytes :=
  toLe t.state 1 ++ toLe (boolNat t.sel + 2 * boolNat t.taint + 4 * boolNat t.osel) 1
    ++ toLe t.account 2 ++ toLe t.priority 1 ++ toLe t.phaseIdx 1 ++ toLe t.step 2
    ++ toLe t.plan.toNat 8 ++ toLe t.latentA 8 ++ toLe t.latentB 8 ++ toLe t.cond 8 ++ toLe t.kvRoot 8
    ++ toLe t.kvPages 4 ++ toLe t.kvLen 4 ++ toLe t.residency 2 ++ toLe t.lastForm 2 ++ toLe t.lastSlot 2
    ++ toLe t.heldCause 2 ++ toLe t.lastDeal 8 ++ toLe t.out 8 ++ toLe t.tag 4
    ++ toLe (boolNat t.videoEn * 2 ^ 15 + t.videoEngine * 64 + t.videoSession) 2 ++ toLe 0 2
    ++ toLe t.sCoreTricks 8 ++ toLe t.sHbm 8 ++ toLe t.sVault 8 ++ toLe t.sEnergy 8
    ++ toLe t.deals 4 ++ toLe t.folds 4 ++ padTo 64 t.args ++ List.replicate 64 0

/-- Plan entry `i`: PHASE and COUNT (R55). -/
def planEntry (p : Word64) (i : Nat) : Nat × Nat :=
  let e := bits p.toNat (16 * i) 16
  (e / 4096, e % 4096)

/-- A plan is valid (R55). -/
def planValid (p : Word64) : Bool :=
  let e := (List.range 4).map (planEntry p)
  let body := e.takeWhile (fun x => x.1 ≠ 0)
  let tail := e.drop body.length
  body ≠ [] && body.all (fun x => x.1 ≤ 4 && 1 ≤ x.2) && tail.all (fun x => x == (0, 0))

/-! ## Sheets (Tables 3.8 and 3.9) -/

/-- Fill lists, as many as `n`, from the front of `b`; none when the bytes do not hold them or a reserved bit is set. The rest is returned. -/
def parseFills : Nat → Bytes → Option (List Fill × Bytes)
  | 0, b => some ([], b)
  | n + 1, b =>
    if b.length < 8 then none else
    let h := le b 0 8
    let count := bits h 12 11
    let bytes := 4 * (count + count % 2)
    let body := b.drop 8
    if h / 2 ^ 24 ≠ 0 || body.length < bytes then none else
    let words := (chunks 4 count (body.take (4 * count))).map leAll
    let pad := (body.drop (4 * count)).take (bytes - 4 * count)
    if words.any (fun w => w / 2 ^ 17 ≠ 0) || pad.any (· ≠ 0) then none else
    match parseFills n (body.drop bytes) with
    | none => none
    | some (fs, r) => some ({ slot := bits h 0 12, affinity := bit h 23, seats := words } :: fs, r)

/-- The header fields of a sheet in its buffer. -/
def sheetHeader (b : Bytes) : Sheet :=
  { formId := le b 0 2, cut := bit (le b 2 2) 0, standing := bit (le b 2 2) 1
    target := le b 8 8 % 2 ^ 48, tag := le b 0x10 4, fills := [] }

/-! ## PCIe windows (Table 9.5), contexts (R244), loose DMA descriptors (Table 9.6) -/

def parseWindow (b : Bytes) : PcieWindow :=
  { devBase := BitVec.ofNat 64 (le b 0 8), hostBase := BitVec.ofNat 64 (le b 8 8)
    sizeLog := byteAt b 0x10, func := byteAt b 0x11
    enable := bit (byteAt b 0x12) 0, read := bit (byteAt b 0x12) 1, write := bit (byteAt b 0x12) 2 }

def windowBytes (w : PcieWindow) : Bytes :=
  toLe w.devBase.toNat 8 ++ toLe w.hostBase.toNat 8 ++ toLe w.sizeLog 1 ++ toLe w.func 1
    ++ toLe (boolNat w.enable + 2 * boolNat w.read + 4 * boolNat w.write) 1 ++ List.replicate 13 0

/-- The reserved fields of a window entry are nonzero. -/
def windowRsvd (b : Bytes) : Bool :=
  le b 0 8 / 2 ^ 48 ≠ 0 || byteAt b 0x12 / 8 ≠ 0 || nonzero b 0x13 13

/-- A context descriptor, or none where R244 refuses it. -/
def parseContext (b : Bytes) : Option Context :=
  let w := le b 0 8
  let l1Log := bits w 1 5
  if b.length ≠ 16 || bits w 6 6 ≠ 0 || w / 2 ^ 48 ≠ 0 || le b 8 8 ≠ 0 || 18 < l1Log then none
  else some { valid := bit w 0, l1Log := l1Log, l1Base := bits w 12 36 * 4096 }

def parseLdma (b : Bytes) : LdmaDesc :=
  let flags := le b 0x14 2
  let src := le b 0 8
  let dst := le b 8 8
  { src := src, dst := dst, len := le b 0x10 4
    srcHost := bit flags 0, dstHost := bit flags 1, irq := bit flags 2, tag := le b 0x18 4
    rsvd := flags / 8 ≠ 0 || nonzero b 0x16 2 || nonzero b 0x1C 4
      || (!bit flags 0 && src / 2 ^ 48 ≠ 0) || (!bit flags 1 && dst / 2 ^ 48 ≠ 0) }

/-! ## Deal-form containers (Tables 4.2 to 4.6) -/

def parseSlot (b : Bytes) : FormSlot :=
  { cls := byteAt b 0 % 16, cap := le b 2 2 % 2048, group := le b 4 2 % 4096, region := le b 6 2
    cost := le b 8 8, scratch := le b 0x10 4, footFirst := le b 0x14 4, footCount := le b 0x18 4 }

def slotRsvd (b : Bytes) : Bool :=
  byteAt b 0 / 16 ≠ 0 || byteAt b 1 ≠ 0 || le b 2 2 / 2048 ≠ 0 || le b 4 2 / 4096 ≠ 0 || nonzero b 0x1C 4

def parseFoot (b : Bytes) : Foot :=
  { kind := byteAt b 0, base := byteAt b 1, read := bit (byteAt b 2) 0, write := bit (byteAt b 2) 1
    slot := le b 4 2 % 4096, offset := le b 8 8, length := le b 0x10 8 }

def footRsvd (b : Bytes) : Bool :=
  byteAt b 2 / 4 ≠ 0 || byteAt b 3 ≠ 0 || le b 4 2 / 4096 ≠ 0 || nonzero b 6 2 || nonzero b 0x18 8
    -- a LOOSE entry's OFFSET is a device virtual address (R242)
    || (byteAt b 0 = 5 && le b 8 8 / 2 ^ 48 ≠ 0)

def parseOpenWin (b : Bytes) : OpenWin :=
  { start := le b 0 4 % 2 ^ 22, span := le b 4 4 % 2 ^ 22, dieMask := b.getD 8 0
    programs := bit (byteAt b 9) 0, looseDma := bit (byteAt b 9) 1, gbps := le b 0xA 2 }

def openWinRsvd (b : Bytes) : Bool :=
  le b 0 4 / 2 ^ 22 ≠ 0 || le b 4 4 / 2 ^ 22 ≠ 0 || byteAt b 9 / 4 ≠ 0 || nonzero b 0xC 4

def parseCert (b : Bytes) : Cert :=
  { ctVersion := le b 0 4, tmin := (List.range 4).map (fun i => byteAt b (4 + i)), maxTerms := le b 8 4
    accBound := byteAt b 0xC, repairHops := byteAt b 0xD, lastIssue := le b 0x10 4, drain := le b 0x14 4
    hbmPeak := le b 0x18 4, vaultPeak := le b 0x1C 4, deckPeak := le b 0x20 4
    digest := padTo 48 ((b.drop 0x30).take 48) }

def certRsvd (b : Bytes) : Bool := nonzero b 0xE 2 || nonzero b 0x24 12

/-- Entry `i` of DIRECTORY: offset and length of section `i` (Table 4.2). -/
def directory (h : Bytes) (i : Nat) : Nat × Nat := (le h (0x20 + 8 * i) 4, le h (0x24 + 8 * i) 4)

/-- The header's reserved fields are nonzero. -/
def headerRsvd (h : Bytes) : Bool :=
  le h 8 4 / 2 ^ 23 ≠ 0 || le h 0xC 4 / 2 ^ 22 ≠ 0 || byteAt h 0x15 / 4 ≠ 0 || nonzero h 0x4C 52

/-! ## SUBJECT and PLACE words (Table 16.10) -/

def subjSeat (s : Nat) : Nat := 2 ^ 30 + s % 2 ^ 17
def subjSlot (s : Nat) : Nat := 2 * 2 ^ 30 + s % 4096
def subjOffset (n : Nat) : Nat := 3 * 2 ^ 30 + n % 4

def placeDie (d : Nat) : Nat := 2 ^ 28 + d * 2 ^ 24
def placeCluster (d row col : Nat) : Nat := 2 * 2 ^ 28 + d * 2 ^ 24 + row * 2 ^ 18 + col * 2 ^ 12
def placeCore (d row col core : Nat) : Nat :=
  3 * 2 ^ 28 + d * 2 ^ 24 + row * 2 ^ 18 + col * 2 ^ 12 + core * 2 ^ 5
/-- Links and engines lie on H, die 8. -/
def placeLink (k : Nat) : Nat := 4 * 2 ^ 28 + 8 * 2 ^ 24 + k * 4
def placeEngine (e : Nat) : Nat := 5 * 2 ^ 28 + 8 * 2 ^ 24 + e * 4

/-- The place of a physical unit (Table 12.5). -/
def unitPlace : UnitRef → Nat
  | .core d r c k => placeCore d r c k
  | .coreStore d r c k => placeCore d r c k
  | .clusterStore d r c => placeCluster d r c
  | .table d r c => placeCluster d r c
  | .sfu d r c => placeCluster d r c
  | .router d r c => placeCluster d r c
  | .gateway d _ => placeDie d
  | .vaultPort d => placeDie d
  | .hub => placeDie 8
  | .die d => placeDie d

end Sys2Proof.Machine
end

