-- ==== Sys2Proof/Machine/Ops.lean ====
section
/-!
DEFINITION. Machine/Ops.lean: the operations every unit shares: keyed lists, memory, the clock, the log, events, completions, and misdeal causes.
-/
namespace Sys2Proof.Machine

/-- What a command answers. -/
abbrev Out := Host.Outcome State Fault Refusal

/-! ## Keyed lists -/

/-- The value at key `k`. -/
def aget {α : Type} (k : Nat) : List (Nat × α) → Option α
  | [] => none
  | (j, v) :: t => if j = k then some v else aget k t

/-- Put `v` at key `k`, keys rising. -/
def aset {α : Type} (k : Nat) (v : α) : List (Nat × α) → List (Nat × α)
  | [] => [(k, v)]
  | (j, w) :: t => if j = k then (k, v) :: t else if k < j then (k, v) :: (j, w) :: t else (j, w) :: aset k v t

/-- Remove key `k`. -/
def adel {α : Type} (k : Nat) (l : List (Nat × α)) : List (Nat × α) := l.filter (fun x => x.1 ≠ k)

/-- Add `n` to a set held as a rising list. -/
def sins (n : Nat) : List Nat → List Nat
  | [] => [n]
  | m :: t => if m = n then m :: t else if n < m then n :: m :: t else m :: sins n t

def sdel (n : Nat) (l : List Nat) : List Nat := l.filter (· ≠ n)

/-! ## HBM bytes: a canonical list (Memory.wf) -/

/-- The byte at `a`; an unlisted byte reads 0. -/
def cellGet (a : Nat) : List Host.Cell → Byte
  | [] => 0
  | (k, v) :: t => if k = a then v else if a < k then 0 else cellGet a t

/-- Store `v` at `a`, keeping the canonical form: a zero byte is not listed. -/
def cellSet (a : Nat) (v : Byte) : List Host.Cell → List Host.Cell
  | [] => if v = 0 then [] else [(a, v)]
  | (k, w) :: t =>
    if k = a then (if v = 0 then t else (a, v) :: t)
    else if a < k then (if v = 0 then (k, w) :: t else (a, v) :: (k, w) :: t)
    else (k, w) :: cellSet a v t

/-- Keys strictly above `lo`, rising, no zero byte. -/
def cellsAbove (lo : Option Nat) : List Host.Cell → Bool
  | [] => true
  | (k, v) :: t => (match lo with | none => true | some l => decide (l < k)) && v ≠ 0 && cellsAbove (some k) t

/-- The canonical form of HBM. -/
def Memory.wf (m : Memory) : Bool := cellsAbove none m.bytes

/-- The `n` bytes from physical address `a` up. -/
def readBytes (c : List Host.Cell) (a : Nat) : Nat → Bytes
  | 0 => []
  | n + 1 => cellGet a c :: readBytes c (a + 1) n

/-- Store bytes from `a` up. -/
def writeBytes (c : List Host.Cell) (a : Nat) : Bytes → List Host.Cell
  | [] => c
  | b :: t => writeBytes (cellSet a b c) (a + 1) t

def State.hbmByte (s : State) (pa : Nat) : Byte := cellGet pa s.mem.bytes

def State.hbmRead (s : State) (pa n : Nat) : Bytes := readBytes s.mem.bytes pa n

def State.hbmWrite (s : State) (pa : Nat) (b : Bytes) : State :=
  { s with mem := { s.mem with bytes := writeBytes s.mem.bytes pa b } }

/-- The 64-byte line of physical address `pa` is poisoned (R258). -/
def State.poisonedAt (s : State) (pa : Nat) : Bool := s.mem.poison.contains (pa / 64)

/-- A full-line write clears poison (R258). -/
def State.clearPoison (s : State) (pa : Nat) : State :=
  { s with mem := { s.mem with poison := sdel (pa / 64) s.mem.poison } }

/-- Write one full line. -/
def State.writeLine (s : State) (pa : Nat) (b : Bytes) : State :=
  (s.hbmWrite (pa / 64 * 64) (padTo 64 b)).clearPoison pa

/-! ## Time -/

/-- Move the clock to `t` unless it has passed it. -/
def State.advanceTo (s : State) (t : Nat) : State := { s with now := max s.now t }

/-- OD 0x1000.0A. -/
def State.timeUs (s : State) : Nat := s.now / 1000000

/-- A fresh free value (log entry 15). -/
def State.takeFree (s : State) : Word64 × State := (Config.freeWord s.fresh, { s with fresh := s.fresh + 1 })

/-- `n` fresh free words, as bytes. -/
def State.takeBytes (s : State) (n : Nat) : Bytes × State :=
  ((List.range n).flatMap (fun i => toLe (Config.freeWord (s.fresh + i)).toNat 8), { s with fresh := s.fresh + n })

/-! ## Functions, rings, interrupts (R542 to R557) -/

def State.fn (s : State) (f : Nat) : Fn := (aget f s.host.fns).getD {}

def State.setFn (s : State) (f : Nat) (v : Fn) : State := { s with host := { s.host with fns := aset f v s.host.fns } }

/-- The function bound to account `a` (R465). -/
def State.boundFn (s : State) (a : Nat) : Nat := (aget a s.host.binding).getD 0

/-- R538. -/
def State.acts (s : State) (f a : Nat) : Bool := f = 0 || s.boundFn a = f

/-- Size of a function's MSI-X table (Table 19.1). -/
def msixSize (f : Nat) : Nat := if f = 0 then 512 else 24

/-- A record calls for vector `v` (R544). -/
def Fn.callVector (x : Fn) (f v : Nat) : Fn :=
  if v < msixSize f then { x with msixDue := sins v x.msixDue } else { x with err := x.err ||| 4 }

/-- Entries a ring of `size` holds. -/
def ringCount (size tail head : Nat) : Nat := (tail + size - head) % size

/-- Write an event record into the ring and call vector 0. -/
def Fn.putEvent (x : Fn) (f : Nat) (e : EvRec) : Fn :=
  Fn.callVector { x with evRing := aset x.evTail e x.evRing, evTail := (x.evTail + 1) % 2048 } f 0

/-- Deliver an event: to the ring, to the 64 held, or lost (R557). -/
def Fn.deliver (x : Fn) (f : Nat) (e : EvRec) : Fn :=
  if x.evHeld = [] && x.lostRun = 0 && ringCount 2048 x.evTail x.evHead < 2047 then x.putEvent f e
  else if x.evHeld.length < 64 && x.lostRun = 0 then { x with evHeld := x.evHeld ++ [e] }
  else { x with evLost := x.evLost + 1, lostRun := x.lostRun + 1,
                lostFirst := if x.lostRun = 0 then e.seq else x.lostFirst }

/-- Records of kinds 2 and 4, and kind 1 with IRQ, raise vector 1 (R552). -/
def Fn.putCpl (x : Fn) (f : Nat) (r : CplRec) (raise : Bool) : Fn :=
  let x := { x with cplRing := aset x.cplTail (r, x.cplPhase) x.cplRing, cplTail := (x.cplTail + 1) % 1024,
                    cplPhase := if x.cplTail = 1023 then !x.cplPhase else x.cplPhase }
  if raise then x.callVector f 1 else x

/-- Post a completion: to the ring, to the 4,096 held, or dropped (R553). -/
def Fn.postCpl (x : Fn) (f : Nat) (r : CplRec) (raise : Bool) : Fn :=
  if x.cplHeld = [] && ringCount 1024 x.cplTail x.cplHead < 1023 then x.putCpl f r raise
  else if x.cplHeld.length < 4096 then { x with cplHeld := x.cplHeld ++ [(r, raise)] }
  else { x with cplLost := x.cplLost + 1 }

def State.postCpl (s : State) (f : Nat) (r : CplRec) (raise : Bool) : State := s.setFn f ((s.fn f).postCpl f r raise)

/-- A completion owed to a command; that of a command taken before a reset of its function is discarded (R539). -/
def State.owed (s : State) (t : Ticket) (r : CplRec) (raise : Bool) : State :=
  if t.epoch = (s.fn t.fn).epoch then s.postCpl t.fn r raise else s

/-- The completion record of a command (R545), with a VALUE0. -/
def State.completeWith (s : State) (t : Ticket) (status v0 : Nat) : State :=
  s.owed t { kind := 1, status, opcode := t.op, tag := t.tag, v0, v1 := 0, index := t.slot } t.irq

/-- The completion record of a command (R545). -/
def State.complete (s : State) (t : Ticket) (status : Nat) : State := s.completeWith t status 0

/-- A sheet completion record (R548). -/
def State.sheetCpl (s : State) (status tag target voids index : Nat) : State :=
  s.postCpl 0 { kind := 2, status, opcode := 0, tag, v0 := target, v1 := voids, index } true

/-- A further status of an accepted sheet (R548), unless its completions are discarded (R539). -/
def State.sheetDone (s : State) (x : Sheet) (status : Nat) : State :=
  if x.mute then s else s.sheetCpl status x.tag x.target 0 0xFFFF

/-! ## The log and events (R466 to R468, R555, R556) -/

/-- Classes whose records the hub store keeps (R468). -/
def persistentClass (c : Nat) : Bool := [0x03, 0x06, 0x05, 0x08, 0x0E, 0x0C, 0x0D].contains c

/-- Append one record; a full ring overwrites its oldest (R467). -/
def State.logAppend (s : State) (r : EvReq) : State :=
  let seq := if s.log.seq = 0xFFFFFFFF#32 then 1#32 else s.log.seq + 1
  let lr : LogRec := { seq, cls := r.cls, cause := r.cause, detail := r.detail, posted := !r.logOnly, remote := r.remote,
                        deal := r.deal, member := r.member, subject := r.subject, place := r.place, timeUs := s.timeUs }
  let full := 16384 ≤ s.log.ring.length
  let ring := (if full then s.log.ring.drop 1 else s.log.ring) ++ [lr]
  let pl := s.nv.plog ++ [lr]
  { s with
    log := { s.log with ring, seq, overwritten := s.log.overwritten + (if full then 1 else 0) }
    nv := if persistentClass r.cls then { s.nv with plog := pl.drop (pl.length - 256) } else s.nv }

/-- Function `f` receives the event (R556). -/
def State.receives (s : State) (f : Nat) (r : EvReq) : Bool :=
  f = 0 || r.toAll || (match r.acct with | some a => s.boundFn a = f | none => false)

/-- Deliver an event record to functions `n - 1` down to 0. -/
def State.deliverTo (s : State) (r : EvReq) (e : EvRec) : Nat → State
  | 0 => s
  | n + 1 =>
    let s := if s.receives n r then s.setFn n ((s.fn n).deliver n e) else s
    s.deliverTo r e n

/-- Post an event: its log record, then its event records (R466); or log it alone. -/
def State.post (s : State) (r : EvReq) : State :=
  let s := s.logAppend r
  if r.logOnly then s else
  s.deliverTo r { seq := s.log.seq, cls := r.cls, cause := r.cause, detail := r.detail, remote := r.remote, deal := r.deal,
                  member := r.member, w0 := r.w0, w1 := r.w1, w2 := r.w2, w3 := r.w3 } 64

def State.postAll (s : State) (l : List EvReq) : State := l.foldl State.post s

/-- An event of no special kind, about deal `deal`. -/
def ev (cls detail deal : Nat) : EvReq :=
  { cls, cause := 0, detail, remote := false, deal, member := 0, subject := 0, place := 0,
    w0 := 0, w1 := 0, w2 := 0, w3 := 0, acct := none, toAll := false, logOnly := false }

/-- A record logged without being posted, CLASS 0 (R466). -/
def logItem (cause detail deal place : Nat) : EvReq := { ev 0 detail deal with cause, place, logOnly := true }

/-- OD 0x1200.01: 0 while no position is held (R53). -/
def State.curDeal (s : State) : Nat :=
  match s.cad.st with
  | .ready | .dealing | .flywheel => s.cad.deal
  | _ => 0

/-- The account of a SUBJECT that is a seat (Table 16.10), for the functions that may act for it (R556). -/
def State.subjectAcct (s : State) (subject : Nat) : Option Nat :=
  if subject / 2 ^ 30 = 1 then some ((aget (subject % 2 ^ 17) s.seats).getD {}).account else none

/-- A SECURITY event with detail `d` (Table 17.10), counted in OD 0x1400.0A; `acct` is the account of its seat or video session. -/
def State.securityFor (s : State) (acct : Option Nat) (d subject place w2 w3 : Nat) : State :=
  State.post { s with sec := { s.sec with events := s.sec.events + 1 } } { ev 0x0E d s.curDeal with subject, place, w0 := subject, w1 := place, w2, w3, acct }

/-- A SECURITY event that concerns at most the seat of its SUBJECT. -/
def State.security (s : State) (d : Nat) (subject place w2 w3 : Nat) : State := s.securityFor (s.subjectAcct subject) d subject place w2 w3

/-! ## Where the deal stands -/

/-- Only DEALING and FLYWHEEL let the device deal (R47). -/
def State.dealing (s : State) : Bool := s.cad.st = .dealing || s.cad.st = .flywheel

/-- Tricks left in the deal in progress at the start of the trick in progress, where its length is known: T(L − n) is `n` left. -/
def State.left (s : State) : Option Nat := s.cad.len.map (· - s.cad.trick)

/-- The deal in progress stands at T(L − n). -/
def State.atLeft (s : State) (n : Nat) : Bool := s.left = some n

/-- The loaded form of a FORM_ID (R110). -/
def State.form (s : State) (id : Nat) : Option Form := s.forms.find? (·.id = id)

def Plan.form (p : Plan) (s : State) : Option Form := p.formId.bind s.form

/-- The device is bound to a Widen or Deepen group (R381). -/
def State.inGroup (s : State) : Bool := s.group.binding.isSome

/-- The member number of the device (Table 16.10: 0 outside groups). -/
def State.member (s : State) : Nat := match s.group.binding with | some b => b.member | none => 0

/-- The deal a cause or fold found now belongs to (R26, R387). -/
def State.causeDeal (s : State) : Nat :=
  let boundary := if s.inGroup then 128 else 64
  match s.left with
  | none => s.cad.deal
  | some n => if s.cad.decided || n < boundary then s.cad.deal + 1 else s.cad.deal

/-! ## Deck links (R361 to R364) -/

def State.deckLink (s : State) (k : Nat) : DeckLink := (aget k s.cascade.links).getD {}
def State.setLink (s : State) (k : Nat) (l : DeckLink) : State := { s with cascade := { s.cascade with links := aset k l s.cascade.links } }

def chanCap : Nat → Nat
  | 1 => 1024
  | 2 => 32
  | _ => 256

/-- The first payload that may be sent: NOTICE, then DATA, then PASS, against a credit, with at most 2,048 unacknowledged (R363, R364). -/
def DeckLink.nextSend (l : DeckLink) : Option (Nat × Bool × Bytes) :=
  if l.st ≠ 2 || 2048 ≤ l.sent.length then none else
  let try1 := fun (c : Nat) => if l.credits.getD (c - 1) 0 = 0 then none else l.waiting.find? (·.1 = c)
  (try1 2).or ((try1 1).or (try1 3))

/-- Send what the credits allow, `fuel` flits at most. -/
def DeckLink.drain : Nat → DeckLink → DeckLink
  | 0, l => l
  | n + 1, l =>
    match l.nextSend with
    | none => l
    | some w =>
      DeckLink.drain n { l with
        waiting := l.waiting.erase w, credits := l.credits.modify (w.1 - 1) (· - 1), txSeq := (l.txSeq + 1) % 4096
        sent := l.sent ++ [{ seq := l.txSeq, chan := w.1, first := w.2.1, payload := w.2.2 }] }

/-- Queue payload bytes on a channel in flits of 240, the first with FIRST set where it begins a transfer; a link that is not UP carries nothing. -/
def State.deckSend (s : State) (k chan : Nat) (b : Bytes) : State :=
  if (s.deckLink k).st ≠ 2 then s else
  let pieces := chunks 240 ((b.length + 239) / 240) b
  let ws := ((List.range pieces.length).zip pieces).map (fun p => (chan, p.1 = 0 && chan ≠ 2, p.2))
  let l := { s.deckLink k with waiting := (s.deckLink k).waiting ++ ws.map (fun w => (w.1, decide w.2.1, w.2.2)) }
  s.setLink k (DeckLink.drain l.waiting.length l)

/-- A group record's 16 bytes: KIND, MEMBER, GROUP_ID, deal number, argument (Table 13.6). -/
def noticeBytes (r : GroupRec) : Bytes :=
  toLe r.kind 1 ++ toLe r.note.member 1 ++ toLe r.note.groupId 2 ++ toLe r.note.deal 6 ++ toLe r.note.arg.toNat 6

/-! ## Notices (R386, R387) -/

/-- Links of the binding in force. -/
def State.boundLinks (s : State) : List Nat :=
  match s.group.binding with
  | none => []
  | some b => (List.range 8).filter (fun k => b.peer.getD k 0xFF ≠ 0xFF)

/-- The device holds its own record and sends it on every bound link. -/
def State.sendNotice (s : State) (kind deal arg : Nat) : State :=
  match s.group.binding with
  | none => s
  | some b =>
    let r : GroupRec := { kind, note := { member := b.member, groupId := b.groupId, deal, arg := BitVec.ofNat 48 arg } }
    s.boundLinks.foldl (fun s k => s.deckSend k 2 (noticeBytes r)) { s with group := { s.group with records := s.group.records ++ [r] } }

/-! ## Misdeal causes (Table 1.3) -/

/-- REPAIR is set for core defect, kibitzer mismatch, vault read failure and shared-data poison (R389). -/
def repairRank (rank : Nat) : Bool := rank = 3 || rank = 4 || rank = 7 || rank = 8

/-- Register a misdeal cause of deal `d`; a group member sends CAUSE (R387). Nothing is registered while nothing is dealt. -/
def State.addCauseAt (s : State) (d rank detail slot die place : Nat) : State :=
  if !s.dealing then s else
  let c : Cause := { deal := d, rank, detail, member := s.member, remote := false, slot, die, place, repair := repairRank rank }
  let s := { s with dealer := { s.dealer with causes := s.dealer.causes ++ [c] } }
  s.sendNotice 2 c.deal (rank + 2 ^ 8 * detail + 2 ^ 16 * boolNat c.repair)

/-- Register a misdeal cause found now, with the deal it belongs to (R26). -/
def State.addCause (s : State) (rank detail slot die place : Nat) : State := s.addCauseAt s.causeDeal rank detail slot die place

/-! ## Seats and accounts -/

def State.seat (s : State) (i : Nat) : Seat := (aget i s.seats).getD {}

def State.setSeat (s : State) (i : Nat) (t : Seat) : State := { s with seats := aset i t s.seats }

def State.acct (s : State) (a : Nat) : Acct := (aget a s.accts).getD {}

def State.setAcct (s : State) (a : Nat) (x : Acct) : State := { s with accts := aset a x s.accts }

/-! ## Physical addresses (Table 9.1) -/

def dieStride : Nat := 0x000900000000
def dieUsable : Nat := 0x0008F0000000

/-- [pa, pa + n) lies wholly in usable HBM. -/
def usableHbm (pa n : Nat) : Bool :=
  let usable := fun a => a < 8 * dieStride && a % dieStride < dieUsable
  n = 0 || (usable pa && usable (pa + n - 1) && pa / dieStride = (pa + n - 1) / dieStride)

/-- [pa, pa + n) meets the device region: a reserved top of a die's HBM, or 0xC000_0000_0000 and above. -/
def meetsDevice (pa n : Nat) : Bool :=
  0xC00000000000 < pa + n ||
    (List.range 8).any (fun d => decide (pa < (d + 1) * dieStride) && decide (d * dieStride + dieUsable < pa + n))

/-- The home die of a line (R181). -/
def homeDie (pa : Nat) : Nat := pa / dieStride

def State.pcieWindow (s : State) (w : Nat) : PcieWindow := (aget w s.mem.windows).getD {}

/-- [pa, pa + n) lies wholly in one enabled PCIe window. -/
def State.inPcieWindow (s : State) (pa n : Nat) : Bool :=
  s.mem.windows.any (fun w => w.2.enable && decide (w.2.devBase.toNat ≤ pa) && decide (pa + n ≤ w.2.devBase.toNat + 2 ^ w.2.sizeLog))

/-- Mark a line poisoned, count it, and log the mark (R258, Table 9.12). -/
def State.markPoison (s : State) (pa : Nat) : State :=
  let s := { s with mem := { s.mem with poison := sins (pa / 64) s.mem.poison, poisoned := s.mem.poisoned + 1, lastPoison := pa / 64 * 64 } }
  s.post (logItem 0 0 s.curDeal (placeDie (homeDie pa)))

/-- Pins of the pages that hand-offs to video sessions hold (R310). -/
def State.videoPins (s : State) : List Pin :=
  s.video.sessions.flatMap (fun x => x.2.handoffs.flatMap (·.pins))

end Sys2Proof.Machine
end

