-- ==== Sys2Proof/Machine/Intake.lean ====
section
/-!
DEFINITION. Machine/Intake.lean: how a command slot of a function's ring is taken (R519, R538, R542, R545).
-/
namespace Sys2Proof.Machine

/-- DEV_STATE [2:0]: the start stage once Hatband-ready, else 0 (Table 19.3). -/
def State.devStage (s : State) : Nat := s.start.stage

/-- A doorbell rung before Run-ready is discarded and sets ERR [3] (R542). -/
def State.doorbellEarly (s : State) (f : Nat) : State := s.setFn f { s.fn f with err := (s.fn f).err ||| 8 }

/-- Some bit of an argument from `n` up is set: bits Table 19.5 does not name are reserved (R545; log entry 19). -/
def argHigh (a : Word64) (n : Nat) : Bool := a.toNat / 2 ^ n ≠ 0

/-- The device takes one command at its function's CMD_HEAD: BAD_COMMAND on a reserved field, RIGHTS for a function Table 19.5 excludes or an account the function may not act for (R538, R545), else its effect `k`. -/
def State.hostCommand (s : State) (op : Nat) (c : CmdSlot) (pf0 : Bool) (acct : Option Nat) (k : State → Ticket → State) : State :=
  if s.devStage ≠ 2 then s.doorbellEarly c.fn else
  let s := s.setFn c.fn { s.fn c.fn with cmdHead := (c.slot + 1) % 64 }
  let t : Ticket := { fn := c.fn, op, tag := c.tag.toNat, slot := c.slot, irq := c.irq, epoch := (s.fn c.fn).epoch }
  if c.rsvd then s.complete t 0xE0
  else if pf0 && c.fn ≠ 0 then s.complete t 0xE1
  else if (match acct with | some a => !s.acts c.fn a | none => false) then s.complete t 0xE1
  else k s t

end Sys2Proof.Machine
end

