-- ==== Sys2Proof/Machine/Translate.lean ====
section
/-!
DEFINITION. Machine/Translate.lean: contexts, the walk, INVALIDATE and pins (R242 to R248, R256).
-/
namespace Sys2Proof.Machine

/-- How a translation ends when it does not succeed (R246); permission is the caller's. -/
inductive WalkFault where
  | translation | walk | deviceRegion | permission
deriving DecidableEq, Repr

/-- A translation (R246): physical address, the page it lies in, and the leaf's bits. -/
structure Xlat where
  pa : Nat
  pageVa : Nat
  pagePa : Nat
  size : Nat
  r : Bool
  w : Bool
  sc : Bool
deriving DecidableEq, Repr

/-- Page size of a leaf at a level, and the walk's index (R245). -/
def leafSize (level : Nat) : Nat := if level = 1 then 2 ^ 30 else if level = 2 then 2 ^ 21 else 2 ^ 16

def walkIndex (level va : Nat) : Nat :=
  if level = 1 then bits va 30 18 else if level = 2 then bits va 21 9 else bits va 16 5

def checkTable (pa n : Nat) : Option WalkFault :=
  if meetsDevice pa n then some .deviceRegion else if usableHbm pa n then none else some .walk

def checkTarget (s : State) (pa n : Nat) : Option WalkFault :=
  if meetsDevice pa n then some .deviceRegion
  else if usableHbm pa n || s.inPcieWindow pa n then none else some .walk

/-- Reserved bits of a valid entry, and the alignment its level asks for (Table 9.2). -/
def entryBad (e level : Nat) : Bool :=
  let addr := bits e 8 40 * 256
  let align := if bit e 1 then leafSize level else if level = 1 then 4096 else 256
  bits e 48 16 ≠ 0 || bits e 5 3 ≠ 0 || addr % align ≠ 0

/-- The levels of a walk from `level` on, `fuel` of them left (R246). -/
def walkFrom (s : State) (va : Nat) : Nat → Nat → Nat → Nat → Except WalkFault Xlat
  | 0, _, _, _ => .error .walk
  | fuel + 1, level, table, size =>
    match checkTable table size with
    | some f => .error f
    | none =>
      let ea := table + 8 * walkIndex level va
      let e := leAll (s.hbmRead ea 8)
      if s.poisonedAt ea then .error .walk
      else if !bit e 0 then .error .translation
      else if entryBad e level then .error .walk
      else if !bit e 1 && (level = 3 || bit e 2 || bit e 3 || bit e 4) then .error .walk
      else
        let addr := bits e 8 40 * 256
        if bit e 1 then
          match checkTarget s addr (leafSize level) with
          | some f => .error f
          | none => .ok { pa := addr + va % leafSize level, pageVa := va - va % leafSize level, pagePa := addr,
                          size := leafSize level, r := bit e 2, w := bit e 3, sc := bit e 4 }
        else walkFrom s va fuel (level + 1) addr (if level = 1 then 4096 else 256)

/-- The walk of R246. An address above 48 bits names no entry of the level-1 table. -/
def walk (s : State) (ctx va : Nat) : Except WalkFault Xlat :=
  let c := (aget ctx s.mem.contexts).getD {}
  if !c.valid || 2 ^ c.l1Log ≤ va / 2 ^ 30 then .error .translation
  else walkFrom s va 3 1 c.l1Base (8 * 2 ^ c.l1Log)

/-- A cached leaf that covers `va` (R247). -/
def State.cachedLeaf (s : State) (ctx va : Nat) : Option CachedLeaf :=
  s.mem.cached.find? (fun l => l.ctx = ctx && decide (l.va ≤ va) && decide (va < l.va + l.size))

/-- Translate, from the cached leaf if one covers the address, else by a walk, which is counted and whose leaf is then cached (R246, R247; log entry 18). -/
def translate (s : State) (ctx va : Nat) : Except WalkFault Xlat × State :=
  match s.cachedLeaf ctx va with
  | some l => (.ok { pa := l.pa + (va - l.va), pageVa := l.va, pagePa := l.pa, size := l.size, r := l.r, w := l.w, sc := l.sc }, s)
  | none =>
    let s' := { s with mem := { s.mem with walks := s.mem.walks + 1 } }
    match walk s ctx va with
    | .error f => (.error f, s')
    | .ok x => (.ok x, { s' with mem := { s'.mem with cached := s'.mem.cached ++
        [{ ctx, va := x.pageVa, pa := x.pagePa, size := x.size, r := x.r, w := x.w, sc := x.sc }] } })

/-- Translate with the permission a read or a write needs. -/
def translateFor (s : State) (ctx va : Nat) (wr : Bool) : Except WalkFault Xlat × State :=
  match translate s ctx va with
  | (.ok x, s') => (if (if wr then x.w else x.r) then .ok x else .error .permission, s')
  | (.error f, s') => (.error f, s')

/-! ## Pins (R256) -/

def overlaps (a n b m : Nat) : Bool := decide (a < b + m) && decide (b < a + n)

def planPins : Option Plan → List Pin
  | none => []
  | some p => p.pins

/-- Every pin now held: the running deal's, the next deal's, a held re-deal's, and those of hand-offs (R75, R310). -/
def State.pins (s : State) : List Pin :=
  planPins s.dealer.running ++ planPins s.dealer.selected ++ planPins s.dealer.redeal ++ s.videoPins

/-- A page of [pa, pa + n) is pinned. -/
def State.pinnedRange (s : State) (pa n : Nat) : Bool := s.pins.any (fun p => overlaps p.base p.size pa n)

/-- The plan the next deal will be dealt by, as it stands: a re-deal that is due, none while one is held back, else the selected one. -/
def State.nextPlan (s : State) : Option Plan :=
  match s.dealer.redeal with
  | some r => if s.dealer.redealAt ≤ s.cad.deal + 1 then some r else none
  | none => s.dealer.selected

/-- Pins that guard pages against foreign writes: those of the deal in progress (R257), or once D is decided those of deal D+1, be it a re-deal. -/
def State.guardPins (s : State) : List Pin :=
  if s.dealing then planPins (if s.cad.decided then s.nextPlan else s.dealer.running) else []

/-- The pins a foreign write found now is judged against: those of the deal it belongs to (R26, R257). -/
def State.foreignPins (s : State) : List Pin :=
  if s.dealing then planPins (if s.causeDeal = s.cad.deal then s.dealer.running else s.nextPlan) else []

/-- The pins one run-time footprint of the deal in progress holds (R116, R257). -/
def State.runningPins (s : State) : List Pin := if s.dealing then planPins s.dealer.running else []

/-- A page of a plan's windows lies in the range and is pinned: the Ante captured its translation. -/
def State.planPinned (s : State) (ctx va len : Nat) : Option Plan → Bool
  | none => false
  | some p => p.windows.any (fun w => w.acct = ctx && w.pages.any (fun g => overlaps g.va g.size va len && s.pinnedRange g.pa g.size))

/-- A page in the range of an INVALIDATE is pinned, by its cached translation or by one that an Ante captured (R248). -/
def State.rangePinned (s : State) (ctx va len : Nat) : Bool :=
  s.mem.cached.any (fun l => l.ctx = ctx && overlaps l.va l.size va len && s.pinnedRange l.pa l.size)
    || s.planPinned ctx va len s.dealer.running || s.planPinned ctx va len s.dealer.selected || s.planPinned ctx va len s.dealer.redeal

def State.dropCached (s : State) (ctx va len : Nat) : State :=
  { s with mem := { s.mem with cached := s.mem.cached.filter (fun l => !(l.ctx = ctx && overlaps l.va l.size va len)) } }

/-! ## CONTEXT, INVALIDATE (R244, R248) -/

/-- CONTEXT: a descriptor refused by R244 answers BAD_RECORD and changes nothing. -/
def execContext (c : CmdSlot) (s : State) : Out :=
  .next <| s.hostCommand 0x20 c true none fun s t =>
    if argHigh c.arg0 12 || c.arg1 ≠ 0 || c.arg2 ≠ 0 then s.complete t 0xE0 else
    match parseContext (c.payload.take 16) with
    | none => s.complete t 2
    | some x =>
      let a := c.arg0.toNat
      State.complete { s with mem := { s.mem with contexts := aset a x s.mem.contexts, cached := s.mem.cached.filter (·.ctx ≠ a) } } t 0

/-- INVALIDATE: DONE, or DEFERRED while a page of the range is pinned (R248). -/
def execInvalidate (c : CmdSlot) (s : State) : Out :=
  .next <| s.hostCommand 0x21 c true none fun s t =>
    let a := c.arg0.toNat
    let va := c.arg1.toNat
    let len := c.arg2.toNat
    if argHigh c.arg0 12 || argHigh c.arg1 48 || len % 65536 ≠ 0 then s.complete t 0xE0
    else if s.rangePinned a va len then
      State.complete { s with mem := { s.mem with deferred := s.mem.deferred ++ [{ ctx := a, va, len, ticket := t }] } } t 0x10
    else (s.dropCached a va len).complete t 0

/-- INVALIDATE_DONE: the last pin of a deferred INVALIDATE's range is released, and it completes again, DONE (R248). -/
def execInvalidateDone (tag : Word32) (s : State) : Out :=
  .next <|
    match s.mem.deferred.find? (fun d => d.ticket.tag = tag.toNat && !s.rangePinned d.ctx d.va d.len) with
    | none => s
    | some d =>
      let s := { s with mem := { s.mem with deferred := s.mem.deferred.erase d } }
      (s.dropCached d.ctx d.va d.len).complete d.ticket 0

end Sys2Proof.Machine
end

