-- ==== Sys2Proof/Machine/Seats.lean ====
section
/-!
DEFINITION. Machine/Seats.lean: the seat commands and ABORT (R54 to R58, R71, Tables 3.4 and 3.5).
-/
namespace Sys2Proof.Machine

/-- The checks SEAT and RELEASE make of a record (Table 3.4). -/
def State.recordBad (s : State) (t : Seat) : Bool := t.rsvd || !planValid t.plan || !(s.acct t.account).enabled

/-- The host's fields of `new` over the Dealer's fields of `old` (R54); RESIDENCY takes only 0xFFFF from the host. -/
def hostFields (old new : Seat) : Seat :=
  { old with
    account := new.account, priority := new.priority, plan := new.plan, latentA := new.latentA, latentB := new.latentB
    cond := new.cond, kvRoot := new.kvRoot, kvPages := new.kvPages, out := new.out, tag := new.tag, videoEn := new.videoEn
    videoEngine := new.videoEngine, videoSession := new.videoSession, args := new.args
    residency := if new.residency = 0xFFFF then 0xFFFF else old.residency }

/-- What SEAT leaves: SEATED, progress and counters cleared, SEL and OSEL 0, no residency hint (Table 3.4). -/
def seated (new : Seat) : Seat := { hostFields {} new with state := 1, residency := 0xFFFF }

/-- A non-void entry of the plan names the seat. -/
def Plan.names (p : Plan) (seat : Nat) : Bool := p.entries.any (fun e => e.seat = seat && !e.void)

def planNames (p : Option Plan) (seat : Nat) : Bool := match p with | some p => p.names seat | none => false

/-- The seat goes HELD with a cause. -/
def State.holdSeat (s : State) (i cause : Nat) : State := s.setSeat i { s.seat i with state := 3, heldCause := cause }

/-- When a HOLD takes effect (R58): now, at the mark (`some none`), or at the decision of a deal (`some (some d)`); past the boundary of R387 a group member waits for the decision of D+1. -/
def State.holdWhen (s : State) (i : Nat) : Option (Option Nat) :=
  if s.dealing && planNames s.dealer.running i then
    if s.causeDeal = s.cad.deal then some (some s.cad.deal)
    else if s.inGroup then some (some (s.cad.deal + 1))
    else some none
  else if planNames s.dealer.selected i || planNames s.dealer.redeal i then some (some (s.cad.deal + 1))
  else none

/-- SEAT: EMPTY to SEATED with the record of the payload (Table 3.4). -/
def execSeat (c : CmdSlot) (s : State) : Out :=
  let new := parseSeat c.payload
  .next <| s.hostCommand 0x01 c false (some new.account) fun s t =>
    let i := c.arg0.toNat
    if argHigh c.arg0 17 || c.arg1 ≠ 0 || c.arg2 ≠ 0 then s.complete t 0xE0
    else if (s.seat i).state ≠ 0 then s.complete t 1
    else if s.recordBad new then s.complete t 2
    else (s.setSeat i (seated new)).complete t 0

/-- HOLD: SEATED or IN_DEAL to HELD, at once or as R58 defers it; the completion comes when it takes effect. -/
def execHold (c : CmdSlot) (s : State) : Out :=
  .next <| s.hostCommand 0x02 c false (some (s.seat c.arg0.toNat).account) fun s t =>
    let i := c.arg0.toNat
    if argHigh c.arg0 17 || c.arg1 ≠ 0 || c.arg2 ≠ 0 then s.complete t 0xE0
    else if (s.seat i).state ≠ 1 && (s.seat i).state ≠ 2 then s.complete t 1
    else match s.holdWhen i with
      | none => (s.holdSeat i 0x18).complete t 0
      | some d =>
        -- a group member sends FOLD for the fold it registers (R387)
        let s := match d with
          | some d => s.sendNotice 3 d (i + 2 ^ 32 * 0x18)
          | none => s
        { s with dealer := { s.dealer with holds := s.dealer.holds ++ [{ seat := i, deal := d, ticket := t }] } }

/-- RELEASE: HELD to SEATED, progress kept; with REWRITE the payload's host fields replace the record's (Table 3.4, Table 19.5). -/
def execRelease (c : CmdSlot) (s : State) : Out :=
  let i := c.arg0.toNat
  let rewrite := bit c.arg1.toNat 0
  let new := if rewrite then hostFields (s.seat i) (parseSeat c.payload) else s.seat i
  .next <| s.hostCommand 0x03 c false (some (s.seat i).account) fun s t =>
    if !s.acts c.fn new.account then s.complete t 0xE1
    else if argHigh c.arg0 17 || argHigh c.arg1 1 || c.arg2 ≠ 0 then s.complete t 0xE0
    else if (s.seat i).state ≠ 3 then s.complete t 1
    else if s.recordBad { new with rsvd := new.rsvd || (rewrite && (parseSeat c.payload).rsvd) } then s.complete t 2
    else (s.setSeat i { new with state := 1, heldCause := 0 }).complete t 0

/-- CLEAR: HELD or DONE to EMPTY, the record zeroed (Table 3.4). -/
def execClear (c : CmdSlot) (s : State) : Out :=
  .next <| s.hostCommand 0x04 c false (some (s.seat c.arg0.toNat).account) fun s t =>
    let i := c.arg0.toNat
    if argHigh c.arg0 17 || c.arg1 ≠ 0 || c.arg2 ≠ 0 then s.complete t 0xE0
    else if (s.seat i).state ≠ 3 && (s.seat i).state ≠ 4 then s.complete t 1
    else (s.setSeat i {}).complete t 0

/-- READ_SEAT: the record as of intake, copied to the slot's payload before the completion (Table 19.5). -/
def execReadSeat (c : CmdSlot) (s : State) : Out :=
  .next <| s.hostCommand 0x05 c false (some (s.seat c.arg0.toNat).account) fun s t =>
    if argHigh c.arg0 17 || c.arg1 ≠ 0 || c.arg2 ≠ 0 then s.complete t 0xE0 else
    let x := s.fn c.fn
    (s.setFn c.fn { x with payload := aset c.slot (seatBytes (s.seat c.arg0.toNat)) x.payload }).complete t 0

/-- The deal an abort falls on is not idle: the running one, or the next where R26 assigns it there. -/
def State.abortDeal (s : State) : Bool :=
  s.dealing && (match (if s.causeDeal = s.cad.deal then s.dealer.running else s.nextPlan) with
    | some p => p.formId.isSome
    | none => false)

/-- ABORT: the deal misdeals with cause host abort; NO_DEAL on an idle deal (R71). -/
def execAbort (c : CmdSlot) (s : State) : Out :=
  .next <| s.hostCommand 0x30 c true none fun s t =>
    if c.arg0 ≠ 0 || c.arg1 ≠ 0 || c.arg2 ≠ 0 then s.complete t 0xE0
    else if !s.abortDeal then s.complete t 0x11
    else (s.addCause 9 0 0xFFF 0 0).complete t 0

end Sys2Proof.Machine
end

