-- ==== Sys2Proof/Machine/Crc.lean ====
section
/-!
DEFINITION. Machine/Crc.lean: the cyclic redundancy checks of the spec.
CRC-32C's generator is the published Castagnoli polynomial (PRESUMED, log entry 9); CRC-64 is R340's.
-/
namespace Sys2Proof.Machine

/-- One bit of a reflected CRC-32C. -/
def crc32cBit (c : BitVec 32) : BitVec 32 :=
  if c.getLsbD 0 then (c >>> 1) ^^^ 0x82F63B78#32 else c >>> 1

def crc32cByte (c : BitVec 32) (b : Byte) : BitVec 32 :=
  let c := c ^^^ b.setWidth 32
  crc32cBit (crc32cBit (crc32cBit (crc32cBit (crc32cBit (crc32cBit (crc32cBit (crc32cBit c)))))))

/-- CRC-32C of a byte string. -/
def crc32c (b : Bytes) : Nat := (b.foldl crc32cByte 0xFFFFFFFF#32 ^^^ 0xFFFFFFFF#32).toNat

/-- CRC-32C of `b` with its 4-byte CHECK field at `off` taken as zero. -/
def crc32cSkip (off : Nat) (b : Bytes) : Nat :=
  crc32c (b.take off ++ [0, 0, 0, 0] ++ b.drop (off + 4))

/-- One bit of R340's CRC-64: ECMA-182, initial value zero, no reflection, no final XOR. -/
def crc64Bit (c : BitVec 64) : BitVec 64 :=
  if c.getLsbD 63 then (c <<< 1) ^^^ 0x42F0E1EBA9EA3693#64 else c <<< 1

def crc64Byte (c : BitVec 64) (b : Byte) : BitVec 64 :=
  let c := c ^^^ (b.setWidth 64 <<< 56)
  crc64Bit (crc64Bit (crc64Bit (crc64Bit (crc64Bit (crc64Bit (crc64Bit (crc64Bit c)))))))

/-- CRC-64 of a byte string (R340). -/
def crc64 (b : Bytes) : BitVec 64 := b.foldl crc64Byte 0

/-- The 80 bytes of an audit record (Table 12.3, R1). -/
def auditBytes (r : AuditRecord) : Bytes :=
  toLe r.kind 1 ++ toLe r.queue 1 ++ toLe r.cycle 2 ++ toLe 0 2 ++ toLe r.addr 6 ++ toLe 0 4 ++ toLe r.data.toNat 64

/-- The CRC-64 of a window's records, in the order they are taken (R340). -/
def auditCrc (rs : List AuditRecord) : Word64 := crc64 (rs.flatMap auditBytes)

end Sys2Proof.Machine

namespace Sys2Proof

/-- CRC of the shadowed core. -/
def AuditCmp.crcCore (a : AuditCmp) : Word64 := Machine.auditCrc a.coreRecords

/-- CRC of its shadow. -/
def AuditCmp.crcShadow (a : AuditCmp) : Word64 := Machine.auditCrc a.shadowRecords

end Sys2Proof
end

