-- ==== Sys2Proof/Machine/RepairMap.lean ====
section
/-!
DEFINITION. Machine/RepairMap.lean: the effective repair map, the state of each die, and what it makes of a form (R92, R111, R171, R330 to R334).
-/
namespace Sys2Proof.Machine

/-- Key of a physical cluster. -/
def clusterKey (d row col : Nat) : Nat := (d * 64 + row) * 34 + col

/-- The effective die record: a bit set in either map is set (R331). -/
def State.effDie (s : State) (d : Nat) : DieMap :=
  let f := s.repair.factory.dies.getD d {}
  let g := s.nv.field.dies.getD d {}
  { retired := f.retired ||| g.retired, lost := f.lost || g.lost }

/-- The effective cluster record: SUB entries of the field map replace the factory's (R331). -/
def State.effCluster (s : State) (key : Nat) : ClusterMap :=
  let f := (aget key s.repair.factory.clusters).getD {}
  match aget key s.nv.field.clusters with
  | none => f
  | some g => { condemned := f.condemned ||| g.condemned, sub := g.sub }

/-- Set bits of a mask of `n` bits, rising. -/
def maskBits {w : Nat} (m : BitVec w) (n : Nat) : List Nat := (List.range n).filter (fun i => m.getLsbD i)

def DieMap.retiredCount (d : DieMap) : Nat := (maskBits d.retired 34).length

/-- DECK: 0 FULL, 1 SHORT, 2 LOST (R330, R332). -/
def State.deck (s : State) (d : Nat) : Nat :=
  let m := s.effDie d
  if m.lost || 5 ≤ m.retiredCount then 2 else if 3 ≤ m.retiredCount then 1 else 0

/-- OD 0x2000.04 and OD 0x2000.0D. -/
def State.shortDies (s : State) : Nat := ((List.range 8).map (fun d => if s.deck d = 1 then 2 ^ d else 0)).sum
def State.lostDies (s : State) : Nat := ((List.range 8).map (fun d => if s.deck d = 2 then 2 ^ d else 0)).sum

/-- Physical columns that carry logical ones, west to east (R171, R330). -/
def State.liveCols (s : State) (d : Nat) : List Nat :=
  let cols := (List.range 34).filter (fun c => !(s.effDie d).retired.getLsbD c)
  match s.deck d with
  | 0 => cols.take 32
  | 1 => cols.take 30
  | _ => []

/-- Live columns east of the last logical column (R338). -/
def State.tapCols (s : State) (d : Nat) : List Nat :=
  if s.deck d = 2 then [] else
  ((List.range 34).filter (fun c => !(s.effDie d).retired.getLsbD c)).drop (s.liveCols d).length

/-- The physical column of a logical one. -/
def State.physCol (s : State) (d col : Nat) : Option Nat := (s.liveCols d)[col]?

/-- Index of the SUB entry that carries logical core `i`, from spare `n` up. -/
def subIndex (i : Nat) : List (Option Nat) → Nat → Option Nat
  | [], _ => none
  | x :: t, n => if x = some i then some n else subIndex i t (n + 1)

/-- The physical core that carries logical core `i` of a cluster (R330). -/
def ClusterMap.physCore (m : ClusterMap) (i : Nat) : Nat := (subIndex i m.sub 64).getD i

/-- The logical core a physical core carries. -/
def ClusterMap.carries (m : ClusterMap) (p : Nat) : Option Nat :=
  if p < 64 then (if m.physCore p = p then some p else none) else (m.sub.getD (p - 64) none)

/-- Physical core `p` of a cluster is suspect. -/
def State.isSuspect (s : State) (d row col p : Nat) : Bool :=
  s.repair.suspects.any (fun x => x.die = d && x.row = row && x.col = col && x.core = p)

/-- The free cores of a cluster, rising (R333). -/
def State.freeCores (s : State) (d row col : Nat) : List Nat :=
  let m := s.effCluster (clusterKey d row col)
  let tap := (s.tapCols d).contains col
  (List.range 68).filter (fun p =>
    !m.condemned.getLsbD p && !s.isSuspect d row col p && (tap || m.carries p = none))

/-- The image entry of an ID that is READY or DAMAGED, with its index. -/
def State.imageOf (s : State) (id : Nat) : Option (Nat × ImageEntry) :=
  s.nv.images.find? (fun e => e.2.id = id && (e.2.state = 2 || e.2.state = 3))

/-- An image is readable: its entry is READY and some key slot holds its KEY_ID (R279), in a life-cycle state that reads the vault (R472). -/
def State.readable (s : State) (id : Nat) : Bool :=
  match s.imageOf id with
  | some (_, e) => (s.sec.lifeCycle = 1 || s.sec.lifeCycle = 2) && e.state = 2 && s.vault.keys.any (fun k => k.2.1 = e.keyId)
  | none => false

/-- DECK holds: no lost die in DIE_MASK, and each short one is in SHORT_MASK (R92, R332). -/
def State.deckOk (s : State) (dieMask shortMask : BitVec 8) : Bool :=
  (List.range 8).all (fun d => !dieMask.getLsbD d || s.deck d = 0 || (s.deck d = 1 && shortMask.getLsbD d))

/-- The certificate's T_min for the device's grade; 0 is not certified. -/
def State.tmin (s : State) (f : Form) : Nat := f.cert.tmin.getD s.factory.grade 0

/-- Effective T_min: T_min plus the aging guard (R38). -/
def State.effTmin (s : State) (f : Form) : Nat := s.tmin f + s.repair.agingGuard

/-- A form counts as certified (R111, R279). -/
def State.certified (s : State) (f : Form) : Bool :=
  s.deckOk f.dieMask f.shortMask && s.tmin f ≠ 0 && decide (s.effTmin f ≤ 160)
    && (f.weightImage = 0 || s.readable f.weightImage)

end Sys2Proof.Machine
end

