-- ==== Sys2Proof/Machine/Forms.lean ====
section
/-!
DEFINITION. Machine/Forms.lean: FORM_LOAD, FORM_UNLOAD and the moment an unload takes effect (R91, R107 to R114, R280, R383).
-/
namespace Sys2Proof.Machine

/-- Sections the device receives (R91): index, bytes received, and the length the header implies. -/
def formSections (img : FormImage) : List (Nat × Nat × Nat) :=
  [(0, img.slots.length, 32 * le img.header 0x10 2), (1, img.windows.length, 16 * byteAt img.header 0x12),
   (3, img.foot.length, (directory img.header 3).2), (4, img.cert.length, 96)]

/-- Directory entries of the received sections: on 64-byte boundaries, past the header, not overlapping (R91), each of the length that the header's counts give it (DESIGN CHOICE, log entry 97). -/
def directoryOk (img : FormImage) : Bool :=
  let dir := (formSections img).map (fun x => directory img.header x.1)
  (formSections img).all (fun x => x.2.1 = x.2.2 && (directory img.header x.1).2 = x.2.2)
    && dir.all (fun d => d.1 % 64 = 0 && decide (128 ≤ d.1))
    && dir.Pairwise (fun a b => !overlaps a.1 a.2 b.1 b.2)
    && img.foot.length % 32 = 0

/-- BAD_CONTAINER as far as the device checks it (R91). -/
def containerBad (img : FormImage) : Bool :=
  let h := img.header
  h.length ≠ 128 || le h 0 4 ≠ 0x4D524F46 || le h 4 2 ≠ 1 || !directoryOk img || headerRsvd h
    || (chunks 32 (le h 0x10 2) img.slots).any slotRsvd
    || (chunks 16 (byteAt h 0x12) img.windows).any openWinRsvd
    || (chunks 32 (img.foot.length / 32) img.foot).any footRsvd || certRsvd img.cert

/-- The form a load image describes (Tables 4.2 to 4.6). -/
def parseForm (img : FormImage) (account : Nat) (pred : Option Nat) : Form :=
  let h := img.header
  { id := le h 6 2, len := le h 8 4 % 2 ^ 23, cutoff := le h 0xC 4 % 2 ^ 22
    dieMask := h.getD 0x13 0, shortMask := h.getD 0x14 0
    mode := byteAt h 0x15 % 4, groupSize := byteAt h 0x16, member := byteAt h 0x17
    stageOffset := le h 0x18 4, weightImage := le h 0x1C 4
    slots := (chunks 32 (le h 0x10 2) img.slots).map parseSlot
    wins := (chunks 16 (byteAt h 0x12) img.windows).map parseOpenWin
    foots := (chunks 32 (img.foot.length / 32) img.foot).map parseFoot
    cert := parseCert img.cert, native := img.native
    account, predecessor := pred, revoked := false, unload := [] }

/-- RANGE: Table 4.2, STAGE_OFFSET outside Deepen among it (log entry 53), and R383 for a group form. -/
def State.rangeBad (s : State) (f : Form) : Bool :=
  f.len < 1024 || 4194304 < f.len || f.len < f.cutoff + 257
    || f.slots.length < 1 || 4096 < f.slots.length || 64 < f.wins.length
    || 2 < f.mode || f.groupSize < 1 || 16 < f.groupSize || (f.mode = 0 && f.groupSize ≠ 1)
    || f.groupSize ≤ f.member || (f.mode ≠ 2 && f.stageOffset ≠ 0)
    || (f.mode ≠ 0 && (match s.group.binding with
        | none => true
        | some b => b.mode ≠ f.mode || b.size ≠ f.groupSize || b.member ≠ f.member))

/-- SLOT_TABLE: Table 4.3. -/
def slotsBad (f : Form) : Bool :=
  f.slots.any (fun t => t.cls < 1 || 4 < t.cls || t.cap < 1 || 1024 < t.cap || 65534 < t.region || t.scratch % 64 ≠ 0
    || 16384 < t.footCount || f.foots.length < t.footFirst + t.footCount)

/-- OPEN_WINDOW: bounds, order and overlap (R114), and the ranges of Table 4.4. -/
def winsBad (f : Form) : Bool :=
  f.wins.any (fun w => w.span < 64 || f.len < w.start + w.span + 256 || (!w.programs && !w.looseDma) || 400 < w.gbps)
    || !decide (f.wins.Pairwise (fun a b => a.start + a.span ≤ b.start))

/-- Rows and columns of a stream or multicast set are logical ones of its dies (R8, R92, Table 5.3). -/
def spanOk (dies short mask : BitVec 8) (rowLo rowHi colLo colHi : Nat) : Bool :=
  mask ≠ 0 && (mask &&& ~~~dies) = 0 && rowLo ≤ rowHi && rowHi ≤ 63 && colLo ≤ colHi && decide (colHi ≤ (if mask &&& short = 0 then 31 else 29))

/-- The stream and multicast tables are in the ranges of Table 5.3 and R127; out of them the image is refused as SVIS_DECODE (log entry 97). -/
def nativeOk (dies short : BitVec 8) (slots : Nat) (n : NativeInfo) : Bool :=
  n.streams.all (fun t => spanOk dies short t.dieMask t.rowLo t.rowHi t.colLo t.colHi && decide (t.slot < slots) && t.coreMask ≠ 0
      && decide (1 ≤ t.words) && decide (t.first + t.words ≤ 2 ^ 28))
    && n.msets.all (fun m => spanOk dies short m.dieMask m.rowLo m.rowHi m.colLo m.colHi)
    && decide (n.streams.length ≤ 65535) && decide (n.msets.length ≤ 4096)

/-- FOOTPRINT: the count, the ranges of Table 4.5, and a write entry on base 0 (R93). An entry whose SLOT the form does not have is one of them (DESIGN CHOICE, log entry 97). -/
def footsBad (f : Form) : Bool :=
  16384 < f.foots.length || f.foots.any (fun e => e.kind < 1 || 5 < e.kind || (if e.kind = 1 then 4 < e.base else e.base ≠ 0)
    || (!e.read && !e.write) || f.slots.length ≤ e.slot || e.offset % 64 ≠ 0 || e.length % 64 ≠ 0 || e.length = 0
    || (e.kind = 1 && e.base = 0 && e.write))

/-- WEIGHTS_ABSENT (R280). -/
def State.weightsAbsent (s : State) (f : Form) : Bool :=
  let vaultFoots := f.foots.filter (·.kind = 4)
  if f.weightImage = 0 then vaultFoots ≠ [] else
  match s.imageOf f.weightImage with
  | none => true
  | some (_, e) =>
    (!e.replicate && e.pos ≠ f.member)
      || vaultFoots.any (fun x => (List.range 8).any (fun d =>
          f.dieMask.getLsbD d && decide (4096 * (e.extents.getD d (0, 0)).2 < x.offset + x.length)))

/-- Insert a form, FORM_IDs rising. -/
def insertForm (f : Form) : List Form → List Form
  | [] => [f]
  | g :: t => if f.id ≤ g.id then f :: g :: t else g :: insertForm f t

/-- Every 64 KiB page of a load image translates for reading. -/
def imageReadable (s : State) (ctx : Nat) : Nat → Nat → Bool × State
  | 0, _ => (true, s)
  | n + 1, va =>
    match translateFor s ctx va false with
    | (.error _, s') => (false, s')
    | (.ok _, s') => imageReadable s' ctx n (va + 65536)

/-- FORM_LOAD: the first failing check of Table 4.10 in table order, else the form is loaded; a load that matches a loaded form's ID and digest succeeds with no change once the container checks pass (R110, R112). The image is read in the form account's context (log entry 20). -/
def execFormLoad (c : CmdSlot) (img : FormImage) (s : State) : Out :=
  .next <| s.hostCommand 0x10 c true none fun s t =>
    let a0 := c.arg0.toNat
    if a0 / 2 ^ 29 ≠ 0 || argHigh c.arg1 32 then s.complete t 0xE0 else
    let acct := bits a0 0 12
    let f := parseForm img acct (if bit a0 28 then some (bits a0 12 16) else none)
    let (readOk, s) := imageReadable s acct (bits c.arg2.toNat 48 16) (bits c.arg2.toNat 0 48)
    if !readOk || containerBad img then s.complete t 0x01
    else if s.rangeBad f then s.complete t 0x03
    else if slotsBad f then s.complete t 0x04
    else if winsBad f then s.complete t 0x05
    else if !nativeOk f.dieMask f.shortMask f.slots.length f.native then s.complete t 0x06
    else if f.native.streams.any (·.region) then s.complete t 0x07
    else if footsBad f then s.complete t 0x0C
    else if s.forms.any (fun g => g.id = f.id && g.cert.digest = f.cert.digest) then s.complete t 0
    else if !s.deckOk f.dieMask f.shortMask then s.complete t 0x11
    else if s.weightsAbsent f then s.complete t 0x12
    else if s.forms.any (·.id = f.id) then s.complete t 0x13
    else if 256 ≤ s.forms.length then s.complete t 0x14
    else if c.arg1.toNat ≠ s.repair.generation.toNat then s.complete t 0x15
    else State.complete { s with forms := insertForm f s.forms } t 0

/-- A deal that uses the form is running, selected or awaiting its re-deal (R113). -/
def State.formInUse (s : State) (id : Nat) : Bool :=
  [s.dealer.running, s.dealer.selected, s.dealer.redeal].any (fun p => match p with | some p => p.formId = some id | none => false)

/-- A registered standing sheet, but for one of the form `id` (R66). -/
def standingWithout (id : Nat) (x : Option Sheet) : Option Sheet := x.filter (fun sh => sh.formId ≠ id)

/-- Drop a loaded form; a standing sheet registered on it reverts to the default (R66). -/
def State.dropForm (s : State) (id : Nat) : State :=
  { s with
    forms := s.forms.filter (·.id ≠ id)
    svis := { s.svis with code := s.svis.code.filter (fun c => c.prog.isSome || c.form ≠ id) }
    dealer := { s.dealer with standing := standingWithout id s.dealer.standing, standingNext := standingWithout id s.dealer.standingNext } }

/-- FORM_UNLOAD: effective at once, or pending while a deal uses the form; a further one joins the pending one (R113). -/
def execFormUnload (c : CmdSlot) (s : State) : Out :=
  .next <| s.hostCommand 0x11 c true none fun s t =>
    if argHigh c.arg0 16 || c.arg1 ≠ 0 || c.arg2 ≠ 0 then s.complete t 0xE0 else
    let id := c.arg0.toNat
    if !s.forms.any (·.id = id) then s.complete t 3
    else if s.formInUse id then
      { s with forms := s.forms.map (fun f => if f.id = id then { f with unload := f.unload ++ [t] } else f) }
    else (s.dropForm id).complete t 0

/-- UNLOAD_EFFECT: no deal uses the form any more, so its pending unload takes effect and every FORM_UNLOAD that joined it completes OK (R113). -/
def execUnloadEffect (formId : Nat) (s : State) : Out :=
  .next <|
    match s.form formId with
    | none => s
    | some f =>
      if f.unload = [] || s.formInUse formId then s
      else f.unload.foldl (fun s t => s.complete t 0) (s.dropForm formId)

end Sys2Proof.Machine
end

