-- ==== Sys2Proof/Machine/Sheets.lean ====
section
/-!
DEFINITION. Machine/Sheets.lean: the sheet doorbell and the arrival checks (R60 to R63, R66, R70, R87, R547, Table 3.10).
-/
namespace Sys2Proof.Machine

/-- The cutoff trick of the deal after the one in progress: CUTOFF of the running form, or L/2 in an idle deal (R63). -/
def State.cutoffTrick (s : State) : Option Nat :=
  match s.dealer.running with
  | some p => match p.form s with
    | some f => some f.cutoff
    | none => s.cad.len.map (· / 2)
  | none => s.cad.len.map (· / 2)

/-- The cutoff of the next deal has passed (R63); a sheet arriving in the cutoff trick itself is late (R88). -/
def State.cutoffPassed (s : State) : Bool :=
  s.cad.cutDone || (match s.cutoffTrick with | some c => decide (c ≤ s.cad.trick) | none => false)

/-- A position is held (R53). -/
def State.positionHeld (s : State) : Bool := s.dealing || s.cad.st = .ready

/-- BAD_SHEET: reserved bits, CHECK, BODY_BYTES, SEAT_TOTAL, flags, and a standing sheet's TARGET_DEAL (Tables 3.8 and 3.10); else the sheet with its fills. -/
def parseSheet (b : Bytes) : Option Sheet :=
  let body := le b 0x18 4
  let h := sheetHeader b
  if b.length < 64 + body || 573440 < body || 4096 < le b 4 2 || 131072 < le b 0x14 4
      || le b 2 2 / 4 ≠ 0 || (h.cut && h.standing) || nonzero b 6 2 || le b 8 8 / 2 ^ 48 ≠ 0 || nonzero b 0x20 32
      || (h.standing && h.target ≠ 0) || crc32cSkip 0x1C (b.take (64 + body)) ≠ le b 0x1C 4 then none else
  match parseFills (le b 4 2) ((b.drop 64).take body) with
  | none => none
  | some (fs, r) =>
    if r ≠ [] || (fs.map (·.seats.length)).sum ≠ le b 0x14 4 then none else some { h with fills := fs }

/-- BAD_FILL (Table 3.10): slot out of range, COUNT above CAPACITY for a fixed fill, a slot named twice without AFFINITY, AFFINITY on GROUP 0. -/
def fillsBad (f : Form) (sh : Sheet) : Bool :=
  let fixed := sh.fills.filter (!·.affinity)
  sh.fills.any (fun x => f.slots.length ≤ x.slot || 1024 < x.seats.length)
    || fixed.any (fun x => match f.slots[x.slot]? with | some t => decide (t.cap < x.seats.length) | none => true)
    || !decide ((fixed.map (·.slot)).Nodup)
    || sh.fills.any (fun x => x.affinity && (match f.slots[x.slot]? with | some t => t.group = 0 | none => true))

/-- Seats of the fixed fills in a slot. -/
def fixedCount (sh : Sheet) (slot : Nat) : Nat :=
  ((sh.fills.filter (fun x => !x.affinity && x.slot = slot)).map (·.seats.length)).sum

/-- Free capacity of a group after the fixed fills. -/
def groupFree (f : Form) (sh : Sheet) (g : Nat) : Nat :=
  ((List.range f.slots.length).map (fun i => match f.slots[i]? with
    | some t => if t.group = g then t.cap - fixedCount sh i else 0
    | none => 0)).sum

/-- OVERFULL (Table 3.10): affinity seats over their group's free capacity, or a seat ID named twice. -/
def sheetOverfull (f : Form) (sh : Sheet) : Bool :=
  let groupOf := fun i => match f.slots[i]? with | some t => t.group | none => 0
  let aff := sh.fills.filter (·.affinity)
  aff.any (fun x => decide (groupFree f sh (groupOf x.slot) <
      ((aff.filter (fun y => groupOf y.slot = groupOf x.slot)).map (·.seats.length)).sum))
    || !decide ((sh.fills.flatMap (·.seats)).Nodup)

/-- The arrival status of a sheet (Table 3.10), in the order of log entry 21. -/
def State.sheetStatus (s : State) (sh : Sheet) : Nat :=
  let cur := s.cad.deal
  if !sh.standing && (!s.positionHeld || sh.target ≤ cur || (sh.target = cur + 1 && s.cutoffPassed)) then 0x02
  else if !sh.standing && cur + 8 < sh.target then 0x03
  else if !sh.standing && !sh.cut && s.dealer.sheets.any (fun x => x.target = sh.target && !x.cut) then 0x04
  else match s.form sh.formId with
    | none => 0x06
    | some f =>
      if f.unload ≠ [] || f.revoked || !s.certified f then 0x06
      else if fillsBad f sh then 0x08
      else if sheetOverfull f sh then 0x09
      else 0x00

/-- Post a sheet's arrival status in SHEET_STAT and in a completion, and clear BUSY (R547). -/
def State.postArrival (s : State) (buf status tag target : Nat) : State :=
  let mute := s.host.sheetMute.contains buf
  let s := { s with host := { s.host with sheetStat := aset buf status s.host.sheetStat, sheetBusy := sdel buf s.host.sheetBusy, sheetMute := sdel buf s.host.sheetMute } }
  if mute then s else s.sheetCpl status tag target 0 buf

/-- An accepted sheet: a standing one waits for the next cutoff (R66); a cut replaces every sheet of its target, each of which receives CUT_OUT (R70). -/
def State.acceptSheet (s : State) (sh : Sheet) : State :=
  if sh.standing then { s with dealer := { s.dealer with standingNext := some sh } }
  else if sh.cut then
    let out := s.dealer.sheets.filter (·.target = sh.target)
    let s := { s with dealer := { s.dealer with sheets := s.dealer.sheets.filter (·.target ≠ sh.target) ++ [sh] } }
    out.foldl (fun s x => s.sheetDone x 0x05) s
  else { s with dealer := { s.dealer with sheets := s.dealer.sheets ++ [sh] } }

/-- SHEET_DB: the doorbell sets BUSY on a buffer that is not busy; it is PF0's alone, and before Run-ready it sets ERR [3] (R542, R547). -/
def execSheetDb (fn buf : Nat) (image : Bytes) (s : State) : Out :=
  .next <|
    if s.devStage ≠ 2 then s.doorbellEarly fn
    else if fn ≠ 0 || 16 ≤ buf || s.host.sheetBusy.contains buf then s
    else { s with host := { s.host with sheetBuf := aset buf image s.host.sheetBuf, sheetBusy := sins buf s.host.sheetBusy } }

/-- SHEET_ARRIVAL: the Dealer has checked the sheet of a busy buffer and posts ACCEPTED or one rejection (R62). -/
def execSheetArrival (buf : Nat) (s : State) : Out :=
  .next <|
    if !s.host.sheetBusy.contains buf then s else
    let b := (aget buf s.host.sheetBuf).getD []
    match parseSheet b with
    | none => s.postArrival buf 0x07 (sheetHeader b).tag (sheetHeader b).target
    | some sh =>
      let st := s.sheetStatus sh
      let s := if st = 2 then { s with dealer := { s.dealer with latePending := s.dealer.latePending + 1 } } else s
      let sh := { sh with mute := s.host.sheetMute.contains buf }
      let s := s.postArrival buf st sh.tag sh.target
      if st = 0 then s.acceptSheet sh else s

end Sys2Proof.Machine
end

