-- ==== Sys2Proof/Machine/Ante.lean ====
section
/-!
DEFINITION. Machine/Ante.lean: selection, placement, admission and the Ante (R59, R63 to R69, R72 to R77, R89, R94, R111, R249 to R255, R299, R309, R391).
-/
namespace Sys2Proof.Machine

/-! ## Placement (R77) -/

/-- Entries placed in a slot so far. -/
def placedIn (es : List Entry) (slot : Nat) : Nat := (es.filter (·.slot = slot)).length

def placeOne (es : List Entry) (slot seat : Nat) : List Entry :=
  es ++ [{ slot, pos := placedIn es slot, seat, void := false, cause := none, descs := 0 }]

/-- Slots of a group with free capacity, rising. -/
def freeSlots (f : Form) (es : List Entry) (g : Nat) : List Nat :=
  (List.range f.slots.length).filter (fun i => match f.slots[i]? with
    | some t => t.group = g && decide (placedIn es i < t.cap)
    | none => false)

def slotRegion (f : Form) (i : Nat) : Nat := match f.slots[i]? with | some t => t.region | none => 0
def slotGroup (f : Form) (i : Nat) : Nat := match f.slots[i]? with | some t => t.group | none => 0

/-- Pass 1 of one group: seats whose residency names a free slot's region; the rest stay pending. -/
def placePass1 (f : Form) (resid : Nat → Nat) (g : Nat) : List Nat → List Entry → List Entry × List Nat
  | [], es => (es, [])
  | x :: t, es =>
    match (freeSlots f es g).find? (fun i => slotRegion f i = resid x) with
    | some i => placePass1 f resid g t (placeOne es i x)
    | none => let r := placePass1 f resid g t es; (r.1, x :: r.2)

/-- Pass 2: the lowest slot of the group with room. -/
def placePass2 (f : Form) (g : Nat) : List Nat → List Entry → List Entry
  | [], es => es
  | x :: t, es =>
    match freeSlots f es g with
    | i :: _ => placePass2 f g t (placeOne es i x)
    | [] => placePass2 f g t es

def placeGroup (f : Form) (resid : Nat → Nat) (fills : List Fill) (es : List Entry) (g : Nat) : List Entry :=
  let seats := (fills.filter (fun x => x.affinity && slotGroup f x.slot = g)).flatMap (·.seats)
  let r := placePass1 f resid g seats es
  placePass2 f g r.2 r.1

/-- Placement of a sheet, with the RESIDENCY each seat will have (R77). -/
def placeSheet (f : Form) (resid : Nat → Nat) (fills : List Fill) : List Entry :=
  let fixed := (fills.filter (!·.affinity)).foldl (fun es x => x.seats.foldl (fun es i => placeOne es x.slot i) es) []
  let groups := ((fills.filter (·.affinity)).map (fun x => slotGroup f x.slot)).dedup
  groups.foldl (placeGroup f resid fills) fixed

/-! ## The seat as it would stand after the commit of the deal in progress (R69) -/

/-- One step of the plan: Table 3.12, updates 3 to 5. -/
def advance (t : Seat) (stop : Bool) : Seat :=
  let step := (t.step + 1) % 65536
  let count := (planEntry t.plan t.phaseIdx).2
  let t := if stop || count ≤ step then { t with phaseIdx := t.phaseIdx + 1, step := 0 } else { t with step }
  { t with state := if t.phaseIdx = 4 || (planEntry t.plan t.phaseIdx).1 = 0 then 4 else 1 }

/-- Table 3.12, updates 1 to 5, for a seat committed in a slot of a class. -/
def commitPlan (t : Seat) (cls kvAdvance : Nat) (stop : Bool) : Seat :=
  let t := { t with kvLen := (t.kvLen + kvAdvance) % 2 ^ 32 }
  let t := if cls = 2 then { t with sel := !t.sel } else if cls = 4 then { t with osel := !t.osel } else t
  advance t stop

/-- A plan's entry for a seat that takes part: neither void nor folded. -/
def Plan.dealt (p : Plan) (seat : Nat) : Option Entry :=
  p.entries.find? (fun e => e.seat = seat && !e.void && e.cause = none && !(p.slotFolds.any (·.1 = e.slot)))

def State.projected (s : State) (seat : Nat) : Seat :=
  let t := s.seat seat
  match s.dealer.running with
  | none => t
  | some p =>
    match p.dealt seat, p.form s with
    | some e, some f =>
      if s.dealing && !s.cad.decided then
        match f.slots[e.slot]? with
        | some sl => commitPlan t sl.cls 0 false
        | none => t
      else t
    | _, _ => t

/-- PHASE of a plan entry that a slot class admits: both are numbered PROMPT/CHUNK 1 to DECODE 4 (R59). -/
def admits (cls : Nat) (t : Seat) : Bool := (planEntry t.plan t.phaseIdx).1 = cls && t.phaseIdx < 4

/-- BANK of a slot: the largest OFFSET + LENGTH of its OUT entries (R308). -/
def bankSize (f : Form) (slot : Nat) : Nat :=
  ((f.foots.filter (fun e => e.kind = 1 && e.base = 4 && e.slot = slot)).map (fun e => e.offset + e.length)).foldl max 0

def State.session (s : State) (engine n : Nat) : Session := (aget (64 * engine + n) s.video.sessions).getD {}

/-- R309: a seat with VIDEO enable set is void. -/
def State.videoVoid (s : State) (f : Form) (slot : Nat) (t : Seat) : Bool :=
  let v := s.session t.videoEngine t.videoSession
  let bank := bankSize f slot
  let va := t.out + boolNat t.osel * bank
  t.videoEn && (v.state ≠ 1 || v.desc.codec = 2 || v.desc.codec = 4 || v.account ≠ t.account
    || v.handoffs.any (fun h => h.va = va) || decide (bank < v.frames * v.frameStride))

/-- A seat with a malformed record folds with cause WALK and raises SECURITY (R89). -/
def malformed (t : Seat) : Bool := t.rsvd || 5 ≤ t.state

/-- A sheet entry is void (R68): the seat is neither SEATED nor IN_DEAL, or its phase is not the slot's. -/
def State.entryVoid (f : Form) (slot : Nat) (t : Seat) : Bool :=
  !malformed t && ((t.state ≠ 1 && t.state ≠ 2)
    || (match f.slots[slot]? with | some sl => !admits sl.cls t | none => true))

/-! ## Resolution (R249 to R255) -/

/-- What resolving has gathered: windows, pins, KV page descriptors, and the faults met. -/
structure Resolved where
  windows : List Window := []
  pins : List Pin := []
  descs : Nat := 0
  faults : List WalkFault := []
deriving DecidableEq, Repr

def addPin (base size : Nat) (o : Owner) : List Pin → List Pin
  | [] => [{ base, size, owners := [o] }]
  | p :: t => if p.base = base && p.size = size then { p with owners := if p.owners.contains o then p.owners else p.owners ++ [o] } :: t
              else p :: addPin base size o t

/-- Pages of [va, va + len) in a context, `fuel` of them at most, with the checks of R250. -/
def pagesOf (s : State) (ctx : Nat) (wr rd sc : Bool) : Nat → Nat → Nat → Except WalkFault (List PagePiece) × State
  | 0, _, _ => (.ok [], s)
  | n + 1, va, stop =>
    if stop ≤ va then (.ok [], s) else
    match translate s ctx va with
    | (.error f, s') => (.error f, s')
    | (.ok x, s') =>
      if (rd && !x.r) || (wr && !x.w) || (sc && !x.sc) || !usableHbm x.pa 1 then (.error .permission, s') else
      match pagesOf s' ctx wr rd sc n (x.pageVa + x.size) stop with
      | (.error f, s'') => (.error f, s'')
      | (.ok ps, s'') => (.ok ({ va := x.pageVa, pa := x.pagePa, size := x.size } :: ps), s'')

def pagesFuel (len : Nat) : Nat := len / 65536 + 2

/-- Physical address of `va` in the pages of a window. -/
def piecePa (ps : List PagePiece) (va : Nat) : Option Nat :=
  (ps.find? (fun p => decide (p.va ≤ va) && decide (va < p.va + p.size))).map (fun p => p.pa + (va - p.va))

/-- Bytes of HBM through a window's pages, and whether a poisoned line was met. -/
def readPieces (s : State) (ps : List PagePiece) (va : Nat) : Nat → Bytes × Bool
  | 0 => ([], false)
  | n + 1 =>
    let r := readPieces s ps (va + 1) n
    match piecePa ps va with
    | some pa => (s.hbmByte pa :: r.1, r.2 || s.poisonedAt pa)
    | none => (0 :: r.1, r.2)

/-- The KV map of a seat (R251, R252): its entries, its KIND, and the pins of its own pages. -/
def kvMap (s : State) (t : Seat) : Except WalkFault (List Nat × Nat × List PagePiece) × State :=
  let len := 64 + 8 * t.kvPages
  if t.kvRoot % 64 ≠ 0 then (.error .walk, s) else
  match pagesOf s t.account false true true (pagesFuel len) t.kvRoot (t.kvRoot + len) with
  | (.error f, s') => (.error f, s')
  | (.ok ps, s') =>
    let r := readPieces s' ps t.kvRoot len
    let h := r.1
    let kind := byteAt h 4
    let entries := (chunks 8 t.kvPages (h.drop 64)).map leAll
    if r.2 || le h 0 4 ≠ 0x504D564B || (kind ≠ 1 && kind ≠ 2) || nonzero h 5 3 || le h 8 4 ≠ t.kvPages
        || le h 0xC 4 ≠ (if kind = 2 then t.kvPages else 0) || nonzero h 0x10 48
        || entries.any (fun e => e % 65536 ≠ 0 || e / 2 ^ 48 ≠ 0) then (.error .walk, s')
    else (.ok (entries, kind, ps), s')

/-- The pages of a KV map that a deal can touch: logical page and map entry. A linear map's pages are its entries; in a ring of `n` pages they are those of the window of the query at position KV_LEN, page g in entry g mod n (R238, R239, R253; log entry 22). -/
def kvPages (ring : Bool) (n kvLen tpp : Nat) : List (Nat × Nat) :=
  if !ring then (List.range n).map (fun g => (g, g)) else
  let last := kvLen / tpp
  (List.range (min n (last + 1))).map (fun i => let g := last + 1 - min n (last + 1) + i; (g, g % n))

/-- Windows of the covered pages of a KV entry (R253): one a page, which writes where the page can hold a position at or beyond KV_LEN (R80, R94). -/
def kvWindows (s : State) (f : Form) (fi slot pos seat : Nat) (t : Seat) (e : Foot) (ring : Bool) : List (Nat × Nat) → Resolved × State
  | [] => ({}, s)
  | (g, va) :: rest =>
    let wr := e.write && decide (t.kvLen / Config.tokensPerPage f.id slot ≤ g)
    let (here, s) := pagesOf s t.account wr e.read false 2 va (va + 65536)
    let (r, s) := kvWindows s f fi slot pos seat t e ring rest
    match here with
    | .error x => ({ r with faults := x :: r.faults }, s)
    | .ok ps =>
      ({ r with windows := { slot, pos, seat, foot := fi, kind := 1, acct := t.account, va, len := 65536, read := e.read, write := wr, pages := ps, page := some g, ring } :: r.windows
                pins := ps.foldl (fun l p => addPin p.pa p.size (.seat seat) l) r.pins
                descs := r.descs + 1 }, s)

/-- Every entry of a KV map is translated (R252): the faults met. -/
def kvFaults (ctx : Nat) : List Nat → State → List WalkFault × State
  | [], s => ([], s)
  | va :: t, s =>
    let (x, s) := translate s ctx va
    let (l, s) := kvFaults ctx t s
    (match x with | .error f => f :: l | .ok _ => l, s)

/-- Context, base and owner of an entry that is neither KV nor VAULT (R249, Table 4.5). -/
def footBase (f : Form) (e : Foot) (slot seat : Nat) (t : Seat) : Nat × Nat × Owner :=
  let decode : Bool := match f.slots[slot]? with | some sl => sl.cls = 4 | none => false
  if e.kind = 2 then (f.account, e.offset, .slot slot)
  else if e.kind = 3 then (f.account, e.offset, .dealer)
  else if e.kind = 5 then (t.account, e.offset, .seat seat)
  else
    let base := match e.base with
      | 0 => if t.sel then t.latentB else t.latentA
      | 1 => if t.sel then t.latentA else t.latentB
      | 2 => t.cond
      | _ => t.out + (if decode then boolNat t.osel * bankSize f slot else 0)
    (t.account, base + e.offset, .seat seat)

/-- One footprint entry of one placed seat, with its KV map (entries and whether it is a ring). A VAULT entry's window holds bytes of the weight image and no page. -/
def resolveFoot (s : State) (f : Form) (slot pos seat : Nat) (t : Seat) (kv : Option (List Nat × Bool)) (fi : Nat) (e : Foot) : Resolved × State :=
  if e.kind = 4 then
    ({ windows := [{ slot, pos, seat, foot := fi, kind := 4, acct := f.account, va := e.offset, len := e.length, read := e.read, write := e.write, pages := [] }] }, s)
  else if e.kind = 1 && e.base = 3 then
    match kv with
    | none => ({}, s)
    | some (entries, ring) =>
      let lo := e.offset / 65536
      let hi := (e.offset + e.length - 1) / 65536
      let cover := (kvPages ring entries.length t.kvLen (Config.tokensPerPage f.id slot)).filterMap (fun g =>
        if lo ≤ g.1 && g.1 ≤ hi then (entries[g.2]?).map (fun va => (g.1, va)) else none)
      kvWindows s f fi slot pos seat t e ring cover
  else
    let (ctx, va, owner) := footBase f e slot seat t
    match pagesOf s ctx e.write e.read (e.kind = 3) (pagesFuel e.length) va (va + e.length) with
    | (.error x, s') => ({ faults := [x] }, s')
    | (.ok ps, s') =>
      ({ windows := [{ slot, pos, seat, foot := fi, kind := e.kind, acct := ctx, va, len := e.length, read := e.read, write := e.write, pages := ps }]
         pins := ps.foldl (fun l p => addPin p.pa p.size owner l) [] }, s')

def mergePins (a b : List Pin) : List Pin :=
  b.foldl (fun l p => p.owners.foldl (fun l o => addPin p.base p.size o l) l) a

/-- What two steps of resolving give together, the first in resolution order first. -/
def Resolved.add (r q : Resolved) : Resolved :=
  { windows := r.windows ++ q.windows, pins := mergePins r.pins q.pins, descs := r.descs + q.descs, faults := r.faults ++ q.faults }

/-- Every entry of a slot's footprint for one placed seat, in entry order; a fault of one leaves the rest to be resolved too (R261). -/
def resolveFoots (s : State) (f : Form) (slot pos seat : Nat) (t : Seat) (kv : Option (List Nat × Bool)) : List (Nat × Foot) → Resolved × State
  | [] => ({}, s)
  | (fi, e) :: rest =>
    let (r, s) := resolveFoot s f slot pos seat t kv fi e
    let (q, s) := resolveFoots s f slot pos seat t kv rest
    (r.add q, s)

/-- Step 4 for one placed seat: its KV map is walked where it has one, and every entry of the slot's footprint is resolved (R249 to R253). -/
def resolveSeat (s : State) (f : Form) (slot pos seat : Nat) (t : Seat) (foots : List (Nat × Foot)) : Resolved × State :=
  if t.kvPages = 0 then resolveFoots s f slot pos seat t none foots else
  match kvMap s t with
  | (.error x, s) =>
    let (r, s) := resolveFoots s f slot pos seat t none foots
    ({ r with faults := x :: r.faults }, s)
  | (.ok (entries, kind, ps), s) =>
    let (bad, s) := kvFaults t.account entries s
    let (r, s) := resolveFoots s f slot pos seat t (some (entries, kind = 2)) foots
    ({ r with pins := ps.foldl (fun l p => addPin p.pa p.size .dealer l) r.pins, faults := bad ++ r.faults }, s)

/-- The footprint entries a slot owns (Table 4.3), with their indices. -/
def slotFoots (f : Form) (slot : Nat) : List (Nat × Foot) :=
  match f.slots[slot]? with
  | none => []
  | some sl => ((List.range f.foots.length).zip f.foots).filter (fun x => sl.footFirst ≤ x.1 && x.1 < sl.footFirst + sl.footCount)

/-- Table 3.7, by the fault of a walk. -/
def foldCode : WalkFault → Nat
  | .walk => 0x10
  | .translation => 0x11
  | .permission => 0x12
  | .deviceRegion => 0x13

/-- The lowest fold cause among the faults met (R261). -/
def worstFault (l : List WalkFault) : Option Nat := l.foldl (fun o x => match o with | none => some (foldCode x) | some c => some (min c (foldCode x))) none

/-- Loose weights are not permitted to the seat's account (R299, Table 17.1). -/
def State.policyFold (s : State) (f : Form) (slot : Nat) (t : Seat) : Bool :=
  (slotFoots f slot).any (·.2.kind = 5) && s.sec.lifeCycle = 2 && !(s.acct t.account).loose

/-- Write through a window's pages, byte by byte. -/
def writePieces (s : State) (ps : List PagePiece) (va : Nat) : Bytes → State
  | [] => s
  | b :: t =>
    let s := match piecePa ps va with
      | some pa => { s with mem := { s.mem with bytes := cellSet pa b s.mem.bytes, poison := sdel (pa / 64) s.mem.poison } }
      | none => s
    writePieces s ps (va + 1) t

/-- Step 6 for one seat: its record into the mirror, and its completion word zeroed (R56; log entry 16). -/
def writeMirror (s : State) (ws : List Window) (pos : Nat) (t : Seat) : State :=
  match ws.find? (·.kind = 3) with
  | none => s
  | some w =>
    let s := writePieces s w.pages (w.va + Config.mirrorOffset pos) (seatBytes t)
    writePieces s w.pages (w.va + Config.completionOffset pos) (List.replicate 8 0)

/-- Steps 3 to 5 of the Ante for one entry (Table 3.11): the entry, what it resolved, and the state. -/
def anteEntry (s : State) (f : Form) (deal : Nat) (e : Entry) : Entry × Resolved × State :=
  let t := s.projected e.seat
  let vid : Bool := match f.slots[e.slot]? with | some sl => sl.cls = 4 && s.videoVoid f e.slot t | none => false
  if e.void || State.entryVoid f e.slot t || vid then
    let s := if vid && !State.entryVoid f e.slot t then { s with video := { s.video with voids := s.video.voids + 1 } } else s
    ({ e with void := true }, {}, s.sendNotice 3 deal e.seat)
  else
    let fold := fun (c : Nat) (s : State) => (({ e with cause := some c } : Entry), ({} : Resolved), s.sendNotice 3 deal (e.seat + 2 ^ 32 * c))
    if malformed (s.seat e.seat) then
      fold 0x10 (s.security 0xAC (subjSeat e.seat) 0 0 0)
    else
    let (r, s) := resolveSeat s f e.slot e.pos e.seat t (slotFoots f e.slot)
    match worstFault r.faults with
    | some c => fold c (if r.faults.contains .deviceRegion then s.security 0xAB (subjSeat e.seat) 0 0 0 else s)
    | none =>
      if s.policyFold f e.slot t then fold 0x14 s
      else ({ e with descs := r.descs }, r, s)

/-- Entries in slot order and then position order (Table 3.11, R255). -/
def resolutionOrder (es : List Entry) (slots : Nat) : List Entry :=
  (List.range slots).flatMap (fun i => es.filter (·.slot = i))

/-- The Ante over the entries of a plan. -/
def anteEntries (f : Form) (deal : Nat) : List Entry → State → List Entry × Resolved × State
  | [], s => ([], {}, s)
  | e :: t, s =>
    let (e', r, s') := anteEntry s f deal e
    let (es, q, s'') := anteEntries f deal t s'
    (e' :: es, r.add q, s'')

/-- A placed position is dealt with its lanes: neither void nor folded, in no folded slot. -/
def Plan.live (p : Plan) (e : Entry) : Bool := !e.void && e.cause.isNone && !p.slotFolds.any (·.1 = e.slot)

/-- Step 6: the lane masks, and no window for masked lanes (R74, R260). -/
def Plan.writeLanes (p : Plan) : Plan :=
  let lanes := (p.entries.filter p.live).map (fun e => (e.slot, e.pos))
  { p with lanes, deadSlots := p.slotFolds.map (·.1), windows := p.windows.filter (fun w => lanes.contains (w.slot, w.pos)) }

/-! ## Selection (R64) -/

/-- NEXT_LEN announced for the next deal: the latched one, else that of the last valid header, else the length in force. -/
def State.announcedLen (s : State) : Option Nat :=
  match s.cad.latch with
  | some l => some l.1
  | none => match s.cad.lastHdr with
    | some h => if h.curDeal = s.cad.deal then some h.nextLen else s.cad.len
    | none => s.cad.len

/-- Page descriptors that the Ante of these entries for deal `n` would emit (R249, R254). -/
def State.descTotal (s : State) (f : Form) (n : Nat) (es : List Entry) : Nat :=
  ((anteEntries f n (resolutionOrder es f.slots.length) s).2.1.windows.map (·.pages.length)).sum

/-- ANTE_BUDGET: 8 µs + 40 ns × seats + 10 ns × descriptors over (L − C) × P, or too many descriptors (R73, R254). -/
def State.overBudget (s : State) (f : Form) (es : List Entry) : Bool :=
  let kv := (es.map (fun e => (s.seat e.seat).kvPages)).sum
  let budget := match s.cad.len, s.cutoffTrick with
    | some l, some c => (l - c) * s.cad.period
    | _, _ => 0
  decide (budget < 8000 + 40 * es.length + 10 * kv) || decide (2097152 < s.descTotal f (s.cad.deal + 1) es)

/-- Status of a candidate at the cutoff: BAD_FORM, LENGTH, ANTE_BUDGET, or none (Table 3.10). -/
def State.candidateStatus (s : State) (formId : Nat) (es : Form → List Entry) : Option Nat :=
  match s.form formId with
  | none => some 0x06
  | some f =>
    if f.unload ≠ [] || f.revoked || !s.certified f then some 0x06
    else if s.announcedLen ≠ some f.len then some 0x0A
    else if s.overBudget f (es f) then some 0x0B
    else none

/-- A plan before its Ante. -/
def freshPlan (source : Source) (formId tag : Nat) (owed : Option Nat) (es : List Entry) : Plan :=
  { source, formId := some formId, tag, owed, entries := es, slotFolds := [], windows := [], pins := [], redealOf := none,
    lastRenege := [], streak := 0, repairIdle := false, poisonPages := [], vaultFailed := [], shortFill := false }

/-- An idle deal (R65). -/
def idlePlan (repair : Bool) : Plan :=
  { source := .idle, formId := none, tag := 0, owed := none, entries := [], slotFolds := [], windows := [], pins := [], redealOf := none,
    lastRenege := [], streak := 0, repairIdle := repair, poisonPages := [], vaultFailed := [], shortFill := false }

/-- Placement of a sheet by the seats' RESIDENCY values (R77). -/
def State.sheetEntries (s : State) (sh : Sheet) (f : Form) : List Entry :=
  placeSheet f (fun i => (s.seat i).residency) sh.fills

/-- Candidates that are sheets for deal N: the cut, then the accepted sheet. -/
def State.sheetCandidates (s : State) (n : Nat) : List (Source × Sheet) :=
  ((s.dealer.sheets.filter (fun x => x.target = n && x.cut)).reverse.map (fun x => (Source.cut, x)))
    ++ ((s.dealer.sheets.filter (fun x => x.target = n && !x.cut)).map (fun x => (Source.queued, x)))

/-- Try the sheets in order; a rejected one receives its status (R64, R548). -/
def trySheets (n : Nat) : List (Source × Sheet) → State → Option Plan × State
  | [], s => (none, s)
  | (src, sh) :: t, s =>
    match s.candidateStatus sh.formId (s.sheetEntries sh) with
    | some st => trySheets n t (s.sheetDone sh st)
    | none =>
      match s.form sh.formId with
      | some f => (some (freshPlan src f.id sh.tag (if sh.mute then none else some sh.target) (s.sheetEntries sh f)), s)
      | none => (none, s)

/-- The repeat sheet (R67): form and placed fills of the last non-idle deal, each entry judged afresh; seats that a short-deck fill left out are none of its fills (R353). -/
def State.repeatPlan (s : State) : Option Plan :=
  match s.dealer.lastPlan with
  | none => none
  | some p =>
    match p.formId with
    | none => none
    | some id =>
      let es := (p.entries.filter (!·.left)).map (fun e => { e with void := false, cause := none, descs := 0 })
      if s.candidateStatus id (fun _ => es) = none then some (freshPlan .repeatSheet id p.tag none es) else none

/-- The standing sheet, or the repeat sheet when none is registered or its form fails BAD_FORM; any other failure leaves an idle deal (R64, R66, Table 3.14). -/
def State.standingPlan (s : State) : Option Plan :=
  match s.dealer.standing with
  | none => s.repeatPlan
  | some sh =>
    match s.candidateStatus sh.formId (s.sheetEntries sh), s.form sh.formId with
    | some 0x06, _ => s.repeatPlan
    | some _, _ => none
    | none, some f => some (freshPlan .standing f.id sh.tag none (s.sheetEntries sh f))
    | none, none => s.repeatPlan

/-- Run the Ante of a selected plan (R72). -/
def State.runAnte (s : State) (deal : Nat) (p : Plan) : Plan × State :=
  match p.form s with
  | none => (p, s)
  | some f =>
    let (es, r, s) := anteEntries f deal (resolutionOrder p.entries f.slots.length) s
    (Plan.writeLanes { p with entries := es, windows := r.windows, pins := r.pins }, s)

/-- Numbering of OD 0x2200.02. -/
def sourceCode : Source → Nat
  | .queued => 0
  | .cut => 1
  | .standing => 2
  | .repeatSheet => 3
  | .idle => 4

/-- The SELECT record for the next deal (Table 13.6). -/
def State.sendSelect (s : State) (deal : Nat) (p : Plan) : State :=
  let formId := p.formId.getD 0
  let mdeal := match p.redealOf with | some d => 2 ^ 20 + 2 ^ 21 * (d % 2 ^ 27) | none => 0
  s.sendNotice 1 deal (formId + 2 ^ 16 * sourceCode p.source + 2 ^ 19 * boolNat s.dealer.lastOutcome + mdeal)

/-- What takes deal N before any sheet: a diverged group, a form revoked, an audit run or a BIST, a repair idle deal before the re-deal's mark, or the re-deal itself. -/
def State.reservedPlan (s : State) (n : Nat) : Option Plan :=
  if s.group.diverged then some (idlePlan false)
  else if s.dealer.forceIdle = n then some (idlePlan false)
  else if s.dealer.bistHold || 0 < s.dealer.auditLeft then some (idlePlan true)
  else match s.dealer.redeal with
    | none => none
    | some p => if n < s.dealer.redealAt then some (idlePlan true) else some p

/-- A short-deck fill is dealt only when its successor's length is announced and its Ante fits (R353). -/
def State.fillOk (s : State) (p : Plan) : Bool :=
  match p.formId with
  | none => false
  | some id => s.candidateStatus id (fun _ => p.entries) = none

/-- Select the plan of deal N and run its Ante (R64); a re-deal reuses its Ante (R75). -/
def State.selectPlan (s : State) (n : Nat) : Plan × State :=
  match s.reservedPlan n with
  | some p =>
    -- sheets whose deal is taken: GROUP_SPLIT in a diverged group, else DISPLACED (R391, Table 3.10)
    let s := (s.sheetCandidates n).foldl (fun s x => s.sheetDone x.2 (if s.group.diverged then 0x0D else 0x0C)) s
    if p.shortFill && p.windows = [] then
      if s.fillOk p then s.runAnte n p
      else
        let s := match p.owed with
          | some target => s.sheetCpl 0x06 p.tag target 0 0xFFFF
          | none => s
        let s := { s with dealer := { s.dealer with redeal := none } }
        match s.standingPlan with
        | some q => s.runAnte n q
        | none => (idlePlan false, s)
    else (p, s)
  | none =>
    match trySheets n (s.sheetCandidates n) s with
    | (some p, s) => s.runAnte n p
    | (none, s) =>
      match s.standingPlan with
      | some p => s.runAnte n p
      | none => (idlePlan false, s)

/-- The device may select: it deals, or stands in READY with an admitted join mark for the next deal (R392). -/
def State.mayCut (s : State) : Bool :=
  (s.dealing || (s.cad.st = .ready && s.power.phase = 0 && s.cad.joinMark = some (s.cad.deal + 1))) && !s.cad.cutDone

/-- SHEET_CUTOFF: at N−1:T(C) the Dealer selects one sheet for N and runs its Ante (R64, R72, R495). -/
def execSheetCutoff (s : State) : Out :=
  .next <|
    if !s.mayCut || s.cutoffTrick ≠ some s.cad.trick then s else
    let n := s.cad.deal + 1
    let s := { s with
      cad := { s.cad with cutDone := true }
      dealer := { s.dealer with standing := s.dealer.standingNext.or s.dealer.standing, standingNext := none } }
    let (p, s) := s.selectPlan n
    let s := { s with dealer := { s.dealer with
      selected := some p
      sheets := s.dealer.sheets.filter (·.target ≠ n)
      lastPlan := if p.formId.isSome then some p else s.dealer.lastPlan } }
    s.sendSelect n p

end Sys2Proof.Machine
end

