-- ==== Sys2Proof/Machine/Coherence.lean ====
section
/-!
DEFINITION. Machine/Coherence.lean: the Kitties, and the directory of shared-coherent lines (R181, R182, R268 to R270).
-/
namespace Sys2Proof.Machine

/-- Directory state of a line; a missing line is UNCACHED. -/
def State.dirState (s : State) (line : Nat) : DirState := (aget line s.coh.dir).getD .uncached

/-- Put a line's state; UNCACHED, and SHARED by nobody, are not listed. -/
def State.setDir (s : State) (line : Nat) (d : DirState) : State :=
  { s with coh := { s.coh with dir :=
      if d = .uncached || d = .shared 0 false then adel line s.coh.dir else aset line d s.coh.dir } }

/-- A line of usable HBM, where shared-coherent pages lie. -/
def scLine (line : Nat) : Bool := usableHbm (64 * line) 64

def dieBit (d : Nat) : BitVec 8 := BitVec.ofNat 8 (2 ^ d)

/-- A read makes the requester a sharer, after the owner, if any, has been fetched back to S (R268). -/
def readDir (st : DirState) (a : CohAgent) : DirState :=
  match st, a with
  | .uncached, .die d => .shared (dieBit d) false
  | .uncached, .hub => .shared 0 true
  | .shared m h, .die d => .shared (m ||| dieBit d) h
  | .shared m _, .hub => .shared m true
  | .owned o, .die d => if o = d then .owned o else .shared (dieBit o ||| dieBit d) false
  | .owned o, .hub => .shared (dieBit o) true
  | .ownedHub, .die d => .shared (dieBit d) true
  | .ownedHub, .hub => .ownedHub

/-- A write leaves the requester the owner, every other copy invalid (R268). -/
def writeDir : CohAgent → DirState
  | .die d => .owned d
  | .hub => .ownedHub

/-- The copy of die `d` becomes I. -/
def dropDie (st : DirState) (d : Nat) : DirState :=
  match st with
  | .shared m h => .shared (m &&& ~~~dieBit d) h
  | .owned o => if o = d then .uncached else .owned o
  | .uncached => .uncached
  | .ownedHub => .ownedHub

/-- Die `d` holds the line as the directory knows it, and whether in M. -/
def holds (st : DirState) (d : Nat) : Option Bool :=
  match st with
  | .shared m _ => if m.getLsbD d then some false else none
  | .owned o => if o = d then some true else none
  | .uncached => none
  | .ownedHub => none

/-- The eviction buffer holds the line. -/
def State.evicts (s : State) (d line : Nat) : Bool := s.coh.evicting.any (fun e => e.1 = d && e.2.1 = line)

/-- The buffer entry is freed on acknowledgement (R270). -/
def State.freeBuffer (s : State) (d line : Nat) : State :=
  { s with coh := { s.coh with evicting := s.coh.evicting.filter (fun e => !(e.1 = d && e.2.1 = line)) } }

/-! ## Kitty (R181, R182) -/

/-- Set of a line in a Kitty (DESIGN CHOICE, log entry 99). -/
def kittyKey (die line : Nat) : Nat := 65536 * die + line % 65536

/-- Walk a replacement tree down from node `n`; a set bit points to the second half. -/
def plruWalk (t : BitVec 15) : Nat → Nat → Nat
  | 0, n => n - 15
  | k + 1, n => plruWalk t k (if t.getLsbD n then 2 * n + 2 else 2 * n + 1)

/-- Turn every node above node `n` away from it. -/
def plruAway : Nat → Nat → BitVec 15 → BitVec 15
  | 0, _, t => t
  | k + 1, n, t =>
    let bit := BitVec.ofNat 15 (2 ^ ((n - 1) / 2))
    plruAway k ((n - 1) / 2) (if n % 2 = 1 then t ||| bit else t &&& ~~~bit)

/-- The way a new line takes: the first one that holds none, else the one the tree points to. -/
def KittySet.victim (x : KittySet) : Nat :=
  ((List.range 16).find? (fun w => (aget w x.ways).isNone)).getD (plruWalk x.tree 4 0)

/-- Put a line into a way, or use it there. -/
def KittySet.use (x : KittySet) (way line : Nat) : KittySet := { ways := aset way line x.ways, tree := plruAway 4 (way + 15) x.tree }

/-- A line leaves a Kitty. -/
def State.kittyDrop (s : State) (die line : Nat) : State :=
  match aget (kittyKey die line) s.kitty.sets with
  | none => s
  | some x => { s with kitty := { s.kitty with sets := aset (kittyKey die line) { x with ways := x.ways.filter (·.2 ≠ line) } s.kitty.sets } }

/-- A Kitty that the directory knows to hold the line begins to evict it (R268). -/
def State.beginEvict (s : State) (die line : Nat) : State :=
  match holds (s.dirState line) die with
  | none => s
  | some m => if s.evicts die line then s else { s with coh := { s.coh with evicting := s.coh.evicting ++ [(die, line, m)] } }

/-- An access to a line at a Kitty: a hit, or a miss that brings the line in and may evict another. -/
def State.kittyAccess (s : State) (die line : Nat) : State :=
  let k := kittyKey die line
  let x := (aget k s.kitty.sets).getD {}
  match x.ways.find? (·.2 = line) with
  | some w => { s with kitty := { s.kitty with sets := aset k (x.use w.1 line) s.kitty.sets, hits := s.kitty.hits + 1 } }
  | none =>
    let v := x.victim
    let s : State := match aget v x.ways with
      | some old => s.beginEvict die old
      | none => s
    { s with kitty := { s.kitty with sets := aset k (x.use v line) s.kitty.sets, misses := s.kitty.misses + 1 } }

/-! ## Requests to the directory -/

/-- The line lies in a page whose leaf has SC set, as the device has translated it (R268). -/
def State.scPage (s : State) (line : Nat) : Bool := s.mem.cached.any (fun l => l.sc && decide (l.pa ≤ 64 * line) && decide (64 * line < l.pa + l.size))

/-- Kitties that a request snoops: an owner, and for a write every sharer (R268). -/
def snooped (st : DirState) (a : CohAgent) (wr : Bool) : List Nat :=
  (List.range 8).filter (fun d => a ≠ .die d && (match holds st d with | some m => wr || m | none => false))

/-- The directory processes an eviction: the Kitty is I, its buffer free (R268, R270). -/
def State.evicted (s : State) (line die : Nat) : State := (s.setDir line (dropDie (s.dirState line) die)).freeBuffer die line

/-- A snoop crosses an eviction: EVICTING, counted; the Kitty is I, and of the two equal copies of the data one is dropped (R270). -/
def State.crossing (s : State) (line die : Nat) : State := State.evicted { s with mem := { s.mem with crossings := s.mem.crossings + 1 } } line die

/-- A request of die or hub for a shared-coherent line. An eviction by the requester itself has reached the directory before it; snoops go out and each may cross an eviction; then the requester is a sharer or the owner (R268 to R270). -/
def State.scRequest (s : State) (a : CohAgent) (wr : Bool) (line : Nat) : State :=
  let s : State := match a with | .die d => if s.evicts d line then s.evicted line d else s | .hub => s
  let snoops := snooped (s.dirState line) a wr
  let s := (snoops.filter (fun d => s.evicts d line)).foldl (fun s d => s.crossing line d) s
  let s := if wr then snoops.foldl (fun s d => s.kittyDrop d line) s else s
  let s := s.setDir line (if wr then writeDir a else readDir (s.dirState line) a)
  match a with | .die d => s.kittyAccess d line | .hub => s

/-- SC_READ_REQUEST (R268, R269). Requests reach the directory in the order of the commands, which is C0 to C7, then H, for those of one cycle (log entry 30). -/
def execScReadRequest (a : CohAgent) (line : Nat) (s : State) : Out :=
  .next <| if scLine line && s.scPage line then s.scRequest a false line else s

/-- SC_WRITE_REQUEST: a write or a read for ownership (R268, R269). -/
def execScWriteRequest (a : CohAgent) (line : Nat) (s : State) : Out :=
  .next <| if scLine line && s.scPage line then s.scRequest a true line else s

/-- An access of an agent to a line of usable HBM: of a shared-coherent page through the directory, of a tensor page through the Kitty of its home die and no other (R181). -/
def State.memLine (s : State) (a : CohAgent) (wr : Bool) (pa : Nat) : State :=
  if !usableHbm pa 64 then s
  else if s.scPage (pa / 64) then s.scRequest a wr (pa / 64)
  else s.kittyAccess (homeDie pa) (pa / 64)

/-- KITTY_EVICTION: a Kitty that holds the line begins to evict it, with data from M and a notice from S; taken a second time, the directory processes the eviction and acknowledges it (R268, R270; log entry 30). -/
def execKittyEviction (die line : Nat) (s : State) : Out :=
  .next <| if s.evicts die line then s.evicted line die else (s.kittyDrop die line).beginEvict die line

/-- FETCH_INVALIDATE: a snoop reaches a Kitty. With the line in its eviction buffer it answers EVICTING, a crossing; either way it ends I (R270). -/
def execFetchInvalidate (die line : Nat) (s : State) : Out :=
  let s := s.kittyDrop die line
  .next <| if s.evicts die line then s.crossing line die else s.setDir line (dropDie (s.dirState line) die)

end Sys2Proof.Machine
end

