-- ==== Sys2Proof/Machine/NumFmt.lean ====
section
/-!
DEFINITION. Machine/NumFmt.lean: exact values, the number formats, packing, and the one rounding of every result (R190 to R207).
-/
namespace Sys2Proof.Machine

/-! ## Exact values -/

/-- An exact value: NaN, an infinity, or (−1)^neg · m · 2^e. A zero keeps its sign. -/
inductive Num where
  | nan
  | inf (neg : Bool)
  | fin (neg : Bool) (m : Nat) (e : Int)
deriving DecidableEq, Repr

def Num.zero : Num := .fin false 0 0
def Num.one : Num := .fin false 1 0

def Num.neg : Num → Num
  | .nan => .nan
  | .inf n => .inf (!n)
  | .fin n m e => .fin (!n) m e

def Num.abs : Num → Num
  | .nan => .nan
  | .inf _ => .inf false
  | .fin _ m e => .fin false m e

def Num.isNan : Num → Bool
  | .nan => true
  | _ => false

def Num.isFinite : Num → Bool
  | .fin _ _ _ => true
  | _ => false

def Num.isZero : Num → Bool
  | .fin _ 0 _ => true
  | _ => false

/-- The sign of a value that is not NaN. -/
def Num.sign : Num → Bool
  | .nan => false
  | .inf n => n
  | .fin n _ _ => n

/-- Exact product; ∞ × 0 is NaN. -/
def Num.mul : Num → Num → Num
  | .nan, _ => .nan
  | _, .nan => .nan
  | .inf a, .inf b => .inf (a != b)
  | .inf a, .fin b m _ => if m = 0 then .nan else .inf (a != b)
  | .fin a m _, .inf b => if m = 0 then .nan else .inf (a != b)
  | .fin a m e, .fin b n f => .fin (a != b) (m * n) (e + f)

/-- The mantissa of a finite value at the exponent `e0`, which is no greater than its own. -/
def Num.at (e0 : Int) : Num → Int
  | .fin n m e => (if n then -1 else 1) * (m * 2 ^ (e - e0).toNat : Nat)
  | _ => 0

/-- The least exponent among nonzero finite values. -/
def minExp : List Num → Option Int
  | [] => none
  | .fin _ m e :: t => if m = 0 then minExp t else match minExp t with
    | none => some e
    | some f => some (min e f)
  | _ :: t => minExp t

/-- Exact sum. ∞ − ∞ is NaN. A sum of zeros of one sign keeps it; any other zero sum has the sign `zs`. -/
def Num.sum (zs : Bool) (l : List Num) : Num :=
  if l.any Num.isNan || (l.contains (.inf false) && l.contains (.inf true)) then .nan
  else if l.contains (.inf false) then .inf false
  else if l.contains (.inf true) then .inf true
  else
    match minExp l with
    | none => .fin (if l.all Num.sign then true else if l.all (fun x => !x.sign) then false else zs) 0 0
    | some e =>
      let t := (l.map (Num.at e)).sum
      if t = 0 then .fin zs 0 0 else .fin (decide (t < 0)) t.natAbs e

def Num.add (zs : Bool) (a b : Num) : Num := Num.sum zs [a, b]

/-- `a` < `b`, neither NaN; zeros are equal. -/
def Num.lt (a b : Num) : Bool :=
  match a, b with
  | .nan, _ => false
  | _, .nan => false
  | .inf x, .inf y => x && !y
  | .inf x, _ => x
  | _, .inf y => !y
  | a, b => match minExp [a, b] with
    | none => false
    | some e => decide (a.at e < b.at e)

def Num.eqv (a b : Num) : Bool := !a.isNan && !b.isNan && !a.lt b && !b.lt a

/-- The order of R204: −0 below +0. -/
def Num.below (a b : Num) : Bool := a.lt b || (a.eqv b && a.sign && !b.sign)

def Num.max (a b : Num) : Num := if a.isNan || b.isNan then .nan else if a.below b then b else a
def Num.min (a b : Num) : Num := if a.isNan || b.isNan then .nan else if a.below b then a else b

/-- ⌊log2 m⌋ of a nonzero number. -/
def lead (m : Nat) : Nat := Nat.log2 m

/-- The exponent of the leading bit of a nonzero finite value. -/
def Num.exp : Num → Int
  | .fin _ m e => lead m + e
  | _ => 0

/-- ⌊x⌋ of a finite value. -/
def Num.floor : Num → Int
  | .fin n m e =>
    if 0 ≤ e then (if n then -1 else 1) * (m * 2 ^ e.toNat : Nat)
    else
      let r := (-e).toNat
      if lead m < r then (if n && m ≠ 0 then -1 else 0)
      else if n then -((m + 2 ^ r - 1) / 2 ^ r : Nat) else (m / 2 ^ r : Nat)
  | _ => 0

def Num.ofInt (i : Int) : Num := .fin (decide (i < 0)) i.natAbs 0

/-- Multiply by 2^k. -/
def Num.scale (k : Int) : Num → Num
  | .fin n m e => .fin n m (e + k)
  | x => x

/-! ## Float formats (Tables 7.1, 7.2) -/

structure FloatFmt where
  exp : Nat
  frac : Nat
  bias : Int
  /-- Encoded magnitude of the largest finite value. -/
  maxMag : Nat
  hasInf : Bool
  /-- Canonical NaN, where the format has one. -/
  nan : Option Nat
deriving DecidableEq, Repr

def fp32 : FloatFmt := { exp := 8, frac := 23, bias := 127, maxMag := 0x7F7FFFFF, hasInf := true, nan := some 0x7FC00000 }
def bf16 : FloatFmt := { exp := 8, frac := 7, bias := 127, maxMag := 0x7F7F, hasInf := true, nan := some 0x7FC0 }
def fp16 : FloatFmt := { exp := 5, frac := 10, bias := 15, maxMag := 0x7BFF, hasInf := true, nan := some 0x7E00 }
def e4m3 : FloatFmt := { exp := 4, frac := 3, bias := 7, maxMag := 0x7E, hasInf := false, nan := some 0x7F }
def e5m2 : FloatFmt := { exp := 5, frac := 2, bias := 15, maxMag := 0x7B, hasInf := true, nan := some 0x7E }
def e3m2 : FloatFmt := { exp := 3, frac := 2, bias := 3, maxMag := 0x1F, hasInf := false, nan := none }
def e2m3 : FloatFmt := { exp := 2, frac := 3, bias := 1, maxMag := 0x1F, hasInf := false, nan := none }
def e2m1 : FloatFmt := { exp := 2, frac := 1, bias := 1, maxMag := 0x7, hasInf := false, nan := none }

def FloatFmt.width (f : FloatFmt) : Nat := 1 + f.exp + f.frac

/-- The value of a pattern (R190): subnormals at their exact value (R192). -/
def FloatFmt.decode (f : FloatFmt) (p : Nat) : Num :=
  let n := bit p (f.exp + f.frac)
  let x := bits p f.frac f.exp
  let q := bits p 0 f.frac
  if f.hasInf && x = 2 ^ f.exp - 1 then (if q = 0 then .inf n else .nan)
  else if !f.hasInf && f.nan.isSome && bits p 0 (f.exp + f.frac) = 2 ^ (f.exp + f.frac) - 1 then .nan
  else if x = 0 then .fin n q (1 - f.bias - f.frac)
  else .fin n (2 ^ f.frac + q) (x - f.bias - f.frac)

/-- m · 2^(−r) rounded to an integer under RND (0 nearest even, 1 toward zero, 2 toward −∞, 3 toward +∞), for a value of sign `neg`. -/
def roundShift (rnd : Nat) (neg : Bool) (m r : Nat) : Nat :=
  if m = 0 then 0 else
  let big := lead m + 1 < r
  let q := if big then 0 else m / 2 ^ r
  let rest := if big then 1 else m % 2 ^ r
  let half : Nat := if big then 2 else if r = 0 then 1 else 2 ^ (r - 1)
  let exact := if big then false else rest = 0
  let up : Bool := match rnd with
    | 0 => !exact && (half < rest || (rest = half && q % 2 = 1))
    | 1 => false
    | 2 => neg && !exact
    | _ => !neg && !exact
  if up then q + 1 else q

/-- The encoded magnitude of m · 2^e rounded under RND with an unbounded exponent range upward. -/
def FloatFmt.roundMag (f : FloatFmt) (rnd : Nat) (neg : Bool) (m : Nat) (e : Int) : Nat :=
  if m = 0 then 0 else
  let qmin : Int := 1 - f.bias - f.frac
  let q := max ((lead m : Int) + e - f.frac) qmin
  let n := if q ≤ e then m * 2 ^ (e - q).toNat else roundShift rnd neg m (q - e).toNat
  (q - qmin).toNat * 2 ^ f.frac + n

def FloatFmt.signed (f : FloatFmt) (neg : Bool) (mag : Nat) : Nat := boolNat neg * 2 ^ (f.exp + f.frac) + mag

/-- The IEEE rule gives ∞ on overflow (Table 7.4). -/
def overflowsToInf (rnd : Nat) (neg : Bool) : Bool := rnd = 0 || (rnd = 2 && neg) || (rnd = 3 && !neg)

/-- What an overflow or an infinite source writes (Table 7.4). -/
def FloatFmt.overflow (f : FloatFmt) (sat toInf neg : Bool) : Nat :=
  if sat || !toInf || f.nan = none then f.signed neg f.maxMag
  else if f.hasInf then f.signed neg ((2 ^ f.exp - 1) * 2 ^ f.frac)
  else f.nan.getD 0

/-- One rounding into the format (R191, R192, R197, R198). -/
def FloatFmt.encode (f : FloatFmt) (rnd : Nat) (sat : Bool) : Num → Nat
  | .nan => f.nan.getD 0
  | .inf n => f.overflow sat true n
  | .fin n m e =>
    let mag := f.roundMag rnd n m e
    if f.maxMag < mag then f.overflow sat (overflowsToInf rnd n) n else f.signed n mag

/-! ## Integers -/

/-- Two's complement of `w` bits. -/
def signedOf (w v : Nat) : Int := if v % 2 ^ w < 2 ^ (w - 1) then (v % 2 ^ w : Nat) else ((v % 2 ^ w : Nat) : Int) - (2 ^ w : Nat)

def ofSigned (w : Nat) (i : Int) : Nat := (i % (2 ^ w : Nat)).toNat

/-- A conversion into INT8 (R199). -/
def int8Of (rnd : Nat) : Num → Nat
  | .nan => 0
  | .inf n => if n then 0x80 else 0x7F
  | .fin n m e =>
    let q : Nat := if m = 0 then 0 else if 0 ≤ e then (if 8 < (lead m : Int) + e then 1024 else m * 2 ^ e.toNat) else roundShift rnd n m (-e).toNat
    ofSigned 8 (if n then max (-(q : Int)) (-128) else min q 127)

/-! ## Formats by code (Table 5.5) -/

/-- The float format of codes 0 to 9; MX codes give their elements'. -/
def floatOf (code : Nat) : Option FloatFmt :=
  match code with
  | 0 => some fp32
  | 1 => some bf16
  | 2 => some fp16
  | 3 => some e4m3
  | 4 => some e5m2
  | 5 => some e4m3
  | 6 => some e5m2
  | 7 => some e3m2
  | 8 => some e2m3
  | 9 => some e2m1
  | _ => none

def isMx (code : Nat) : Bool := 5 ≤ code && code ≤ 9

/-- Bits of an element. -/
def fmtWidth (code : Nat) : Nat :=
  match floatOf code with
  | some f => f.width
  | none => match code with
    | 10 => 8
    | 11 => 4
    | 12 => 64
    | _ => 0

/-- The value of an element; an MX element before its scale, an INT4 element as signed (R200), an ACC64 element by [39:0] (R196). -/
def elemValue (code p : Nat) : Num :=
  match floatOf code with
  | some f => f.decode p
  | none => match code with
    | 10 => Num.ofInt (signedOf 8 p)
    | 11 => Num.ofInt (signedOf 4 p)
    | 12 => Num.ofInt (signedOf 40 p)
    | _ => .nan

/-- One rounding into a destination format that is neither MX nor ACC64. -/
def encodeElem (code rnd : Nat) (sat : Bool) (x : Num) : Nat :=
  match floatOf code with
  | some f => f.encode rnd sat x
  | none => int8Of rnd x

/-- R195. -/
def mxScaled (s : Nat) (x : Num) : Num := if s = 255 then .nan else x.scale ((s : Int) - 127)

/-! ## Packing (R193) -/

/-- Element `i` of `w`-bit elements packed from the front of `b`. -/
def packedElem (b : Bytes) (w i : Nat) : Nat := bits (le b (w * i / 8) (w / 8 + 2)) (w * i % 8) w

/-- The number whose `w`-bit digits, lowest first, these are. -/
def packNat (w : Nat) : List Nat → Nat
  | [] => 0
  | x :: t => x % 2 ^ w + 2 ^ w * packNat w t

/-- Elements packed densely, in whole bytes. -/
def packElems (w : Nat) (xs : List Nat) : Bytes := toLe (packNat w xs) ((w * xs.length + 7) / 8)

def linesOf (n : Nat) : Nat := (n + 63) / 64

/-- Bytes from the front of a vector to its scale array (R202): its elements up to the next line boundary. -/
def scaleOffset (w count : Nat) : Nat := linesOf ((w * count + 7) / 8) * 64

/-- Bytes of a vector of `count` elements, scales included. -/
def vecBytes (code count : Nat) : Nat :=
  if isMx code then scaleOffset (fmtWidth code) count + (count + 31) / 32 else (fmtWidth code * count + 7) / 8

/-- The values of a vector whose bytes start `b` (R202, R203). -/
def readVec (code count : Nat) (b : Bytes) : List Num :=
  let w := fmtWidth code
  let sc := scaleOffset w count
  (List.range count).map (fun i =>
    let x := elemValue code (packedElem b w i)
    if isMx code then mxScaled (byteAt b (sc + i / 32)) x else x)

/-- VQMX's exponent field E (R201). -/
def mxExp (code : Nat) : Int :=
  match code with
  | 5 => 8
  | 6 => 15
  | 7 => 4
  | _ => 2

/-- One VQMX block: its scale byte and its elements (R201). -/
def quantBlock (code rnd : Nat) (xs : List Num) : Nat × List Nat :=
  match floatOf code with
  | none => (0, [])
  | some f =>
    let fin := xs.filter (fun x => x.isFinite && !x.isZero)
    let amax := fin.foldl (fun m x => Num.max m x.abs) Num.zero
    let x : Int := if fin = [] then -127 else max (-127) (min 127 (amax.exp - mxExp code))
    if 7 ≤ code && xs.any (fun v => !v.isFinite) then (255, xs.map (fun _ => 0)) else
    ((x + 127).toNat, xs.map (fun v => match v with
      | .nan => f.nan.getD 0
      | .inf n => if code = 6 then f.signed n (31 * 4) else 0x7F
      | v => f.encode rnd true (v.scale (-x))))

/-- Blocks of 32 of a list, as many as `n`. -/
def blocks32 {α : Type} : Nat → List α → List (List α)
  | 0, _ => []
  | n + 1, l => l.take 32 :: blocks32 n (l.drop 32)

/-- The bytes VQMX writes from line D on: elements, and the scales from the next line boundary (R202). -/
def quantise (code rnd : Nat) (xs : List Num) : Bytes × Bytes :=
  let bs := (blocks32 (xs.length / 32) xs).map (quantBlock code rnd)
  (packElems (fmtWidth code) (bs.flatMap (·.2)), bs.map (fun b => BitVec.ofNat 8 b.1))

end Sys2Proof.Machine
end

