-- ==== Sys2Proof/Machine/Func.lean ====
section
/-!
DEFINITION. Machine/Func.lean: function tables, the built-in functions, row statistics, merges and masks (R217 to R235).
-/
namespace Sys2Proof.Machine

/-! ## Piecewise-quadratic tables (R218 to R220) -/

/-- c0 + c1·t + c2·t², exact; an exact zero is +0. -/
def quad (c0 c1 c2 t : Num) : Num :=
  match Num.sum false [c0, c1.mul t, c2.mul (t.mul t)] with
  | .fin _ 0 _ => Num.zero
  | x => x

/-- The segment index and t of x in a table with base `lo` and width 2^`wlog` (R218). -/
def segOf (lo : Num) (wlog : Int) (x : Num) : Int × Num :=
  let d := Num.sum false [x, lo.neg]
  let i := (d.scale (-wlog)).floor
  (i, Num.sum false [d, (Num.ofInt (-i)).scale wlog])

/-- A ROM coefficient, always finite (Table 8.1); segment 0's c0 is fixed by R221 except for TANH (log entry 10). -/
def romC (table seg k : Nat) : Num :=
  if seg = 0 && k = 0 && table ≠ 0 then (if table = 2 then Num.zero else Num.one)
  else match fp32.decode (Config.romCoeff table seg k).toNat with
    | .fin n m e => .fin n m e
    | _ => Num.zero

/-- Q_name(x): the unrounded value of ROM table `table` with base `lo`; at the base of a segment it is c0, the other terms being zero. -/
def romQ (table : Nat) (lo : Num) (wlog : Int) (x : Num) : Num :=
  let (i, t) := segOf lo wlog x
  let i := i.toNat
  if t.isZero then quad (romC table i 0) Num.zero Num.zero t else quad (romC table i 0) (romC table i 1) (romC table i 2) t

/-! ## Built-in functions (Tables 8.2, 8.3) -/

/-- tanh before rounding. -/
def tanhValue : Num → Num
  | .nan => .nan
  | .inf n => .fin n 1 0
  | .fin n m e =>
    let x := Num.fin false m e
    if m = 0 || x.lt (.fin false 1 (-12)) then .fin n m e
    else if x.lt (.fin false 8 0) then (match romQ 0 Num.zero (-5) x with | .fin s q f => .fin (n != s) q f | v => v)
    else .fin n 1 0

/-- Significand in [1, 2) and exponent of a nonzero finite magnitude. -/
def normalised (m : Nat) (e : Int) : Num × Int := (.fin false m (-(lead m : Int)), (lead m : Int) + e)

/-- FN 0 to 5 before rounding (R221, R222). -/
def builtin (fn : Nat) (x : Num) : Num :=
  match fn, x with
  | _, .nan => .nan
  | 0, x => tanhValue x
  | 1, .inf n => if n then Num.zero else Num.one
  | 1, x => Num.sum false [.fin false 1 (-1), (tanhValue (x.scale (-1))).scale (-1)]
  | 2, .inf n => if n then Num.zero else .inf false
  | 2, x =>
    let n := x.floor
    (romQ 1 Num.zero (-8) (Num.sum false [x, Num.ofInt (-n)])).scale n
  | 3, .inf n => if n then .nan else .inf false
  | 3, .fin n m e =>
    if m = 0 then .inf true else if n then .nan else
    let (s, k) := normalised m e
    Num.sum false [Num.ofInt k, romQ 2 Num.one (-8) s]
  | 4, .inf n => .fin n 0 0
  | 4, .fin n m e =>
    if m = 0 then .inf n else
    let (s, k) := normalised m e
    (match (romQ 3 Num.one (-8) s).scale (-k) with | .fin z q f => .fin (n != z) q f | v => v)
  | 5, .inf n => if n then .nan else Num.zero
  | 5, .fin n m e =>
    if m = 0 then .inf n else if n then .nan else
    let (s, k) := normalised m e
    if k % 2 = 0 then (romQ 4 Num.one (-8) s).scale (-(k / 2)) else (romQ 5 Num.one (-8) s).scale (-((k - 1) / 2))
  | _, _ => .nan

/-! ## Table slots (R219, R220, R224, R225) -/

def imgLo (b : Bytes) : Num := fp32.decode (le b 0 4)
def imgWlog (b : Bytes) : Int := signedOf 8 (byteAt b 4)
def imgGroup (b : Bytes) : Nat := byteAt b 5 % 32
def imgHi (b : Bytes) : Num := Num.sum false [imgLo b, .fin false 256 (imgWlog b)]
def imgC (b : Bytes) (seg k : Nat) : Num := fp32.decode (le b (0x40 + 12 * seg + 4 * k) 4)

def imgContains (b : Bytes) (x : Num) : Bool := !x.lt (imgLo b) && x.lt (imgHi b)

def imgValue (b : Bytes) (x : Num) : Num :=
  let (i, t) := segOf (imgLo b) (imgWlog b) x
  quad (imgC b i.toNat 0) (imgC b i.toNat 1) (imgC b i.toNat 2) t

/-- The BELOW and ABOVE rules (R220). -/
def imgBelow (b : Bytes) (x : Num) : Num :=
  match bits (byteAt b 6) 0 2 with
  | 0 => imgC b 0 0
  | 1 => fp32.decode (le b 8 4)
  | _ => x

def imgAbove (b : Bytes) (x : Num) : Num :=
  match bits (byteAt b 6) 2 2 with
  | 0 => quad (imgC b 255 0) (imgC b 255 1) (imgC b 255 2) (.fin false 1 (imgWlog b))
  | 1 => fp32.decode (le b 0xC 4)
  | _ => x

/-- The first image of the least LO. -/
def leastLo : List Bytes → Option Bytes
  | [] => none
  | b :: t => match leastLo t with
    | none => some b
    | some c => if (imgLo c).lt (imgLo b) then some c else some b

/-- The first image of the largest HI. -/
def largestHi : List Bytes → Option Bytes
  | [] => none
  | b :: t => match largestHi t with
    | none => some b
    | some c => if (imgHi b).lt (imgHi c) then some c else some b

/-- FN 32 + k (R224, R225). -/
def slotValue (tables : List (Nat × Bytes)) (k : Nat) (x : Num) : Num :=
  match tables.find? (·.1 = k) with
  | none => .nan
  | some (_, b) =>
    let g := if imgGroup b = 0 then [b] else (tables.filter (fun t => imgGroup t.2 = imgGroup b)).map (·.2)
    if x.isNan then .nan else
    match g.find? (fun c => imgContains c x) with
    | some c => imgValue c x
    | none =>
      match leastLo g with
      | none => .nan
      | some c =>
        if x.lt (imgLo c) then imgBelow c x
        else match largestHi (g.filter (fun d => !x.lt (imgHi d))) with
          | none => .nan
          | some d => imgAbove d x

/-- The function FN names; 6 is identity in SFUSE (R229). -/
def fnValue (tables : List (Nat × Bytes)) (fn : Nat) (x : Num) : Num :=
  if fn < 6 then builtin fn x else if fn = 6 then x else slotValue tables (fn - 32) x

/-! ## Fused form, statistics, merges, masks (R229 to R235) -/

/-- One element of SFUSE before rounding (R229). -/
def fuseValue (tables : List (Nat × Bytes)) (fn rnd : Nat) (x b s : Num) : Num :=
  fnValue tables fn (s.mul (Num.add (Config.zeroSign rnd) x b))

/-- FP32 patterns with nearest-even rounding. -/
def toFp32 (x : Num) : Nat := fp32.encode 0 false x

/-- Element (r, c) of SSTAT's matrix (R230). -/
def statIndex (rows rowlen r c : Nat) : Nat :=
  if rows % 4 = 0 then 16 * ((r / 4) * (rowlen / 4) + c / 4) + 4 * (r % 4) + c % 4 else r * rowlen + c

/-- The largest of a row (R204, R231). -/
def rowMax : List Num → Num
  | [] => Num.zero
  | [x] => x
  | x :: t => Num.max x (rowMax t)

/-- The record of one row (R231). -/
def statRecord (stats : Nat) (xs : List Num) : Bytes :=
  toLe (if bit stats 0 then toFp32 (rowMax xs) else 0) 4
    ++ toLe (if bit stats 1 then toFp32 (Num.sum false xs) else 0) 4
    ++ toLe (if bit stats 2 then toFp32 (Num.sum false (xs.map (fun x => x.mul x))) else 0) 4
    ++ toLe 0 4

/-- e_i of SMERGE: exp2 of the FP32 value m_i − m, 0 for a side at −∞ (R234). -/
def mergeWeight (mi m : Num) : Num :=
  if mi = .inf true then Num.zero
  else fp32.decode (toFp32 (builtin 2 (fp32.decode (toFp32 (Num.sum false [mi, m.neg])))))

/-- The merged triple of `n` accumulator elements (R234). -/
def mergeTriples (n : Nat) (b1 b2 : Bytes) : Bytes :=
  let w := fun (b : Bytes) (i : Nat) => fp32.decode (le b (4 * i) 4)
  let m1 := w b1 0
  let m2 := w b2 0
  let out := fun (m l : Nat) (a : List Nat) => toLe m 4 ++ toLe l 4 ++ (List.replicate 56 0) ++ a.flatMap (fun x => toLe x 4)
  if m1.isNan || m2.isNan then (List.replicate (16 + n) (toLe 0x7FC00000 4)).flatten
  else if m1 = .inf true && m2 = .inf true then out 0xFF800000 0 (List.replicate n 0)
  else
    let m := Num.max m1 m2
    let e1 := mergeWeight m1 m
    let e2 := mergeWeight m2 m
    let mix := fun (x y : Num) => toFp32 (Num.sum false [x.mul e1, y.mul e2])
    out (toFp32 m) (mix (w b1 1) (w b2 1)) ((List.range n).map (fun k => mix (w b1 (16 + k)) (w b2 (16 + k))))

/-- One element of SMASK: +0 when allowed, else −∞ (R232). -/
def maskElem (causal segment : Bool) (qp kp sq sk : Nat) : Nat :=
  if (!causal || kp ≤ qp) && (!segment || sq = sk) then 0 else 0xFF800000

/-- The QT × KT tiles of a mask, as FP32 patterns (R232). -/
def maskTiles (qt kt : Nat) (causal segment : Bool) (q0 k0 : Nat) (segq segk : Nat → Nat) : List Nat :=
  (List.range (qt * kt)).flatMap (fun t =>
    let a := t / kt
    let b := t % kt
    (List.range 16).map (fun e =>
      let i := 4 * a + e / 4
      let j := 4 * b + e % 4
      maskElem causal segment ((q0 + i) % 2 ^ 32) ((k0 + j) % 2 ^ 32) (segq i) (segk j)))

end Sys2Proof.Machine
end

