-- ==== Sys2Proof/Machine/Repairs.lean ====
section
/-!
DEFINITION. Machine/Repairs.lean: the repair actions: substitution, condemnation, column retirement, marks, verdicts and their events (R331 to R335, R342 to R348, R354).
-/
namespace Sys2Proof.Machine

/-- Post now, with the events of the next mark when the decision has passed (R354), or after the wake when the device sleeps or is on its way there or back (R357). -/
def State.queuePost (s : State) (r : EvReq) : State :=
  if s.power.phase ≠ 0 then { s with dealer := { s.dealer with afterWake := s.dealer.afterWake ++ [r] } }
  else if s.dealing && s.cad.decided then { s with dealer := { s.dealer with toPost := s.dealer.toPost ++ [r] } } else s.post r

/-- A REPAIR event: its action, the cause it follows, its place, the new guard for an AGING action (Table 19.7). -/
def State.repairEvent (s : State) (action rank detail place guard : Nat) : State :=
  s.queuePost { ev 0x05 detail s.curDeal with cause := rank, place, w1 := place, w2 := action + 256 * guard, w3 := s.repair.generation.toNat }

/-- Each change of the effective map raises the repair generation by one (R331). -/
def State.bumpGeneration (s : State) : State := { s with repair := { s.repair with generation := s.repair.generation + 1 } }

/-- The field map is written to its two copies in turn (R510). -/
def State.writeField (s : State) (m : RepairMap) : State :=
  { s with nv := { s.nv with field := m, fieldOld := s.nv.field, newerX := !s.nv.newerX } }

/-- Put a cluster's record into the field map. -/
def State.setCluster (s : State) (key : Nat) (m : ClusterMap) : State :=
  s.writeField { s.nv.field with clusters := aset key m s.nv.field.clusters }

/-- Change the field map's die record. -/
def State.setDie (s : State) (d : Nat) (f : DieMap → DieMap) : State :=
  s.writeField { s.nv.field with dies := s.nv.field.dies.modify d f }

/-- SHORT_DECK on a move of a die to SHORT or LOST (R335). -/
def State.shortDeck (s : State) (d before : Nat) : State :=
  if s.deck d = before then s
  else s.queuePost { ev 0x08 0 s.curDeal with place := placeDie d, w1 := placeDie d, w2 := s.deck d, w3 := s.repair.generation.toNat }

/-- Retire a physical column (R335); none is retired on a lost die (R330). Suspects of the column leave with it. -/
def State.retireColumn (s : State) (d col rank detail : Nat) : State :=
  let before := s.deck d
  if before = 2 || (s.effDie d).retired.getLsbD col then s else
  let s := (s.setDie d (fun m => { m with retired := m.retired ||| (1#34 <<< col) })).bumpGeneration
  let s := { s with repair := { s.repair with suspects := s.repair.suspects.filter (fun x => !(x.die = d && x.col = col)) } }
  (s.repairEvent 4 rank detail (placeCluster d 0 col) 0).shortDeck d before

/-- A condemned gateway or vault port loses the die (R332). -/
def State.loseDie (s : State) (d rank detail : Nat) : State :=
  let before := s.deck d
  let s := if before = 2 then s else (s.setDie d (fun m => { m with lost := true })).bumpGeneration
  (s.repairEvent 2 rank detail (placeDie d) 0).shortDeck d before

/-- Logical core `c` of a cluster carried by spare `p`, and by no other spare. -/
def ClusterMap.carryOn (m : ClusterMap) (c p : Nat) : ClusterMap :=
  { m with sub := (m.sub.map (fun x => if x = some c then none else x)).set (p - 64) (some c) }

/-- The lowest free spare but `excl` (R334). -/
def State.freeSpare (s : State) (d row col : Nat) (excl : Option Nat) : Option Nat :=
  (s.freeCores d row col).find? (fun p => 64 ≤ p && some p ≠ excl)

/-- Substitute logical core `c`: the lowest free spare, else nothing (R334). -/
def State.substitute (s : State) (d row col c : Nat) (excl : Option Nat) : Option State :=
  match s.freeSpare d row col excl with
  | none => none
  | some p => some ((s.setCluster (clusterKey d row col) ((s.effCluster (clusterKey d row col)).carryOn c p)).bumpGeneration)

/-- Set the CONDEMNED bit of physical core `p`; a suspicion of it ends. -/
def State.setCondemned (s : State) (d row col p : Nat) : State :=
  let key := clusterKey d row col
  let m := s.effCluster key
  let s := (s.setCluster key { m with condemned := m.condemned ||| (1#68 <<< p) }).bumpGeneration
  { s with repair := { s.repair with suspects := s.repair.suspects.filter (fun x => !(x.die = d && x.row = row && x.col = col && x.core = p)) } }

/-- Condemn physical core `p`; the logical core it carries is substituted, or the column is retired (R334, R345, Table 12.5). -/
def State.condemn (s : State) (d row col p rank detail : Nat) : State :=
  let carried := if (s.liveCols d).contains col then (s.effCluster (clusterKey d row col)).carries p else none
  let s := (s.setCondemned d row col p).repairEvent 2 rank detail (placeCore d row col p) 0
  match carried with
  | none => s
  | some c =>
    match s.substitute d row col c none with
    | some s => s.repairEvent 1 rank detail (placeCore d row col p) 0
    | none => s.retireColumn d col rank detail

/-- What a failed check, or a second mark, brings to a unit (Table 12.5, last column but one). -/
def State.repairUnit (s : State) (u : UnitRef) (rank detail : Nat) : State :=
  match u with
  | .core d r c p => s.condemn d r c p rank detail
  | .coreStore d r c p => s.condemn d r c p rank detail
  | .clusterStore d _ c => s.retireColumn d c rank detail
  | .table d _ c => s.retireColumn d c rank detail
  | .sfu d _ c => s.retireColumn d c rank detail
  | .router d _ c => s.retireColumn d c rank detail
  | .gateway d _ => s.loseDie d rank detail
  | .vaultPort d => s.loseDie d rank detail
  | .hub => s
  | .die d => s.loseDie d rank detail

/-- A core and its store are one unit to R345: both are condemned as the core. -/
def markKey : UnitRef → UnitRef
  | .coreStore d r c k => .core d r c k
  | u => u

/-- One more transient verdict (OD 0x2000.10). -/
def State.transient (s : State) : State := { s with repair := { s.repair with transients := s.repair.transients + 1 } }

/-- An unconfirmed mark; a second one within the transient window condemns the unit (R345). -/
def State.markUnit (s : State) (u : UnitRef) (rank detail : Nat) : State :=
  let deal := s.cad.deal
  let u := markKey u
  let again := s.repair.marks.any (fun m => m.1 = u && decide (deal - m.2 ≤ s.repair.transientWindow))
  let s := { s with repair := { s.repair with marks := s.repair.marks.filter (·.1 ≠ u) ++ [(u, deal)] } }
  if again then s.repairUnit u rank detail else s

/-- The shadowing cores of a cluster: its own free cores, then those of its row's tap clusters at the last logical column (R337, R338). -/
def State.shadowCores (s : State) (d row col : Nat) : List (Nat × Nat) :=
  (s.freeCores d row col).map (fun p => (col, p))
    ++ (if (s.liveCols d).getLast? = some col then (s.tapCols d).flatMap (fun t => (s.freeCores d row t).map (fun p => (t, p))) else [])

/-- Clusters the maps or a suspicion name: only they can lack a free core. -/
def State.touchedClusters (s : State) : List (Nat × Nat × Nat) :=
  let keys : List Nat := s.nv.field.clusters.map (fun e => e.1) ++ s.repair.factory.clusters.map (fun e => e.1)
  let named : List (Nat × Nat × Nat) := keys.map (fun k => (k / 34 / 64, k / 34 % 64, k % 34))
  let sus : List (Nat × Nat × Nat) := s.repair.suspects.map (fun x => (x.die, x.row, x.col))
  (named ++ sus).dedup

/-- Clusters with a logical column and no shadowing core (R342). -/
def State.unwatchedNow (s : State) : List Nat :=
  (s.touchedClusters.filter (fun x => (s.liveCols x.1).contains x.2.2 && s.shadowCores x.1 x.2.1 x.2.2 = [])).map
    (fun x => clusterKey x.1 x.2.1 x.2.2)

/-- Post UNWATCHED for each cluster that became unwatched (R342). -/
def State.watch (s : State) : State :=
  let now := s.unwatchedNow
  let fresh := now.filter (fun k => !s.repair.unwatched.contains k)
  let s := { s with repair := { s.repair with unwatched := now } }
  fresh.foldl (fun s k =>
    let place := placeCluster (k / 34 / 64) (k / 34 % 64) (k % 34)
    s.queuePost { ev 0x07 0 s.curDeal with place, w1 := place, w2 := now.length }) s

/-- Rise of the aging guard, effective at the mark of deal `at` (R358). -/
def State.raiseGuard (s : State) (ns deal : Nat) : State :=
  if ns = 0 then s else
  let pending := (s.repair.guardNext.map (·.2)).foldl max s.repair.agingGuard
  let new := min 40 (pending + ns)
  if new = pending then s else
  let s := { s with repair := { s.repair with guardNext := s.repair.guardNext ++ [(deal, new)] } }
  s.repairEvent 6 5 0 0 new

/-! ## Suspects and the double audit -/

/-- Logical core `c` returns to its own physical core. -/
def ClusterMap.release (m : ClusterMap) (c : Nat) : ClusterMap := { m with sub := m.sub.map (fun x => if x = some c then none else x) }

/-- Free core `p` takes the role of logical core `c`: a spare carries it, and physical core c itself takes its own role back; no record can say more (Table 12.1). -/
def ClusterMap.takeRole (m : ClusterMap) (c p : Nat) : Option ClusterMap :=
  if 64 ≤ p then some (m.carryOn c p) else if p = c then some (m.release c) else none

/-- SUSPECT, and the substitution of R343: a free spare, else the shadow itself when it is a free core of the same cluster, else the column is retired. -/
def State.substituteSuspect (s : State) (x : Suspect) : State :=
  let place := placeCore x.die x.row x.col x.core
  let s := s.queuePost { ev 0x06 0x34 s.curDeal with cause := 4, place, w1 := place, w2 := x.shadow }
  let settled := fun (s : State) (single : Bool) =>
    { s with repair := { s.repair with suspects := s.repair.suspects.map (fun y => if y = x then { x with fresh := false, single } else y) } }
  match s.substitute x.die x.row x.col x.logical (if x.shadowCol = x.col then some x.shadow else none) with
  | some s => (settled s false).repairEvent 1 4 0x34 place 0
  | none =>
    let key := clusterKey x.die x.row x.col
    let taken := if x.shadowCol = x.col && (s.freeCores x.die x.row x.col).contains x.shadow then (s.effCluster key).takeRole x.logical x.shadow else none
    match taken with
    | some m => (settled ((s.setCluster key m).bumpGeneration) true).repairEvent 1 4 0x34 place 0
    | none => s.retireColumn x.die x.col 4 0x34

def State.clearSuspect (s : State) (x : Suspect) : State :=
  { s with repair := { s.repair with suspects := s.repair.suspects.filter (· ≠ x) } }

/-- The physical core that now carries the suspect's logical core. -/
def State.carrier (s : State) (x : Suspect) : Nat := (s.effCluster (clusterKey x.die x.row x.col)).physCore x.logical

/-- Verdicts of the double audit (Table 12.4), made at the decision. -/
def State.verdict (s : State) (x : Suspect) : State :=
  let place := placeCore x.die x.row x.col x.core
  let core : UnitRef := .core x.die x.row x.col x.core
  let shadow : UnitRef := .core x.die x.row x.shadowCol x.shadow
  match x.result with
  | none => s
  | some (pa, sa, ps) =>
    let s := s.clearSuspect x
    if x.single then
      if pa then (s.transient.markUnit core 4 0x34).repairEvent 3 4 0x34 place 0
      else s.retireColumn x.die x.col 4 0x35
    else if pa && sa then ((s.transient.markUnit core 4 0x34).markUnit shadow 4 0x34).repairEvent 3 4 0x34 place 0
    else if sa then s.condemn x.die x.row x.col x.core 4 0x34
    else if pa then (s.condemn x.die x.row x.shadowCol x.shadow 4 0x34).repairEvent 3 4 0x34 place 0
    else if ps then
      let a := s.carrier x
      let s := (s.setCondemned x.die x.row x.col a).repairEvent 2 4 0x35 (placeCore x.die x.row x.col a) 0
      let key := clusterKey x.die x.row x.col
      if x.core < 64 then ((s.setCluster key ((s.effCluster key).release x.logical)).bumpGeneration).repairEvent 1 4 0x35 place 0
      else match s.substitute x.die x.row x.col x.logical none with
        | some s => s.repairEvent 1 4 0x35 (placeCore x.die x.row x.col a) 0
        | none => s.retireColumn x.die x.col 4 0x35
    else s.retireColumn x.die x.col 4 0x35

/-- Suspects in physical order: die, row, column, core (Table 12.7). -/
def insertSuspect (x : Suspect) : List Suspect → List Suspect
  | [] => [x]
  | y :: t => if clusterKey x.die x.row x.col * 68 + x.core ≤ clusterKey y.die y.row y.col * 68 + y.core then x :: y :: t else y :: insertSuspect x t

/-- The repairs the decision makes at once: verdicts of the deal's double audits, then substitutions of its new suspects in physical order (R344, R350). -/
def State.decisionRepairs (s : State) : State :=
  let s := (s.repair.suspects.filter (·.result.isSome)).foldl State.verdict s
  let s := ((s.repair.suspects.filter (·.fresh)).foldr insertSuspect []).foldl State.substituteSuspect s
  s.watch

/-- Suspects whose double audit will not run wait for the next BIST (R346). -/
def State.suspectsToBist (s : State) : State :=
  { s with repair := { s.repair with suspects := s.repair.suspects.map (fun x => { x with awaitBist := true }) } }

/-- Outcome of one check (R348): a pass is transient and marks the unit; a failure brings the repair. -/
def State.checkOutcome (s : State) (k : Check) (pass : Bool) : State :=
  if pass then (s.transient.markUnit k.unit k.rank k.detail).repairEvent 3 k.rank k.detail (unitPlace k.unit) 0
  else s.repairUnit k.unit k.rank k.detail

end Sys2Proof.Machine
end

