-- ==== Sys2Proof/Machine/Settle.lean ====
section
/-!
DEFINITION. Machine/Settle.lean: the outcome of a deal at its decision: folds, commit, accounting, misdeal and what becomes of its sheet (R14 to R17, R78 to R85, R105, R106, R257 to R261, R300, R349 to R356, R388 to R390).
-/
namespace Sys2Proof.Machine

/-! ## Fold causes (R81, R82, R257 to R261) -/

/-- The owner set of the page that holds `pa`, united over pins (R256). -/
def ownersAt (pins : List Pin) (pa : Nat) : List Owner :=
  ((pins.filter (fun p => decide (p.base ≤ pa) && decide (pa < p.base + p.size))).flatMap (·.owners)).dedup

/-- The lower of a fold cause already met and a new one (R261). -/
def lowerCause (old : Option Nat) (c : Nat) : Option Nat := match old with | none => some c | some o => some (min o c)

/-- A fold cause falls on a seat's entry. -/
def Plan.foldSeat (p : Plan) (seat c : Nat) : Plan :=
  { p with entries := p.entries.map (fun e => if e.seat = seat && !e.void then { e with cause := lowerCause e.cause c } else e) }

/-- A fold cause falls on a slot (R82). -/
def Plan.foldSlot (p : Plan) (slot c : Nat) : Plan :=
  if p.slotFolds.any (·.1 = slot) then { p with slotFolds := p.slotFolds.map (fun x => if x.1 = slot then (slot, min x.2 c) else x) }
  else { p with slotFolds := p.slotFolds ++ [(slot, c)] }

/-- The completion word of an entry (R56): captured at the end of the drain window, else read now; none when poisoned. -/
def State.completionWord (s : State) (p : Plan) (e : Entry) : Option Nat :=
  match s.dealer.completions.bind (aget e.seat) with
  | some w => w
  | none =>
    match p.windows.find? (fun w => w.kind = 3 && w.slot = e.slot && w.pos = e.pos) with
    | none => some 0
    | some w =>
      let r := readPieces s w.pages (w.va + Config.completionOffset e.pos) 8
      if r.2 then none else some (leAll r.1)

/-- A seat of deal `d` folds with cause `c`, and a group member says so (R387, R388). -/
def State.foldFound (s : State) (p : Plan) (d seat c : Nat) : Plan × State :=
  (p.foldSeat seat c, s.sendNotice 3 d (seat + 2 ^ 32 * c))

/-- Judge one line that deal `d` met by who owns its page: fold a seat, fold a slot, or misdeal the deal (R257, R259). -/
def State.judgeOwner (s : State) (p : Plan) (d pa seatCause detail : Nat) : Plan × State :=
  match ownersAt p.pins pa with
  -- a write found late on a page with no pin of the deal is no violation (R257)
  | [] => (p, s)
  | [.seat i] => s.foldFound p d i seatCause
  | [.slot i] =>
    if detail = 0x40 then (p.foldSlot i 0x20, s.sendNotice 3 d (i + 2 ^ 17 + 2 ^ 32 * 0x20))
    else (p, s.addCauseAt d 8 detail i 0 (placeDie (homeDie pa)))
  | _ => (p, s.addCauseAt d 8 detail 0xFFF 0 (placeDie (homeDie pa)))

/-- Judge the poison and the foreign writes of deal `d` that have not been judged yet. -/
def State.judgeReads (s : State) (p : Plan) (d : Nat) : Plan × State :=
  let reads := s.dealer.poisonReads.filter (fun x => x.deal = d && !x.judged)
  let writes := s.dealer.foreignWrites.filter (fun x => x.deal = d && !x.judged)
  let s : State := { s with dealer := { s.dealer with
    poisonReads := s.dealer.poisonReads.map (fun x => if x.deal = d then { x with judged := true } else x)
    foreignWrites := s.dealer.foreignWrites.map (fun x => if x.deal = d then { x with judged := true } else x) } }
  let (p, s) := reads.foldl (fun (acc : Plan × State) x => acc.2.judgeOwner acc.1 d x.pa 0x16 0x40) (p, s)
  writes.foldl (fun (acc : Plan × State) x => acc.2.judgeOwner acc.1 d x.pa 0x15 0x41) (p, s)

/-- Judge the completion words: a poisoned one folds its seat POISON, one with a reserved bit BAD_COMPLETION (Table 3.3). -/
def State.judgeWords (s : State) (p : Plan) : Plan × State :=
  p.entries.foldl (fun (acc : Plan × State) e =>
    if e.void || e.cause.isSome then acc else
    match acc.2.completionWord acc.1 e with
    | none => acc.2.foldFound acc.1 s.cad.deal e.seat 0x16
    | some w => if w / 2 ^ 17 ≠ 0 then acc.2.foldFound acc.1 s.cad.deal e.seat 0x17 else acc) (p, s)

/-- What has been met so far is judged against the running deal, so that a group's other members hear of it before the decision (Table 2.1, R387). -/
def State.judgeRunning (s : State) : State :=
  match s.dealer.running with
  | none => s
  | some p =>
    let (p, s) := s.judgeReads p s.cad.deal
    { s with dealer := { s.dealer with running := some p } }

/-- A waiting HOLD folds its seat at the decision of `d`, unless a held re-deal names the seat (R17, R58). -/
def State.holdDue (s : State) (d : Nat) (h : PendingHold) : Bool :=
  h.deal.any (fun x => decide (x ≤ d)) && !planNames s.dealer.redeal h.seat

/-- Everything the gather window finds that can fold or misdeal the running deal (Table 2.1): completion words where the drain end has not judged them, poison, foreign writes, holds. -/
def State.gather (s : State) (p : Plan) : Plan × State :=
  let d := s.cad.deal
  let (p, s) := if s.cad.drained then (p, s) else s.judgeWords p
  let (p, s) := s.judgeReads p d
  ((s.dealer.holds.filter (s.holdDue d)).foldl (fun p h => p.foldSeat h.seat 0x18) p, s)

/-- FOLD records of the group for the deal: folds and voids of every member (R388). -/
def State.groupFolds (s : State) (p : Plan) : Plan :=
  (s.group.records.filter (fun r => r.kind = 3 && r.note.deal = s.cad.deal)).foldl (fun p r =>
    let a := r.note.arg.toNat
    let c := bits a 32 16
    if bit a 17 then p.foldSlot (a % 4096) c
    else if c = 0 then { p with entries := p.entries.map (fun e => if e.seat = a % 2 ^ 17 then { e with void := true } else e) }
    else p.foldSeat (a % 2 ^ 17) c) p

/-! ## Accounting (R84, R85) -/

/-- Charge amounts to an account and set its last update; the six counters wrap at 64 bits. -/
def Acct.charge (x : Acct) (c : List Nat) (deal : Nat) : Acct :=
  let add := fun (o i : Nat) => (o + c.getD i 0) % 2 ^ 64
  { x with coreTricks := add x.coreTricks 0, hbm := add x.hbm 1, vault := add x.vault 2,
           pcie := (add x.pcie 3 + x.pciePending) % 2 ^ 64, pciePending := 0,
           deck := add x.deck 4, energy := add x.energy 5, lastDeal := deal }

/-- Clear subindices 1 to 6 where a clear waits (Table 3.13); a clear is an update, so sub 0x07 moves (R86). -/
def Acct.applyClear (x : Acct) (deal : Nat) : Acct :=
  if x.clearPending then { x with coreTricks := 0, hbm := 0, vault := 0, pcie := 0, deck := 0, energy := 0, clearPending := false, lastDeal := deal } else x

/-- Shares of one committed entry: core-tricks, HBM, vault, PCIe, Deck, energy (R85). -/
def State.shares (s : State) (f : Form) (committed : List Entry) (deal : Nat) (e : Entry) : List Nat :=
  let cost := fun (e : Entry) => match f.slots[e.slot]? with | some t => t.cost | none => 0
  let total := (committed.map cost).sum
  let inSlot := (committed.filter (·.slot = e.slot)).length
  let prop := fun q => if total = 0 then 0 else q * cost e / total
  [cost e, 65536 * e.descs + (aget e.slot s.dealer.slotHbm).getD 0 / inSlot, prop s.dealer.vaultBytes, 0, prop s.dealer.deckBytes,
   Config.energy deal (e.slot + 1) / inSlot + prop (Config.energy deal 0)]

/-- What the house counters take: every remainder, and the whole of what no committed seat shares (R85). -/
def State.houseShares (s : State) (f : Option Form) (committed : List Entry) (deal : Nat) : List Nat :=
  let sh := match f with | some f => committed.map (s.shares f committed deal) | none => []
  let sum := fun i => (sh.map (·.getD i 0)).sum
  let slots := match f with | some f => List.range f.slots.length | none => []
  let slotHbm := (s.dealer.slotHbm.map (·.2)).sum
  let own := (committed.map (fun e => 65536 * e.descs)).sum
  let energy := (slots.map (fun i => Config.energy deal (i + 1))).sum + Config.energy deal 0
  [0, slotHbm + own - sum 1, s.dealer.vaultBytes - sum 2, 0, s.dealer.deckBytes - sum 4, energy - sum 5]

/-- Add to the house counters, clear them where a clear waits (OD 0x2200.17), and move their marker, which the serving counters share (R464). -/
def State.chargeHouse (s : State) (c : List Nat) : State :=
  let sum := (List.range 6).map (fun i => (s.dealer.house.getD i 0 + c.getD i 0) % 2 ^ 64)
  { s with dealer := { s.dealer with
      house := if s.dealer.houseClear then [0, 0, 0, 0, 0, 0] else sum
      houseDeal := s.cad.deal, houseClear := false } }

/-- Apply waiting clears of account counters in a settle window. -/
def State.applyClears (s : State) : State := { s with accts := s.accts.map (fun x => (x.1, x.2.applyClear s.cad.deal)) }

/-- PCIe bytes of loose DMA reach sub 0x04 in the settle window. -/
def State.applyPcie (s : State) : State :=
  { s with accts := s.accts.map (fun x => (x.1, if x.2.pciePending = 0 then x.2 else x.2.charge [] s.cad.deal)) }

/-! ## Commit (R79, Table 3.12) -/

/-- Table 3.12, updates 1 to 6, and TAINT (R213). -/
def State.committedSeat (s : State) (f : Form) (e : Entry) (word : Nat) (sh : List Nat) (taint : Bool) : Seat :=
  match f.slots[e.slot]? with
  | none => s.seat e.seat
  | some sl =>
    let t := commitPlan (s.seat e.seat) sl.cls (word % 65536) (bit word 16)
    { t with
      lastForm := f.id, lastSlot := e.slot, lastDeal := s.cad.deal, residency := sl.region, deals := (t.deals + 1) % 2 ^ 32
      sCoreTricks := (t.sCoreTricks + sh.getD 0 0) % 2 ^ 64, sHbm := (t.sHbm + sh.getD 1 0) % 2 ^ 64
      sVault := (t.sVault + sh.getD 2 0) % 2 ^ 64, sEnergy := (t.sEnergy + sh.getD 5 0) % 2 ^ 64
      taint := t.taint || taint }

/-- Update 7: hand the bank the deal wrote to the seat's session (R308), with the pages of its OUT windows (R310); a session closed or faulted since the Ante takes none (log entry 102). The hand-off time is the end of the settle window, 64 tricks on. -/
def State.handOff (s : State) (p : Plan) (f : Form) (e : Entry) (before : Seat) : State :=
  let sl := match f.slots[e.slot]? with | some t => t.cls | none => 0
  let key := 64 * before.videoEngine + before.videoSession
  let v := s.session before.videoEngine before.videoSession
  if sl ≠ 4 || !before.videoEn || (v.state ≠ 1 && v.state ≠ 2) then s else
  let bank := bankSize f e.slot
  let va := before.out + boolNat before.osel * bank
  let pages := (p.windows.filter (fun w => w.slot = e.slot && w.pos = e.pos && w.seat = e.seat && w.kind = 1 && decide (va ≤ w.va) && decide (w.va < va + bank))).flatMap (·.pages)
  let pins := pages.foldl (fun l q => addPin q.pa q.size (.seat e.seat) l) []
  let h : Handoff := { deal := s.cad.deal, seat := e.seat, tag := before.tag, va, len := v.frames * v.frameStride, pins, read := 0, ps := s.cad.startPs + 64000 * s.cad.period }
  { s with video := { s.video with sessions := aset key { v with handoffs := v.handoffs ++ [h] } s.video.sessions } }

def State.queueMark (s : State) (r : EvReq) : State := { s with dealer := { s.dealer with toPost := s.dealer.toPost ++ [r] } }

/-- Commit one entry: updates, charges, hand-off, and its own events (R79, R83, R84, R213). -/
def State.commitEntry (s : State) (p : Plan) (f : Form) (committed : List Entry) (e : Entry) : State :=
  let before := s.seat e.seat
  let word := (s.completionWord p e).getD 0
  let sh := s.shares f committed s.cad.deal e
  let taint := s.dealer.accSat.contains e.slot
  let after := s.committedSeat f e word sh taint
  let s := s.setSeat e.seat after
  let s := s.setAcct before.account ((s.acct before.account).charge sh s.cad.deal)
  let s := s.handOff p f e before
  let s : State := if after.state = 4 then
      s.queueMark { ev 0x01 0x01 s.cad.deal with subject := subjSeat e.seat, w0 := subjSeat e.seat, w2 := before.tag, acct := some before.account }
    else s
  if taint then s.queueMark { ev 0x0B 0xD0 s.cad.deal with subject := subjSeat e.seat, w0 := subjSeat e.seat, w1 := e.slot, w2 := before.tag, acct := some before.account }
  else s

/-- Fold one seat (R81). -/
def State.foldEntry (s : State) (e : Entry) (c : Nat) : State :=
  let t := s.seat e.seat
  let s := s.setSeat e.seat { t with state := 3, heldCause := c, folds := (t.folds + 1) % 2 ^ 32 }
  s.queueMark { ev 0x02 (c % 256) s.cad.deal with subject := subjSeat e.seat, w0 := subjSeat e.seat, w1 := e.slot, w2 := t.tag, w3 := c, acct := some t.account }

/-- A seat of a folded slot, or one that a misdeal leaves, returns to SEATED unchanged (R82, Table 3.5). -/
def State.reseat (s : State) (i : Nat) : State :=
  if (s.seat i).state = 2 then s.setSeat i { s.seat i with state := 1 } else s

/-- HOLDs that this decision settled complete OK (R58); one whose seat is not folded by the deal goes HELD. -/
def State.settleHolds (s : State) (d : Nat) : State :=
  let due := s.dealer.holds.filter (s.holdDue d)
  let s : State := { s with dealer := { s.dealer with holds := s.dealer.holds.filter (fun h => !s.holdDue d h) } }
  due.foldl (fun s h =>
    let s : State := if (s.seat h.seat).state = 1 || (s.seat h.seat).state = 2 then s.holdSeat h.seat 0x18 else s
    s.complete h.ticket (if (s.seat h.seat).state = 3 then 0 else 1)) s

/-- KV windows narrowed to the KV_LEN a commit left (R80, R94). -/
def State.narrowed (s : State) (formId : Nat) (w : Window) : Window :=
  match w.page with
  | some g => { w with write := w.write && decide ((s.seat w.seat).kvLen / Config.tokensPerPage formId w.slot ≤ g) }
  | none => w

/-- A position's windows put in its place in resolution order (R255). -/
def placeWindows (ws : List Window) (slot pos : Nat) (new : List Window) : List Window :=
  let before := fun (w : Window) => decide (w.slot < slot) || (w.slot = slot && decide (w.pos < pos))
  ws.filter before ++ new ++ ws.filter (fun w => !before w && !(w.slot = slot && w.pos = pos))

/-- The position has windows on a KV ring, whose window may have moved with KV_LEN. -/
def Plan.onRing (p : Plan) (e : Entry) : Bool := p.windows.any (fun w => w.slot = e.slot && w.pos = e.pos && w.ring)

/-- One entry of deal `d` tested again (R69): one that now fits no longer is void; one that was void at the cutoff and is admitted now runs its own steps of the Ante, and so does one on a KV ring, for the window that the committed KV_LEN gives (R239). -/
def State.retestEntry (s : State) (f : Form) (d : Nat) (p : Plan) (e : Entry) : Plan × State :=
  let put := fun (p : Plan) (e' : Entry) => ({ p with entries := p.entries.map (fun x => if x = e then e' else x) } : Plan)
  if e.left || e.cause.isSome then (p, s)
  else if State.entryVoid f e.slot (s.seat e.seat) then (put p { e with void := true }, s)
  else if !e.void && !p.onRing e then (p, s)
  else
    let (e', r, s) := anteEntry s f d { e with void := false }
    ({ put p e' with windows := placeWindows p.windows e.slot e.pos r.windows, pins := mergePins p.pins r.pins }, s)

/-- Test the next deal's entries again against the seats as they stand (R69), and narrow its KV windows. -/
def State.retest (s : State) : State :=
  match s.dealer.selected with
  | none => s
  | some p =>
    match p.form s with
    | none => s
    | some f =>
      let (p, s) := p.entries.foldl (fun (acc : Plan × State) e => acc.2.retestEntry f (s.cad.deal + 1) acc.1 e) (p, s)
      { s with dealer := { s.dealer with selected := some { p with windows := p.windows.map (s.narrowed f.id) } } }

/-- The commit of the running deal (R79). Entries of a folded slot, whose seats return to SEATED, are counted as folded in the COMMIT event's W2 (DESIGN CHOICE, log entry 94). -/
def State.commitDeal (s : State) (p : Plan) : State :=
  let d := s.cad.deal
  match p.form s with
  | none =>
    -- an idle deal commits nothing but its number (R65)
    let s := s.queueMark { ev 0x01 0 d with w1 := 2 ^ 17 * sourceCode .idle }
    let s := (s.applyPcie.chargeHouse (s.houseShares none [] d)).applyClears
    { s with dealer := { s.dealer with
        idleDeals := s.dealer.idleDeals + 1
        repairIdles := if p.repairIdle then s.dealer.repairIdles + 1 else s.dealer.repairIdles
        lateCount := s.dealer.lateCount + s.dealer.latePending, latePending := 0 } }
  | some f =>
    let live := p.entries.filter (!·.void)
    let folded := live.filter (·.cause.isSome)
    let slotted := live.filter (fun e => e.cause.isNone && p.slotFolds.any (·.1 = e.slot))
    let committed := live.filter (fun e => e.cause.isNone && !p.slotFolds.any (·.1 = e.slot))
    let voids := p.entries.length - live.length
    let house := s.houseShares (some f) committed d
    let s := s.queueMark { ev 0x01 0 d with w0 := p.tag, w1 := committed.length % 2 ^ 17 + 2 ^ 17 * sourceCode p.source, w2 := (folded.length + slotted.length) % 2 ^ 17, w3 := voids % 2 ^ 17 }
    let s := folded.foldl (fun s e => s.foldEntry e (e.cause.getD 0)) s
    let s := slotted.foldl (fun s e => s.reseat e.seat) s
    let s := p.slotFolds.foldl (fun s x => s.queueMark { ev 0x02 (x.2 % 256) d with subject := subjSlot x.1, w0 := subjSlot x.1, w1 := x.1, w3 := x.2 }) s
    let s := (p.entries.filter (·.void)).foldl (fun s e => s.reseat e.seat) s
    let s := committed.foldl (fun s e => s.commitEntry p f committed e) s
    let s := (s.applyPcie.chargeHouse house).applyClears
    let s : State := match p.owed with
      | some target => s.sheetCpl 0x01 p.tag target voids 0xFFFF
      | none => s
    { s with dealer := { s.dealer with
        committedDeals := s.dealer.committedDeals + 1
        foldCount := s.dealer.foldCount + folded.length + p.slotFolds.length
        voidCount := s.dealer.voidCount + voids
        lateCount := s.dealer.lateCount + s.dealer.latePending, latePending := 0 } }

/-! ## Misdeal (R16, R349 to R356) -/

/-- R16: `a` is carried before `b`. -/
def causeBefore (a b : Cause) : Bool :=
  a.rank < b.rank || (a.rank = b.rank && (a.detail < b.detail || (a.detail = b.detail && a.member < b.member)))

/-- The cause the MISDEAL event carries (R16); the earliest found among equals. -/
def leadCause : List Cause → Option Cause
  | [] => none
  | c :: t => match leadCause t with
    | none => some c
    | some b => if causeBefore b c then some b else some c

/-- Causes in rank order, causes of one rank in order of detection (R466). -/
def byRank (cs : List Cause) : List Cause := (List.range 10).flatMap (fun r => cs.filter (·.rank = r))

def Cause.event (c : Cause) (p : Plan) : EvReq :=
  { ev 0x03 c.detail c.deal with cause := c.rank, remote := c.remote, member := c.member, place := c.place, w1 := c.place, w2 := p.formId.getD 0, w3 := p.tag, toAll := true }

/-- MISDEAL, then a record of each cause it does not carry (R16, R466). -/
def misdealEvents (p : Plan) (cs : List Cause) : List EvReq :=
  match leadCause cs with
  | none => []
  | some c => c.event p :: ((byRank cs).erase c).map (fun x => { x.event p with logOnly := true, toAll := false })

/-- DISPLACED for every accepted sheet of a target (R351). -/
def State.displace (s : State) (target : Nat) : State :=
  let out := s.dealer.sheets.filter (·.target = target)
  let s : State := { s with dealer := { s.dealer with sheets := s.dealer.sheets.filter (·.target ≠ target) } }
  out.foldl (fun s x => s.sheetDone x 0x0C) s

/-- Discard the Ante of the next deal: its sheet receives DISPLACED; a re-deal already held stays held (R76, R349). -/
def State.discardSelected (s : State) : State :=
  let s : State := match s.dealer.selected with
    | some q => match q.owed, q.redealOf with
      | some target, none => s.sheetCpl 0x0C q.tag target 0 0xFFFF
      | _, _ => s
    | none => s
  { s with dealer := { s.dealer with selected := none } }

/-- A final status to the sheet of a plan that is not dealt again. -/
def State.finishSheet (s : State) (p : Plan) (status : Nat) : State :=
  match p.owed with
  | some target => s.sheetCpl status p.tag target 0 0xFFFF
  | none => s

/-- The held re-deal is dropped: its sheet receives a status, its pins go, its suspects wait for BIST, and HOLDs that waited on it take effect (R346, R352). -/
def State.dropRedeal (s : State) (status : Nat) : State :=
  match s.dealer.redeal with
  | none => s
  | some p =>
    let s : State := { s with dealer := { s.dealer with redeal := none } }
    let s := (s.finishSheet p status).suspectsToBist
    let named := s.dealer.holds.filter (fun h => p.names h.seat)
    let s : State := { s with dealer := { s.dealer with holds := s.dealer.holds.filter (fun h => !p.names h.seat) } }
    named.foldl (fun s h => (s.holdSeat h.seat 0x18).complete h.ticket 0) s

/-- The successor a short-deck fill is dealt on: certified, naming the form as predecessor, lowest FORM_ID (R353). -/
def State.successor (s : State) (formId : Nat) : Option Form :=
  s.forms.find? (fun f => f.predecessor = some formId && f.mode = 0 && s.certified f && !f.revoked && f.unload = [])

/-- Seats a successor slot keeps: highest PRIORITY first, equal ones in order of placement (R353). -/
def State.keepByPriority (s : State) (cap : Nat) (es : List Entry) : List Entry :=
  let ranked := (List.range 8).reverse.flatMap (fun p => es.filter (fun e => (s.seat e.seat).priority = p))
  let kept := ranked.take cap
  es.filter (fun e => kept.contains e)

/-- Entries of a short-deck fill: kept ones in the successor's slots, the rest void (R353). -/
def State.fillEntries (s : State) (old new : Form) (p : Plan) : List Entry :=
  (List.range old.slots.length).flatMap (fun i =>
    let es := p.entries.filter (·.slot = i)
    match old.slots[i]?, new.slots[i]? with
    | some a, some b =>
      let kept := if a.cls = b.cls then s.keepByPriority b.cap (es.filter (!·.void)) else []
      es.map (fun e => { e with void := !kept.contains e, cause := none, descs := 0, left := !kept.contains e })
    | _, _ => es.map (fun e => { e with void := true, cause := none, descs := 0, left := true }))

/-- Once every repair is made, the re-deal is barred when its form is no longer certified: a short-deck fill, or BAD_FORM; a group member sends NO_REDEAL (R352, R353, R390). -/
def State.judgeRedeal (s : State) : State :=
  match s.dealer.redeal with
  | none => s
  | some p =>
    match p.form s with
    | none => s.dropRedeal 0x06
    | some f =>
      if s.certified f && !f.revoked then s else
      if s.inGroup && f.mode ≠ 0 then (s.sendNotice 4 (s.cad.deal + 1) 1).dropRedeal 0x06
      else match (if f.revoked then none else s.successor f.id) with
        | none => s.dropRedeal 0x06
        | some g =>
          let fill := { p with formId := some g.id, entries := s.fillEntries f g p, windows := [], pins := [], slotFolds := [], shortFill := true, lastRenege := [] }
          let s := s.suspectsToBist
          let at2 := max s.dealer.redealAt (if s.cad.decided then s.cad.deal + 2 else s.cad.deal + 1)
          State.displace { s with dealer := { s.dealer with redeal := some fill, redealAt := at2 } } at2

/-- The re-deal is judged once no check or re-read is under way (R351). -/
def State.judgeWhenDone (s : State) : State := if s.dealer.checks.any (·.running) || s.dealer.rereads ≠ [] then s else s.judgeRedeal

/-- The checks of deal `d`'s defects start at its decision (R348, R350). -/
def State.startChecks (s : State) (d : Nat) : State :=
  { s with dealer := { s.dealer with checks := s.dealer.checks.map (fun k => if k.deal = d then { k with running := true } else k) } }

/-- Mark a vault block damaged and its entry DAMAGED; the host receives VAULT (R298, R300). -/
def State.damageBlock (s : State) (image die block detail : Nat) : State :=
  match s.imageOf image with
  | none => s
  | some (i, e) =>
    let e' := { e with state := 3, damaged := if e.damaged.contains (die, block) then e.damaged else e.damaged ++ [(die, block)] }
    let s : State := { s with nv := { s.nv with images := aset i e' s.nv.images } }
    s.queuePost { ev 0x0F detail s.curDeal with place := placeDie die, w1 := placeDie die, w2 := image, w3 := e.gen }

/-- The re-deal of a misdealt plan: seats at their last committed state, folds of R105, the lines R260 looks at again. -/
def redealPlan (p : Plan) (d : Nat) (cs : List Cause) (pas : List Nat) (fails : List VaultFail) : Plan :=
  let reneges := (cs.filter (fun c => c.rank = 6 && !c.remote)).map (fun c => (c.detail, c.slot))
  let repeated := (reneges.filter (fun r => r.2 ≠ 0xFFF && p.lastRenege.contains r)).map (·.2)
  let shared := cs.any (fun c => c.rank = 8 && c.detail = 0x40)
  -- folds of the Ante stand, and those that masked lanes from the deal's first trick (R74, R260)
  let anteOnly := p.entries.map (fun e => match e.cause with
    | some c => if c ≤ 0x14 || !p.lanes.contains (e.slot, e.pos) then e else { e with cause := none }
    | none => e)
  let lead := match leadCause cs with | some c => c.rank | none => 0
  let q : Plan := { p with
    entries := anteOnly, slotFolds := p.slotFolds.filter (fun x => p.deadSlots.contains x.1), redealOf := some d, lastRenege := reneges
    streak := if 3 ≤ lead && lead ≤ 5 then p.streak + 1 else 0
    poisonPages := if shared then pas else []
    vaultFailed := fails.map (fun v => (v.image, v.die, v.block)) }
  repeated.foldl (fun q i => q.foldSlot i 0x21) q

/-- An unattributable renege repeated in a re-deal revokes the form (R106). -/
def revokes (p : Plan) (cs : List Cause) : Bool :=
  p.redealOf.isSome && cs.any (fun c => c.rank = 6 && c.slot = 0xFFF && !c.remote && p.lastRenege.contains (c.detail, 0xFFF))

/-- Dealer-owned lines found poisoned, mirror lines among them, are rewritten (R260); the mirrors themselves are written at the re-deal's mark. -/
def State.rewriteDealerLines (s : State) (p : Plan) (pas : List Nat) : State :=
  (pas.filter (fun pa => (ownersAt p.pins pa).contains .dealer)).foldl State.clearPoison s

/-- What a misdealt deal wrote is undone: its lines hold what they held before it, poison among it (R14, R349). -/
def State.undoWrites (s : State) : State :=
  { s with
    mem := { s.mem with
      bytes := s.dealer.undo.foldl (fun c x => writeBytes c (64 * x.1) x.2.1) s.mem.bytes
      poison := s.dealer.undo.foldl (fun l x => if x.2.2 then sins x.1 l else sdel x.1 l) s.mem.poison }
    dealer := { s.dealer with undo := [] } }

/-- The misdeal of deal `d` run by plan `p` for causes `cs` (R349): events, the re-deal, the repairs that take effect at once, the checks that start. -/
def State.misdealDeal (s : State) (p : Plan) (d : Nat) (cs : List Cause) : State :=
  let pas := (s.dealer.poisonReads.filter (·.deal = d)).map (·.pa)
  let fails := s.dealer.vaultFails.filter (·.deal = d)
  let s : State := { s with dealer := { s.dealer with toPost := s.dealer.toPost ++ misdealEvents p cs, misdeals := s.dealer.misdeals + 1, completions := none } }
  let s := s.discardSelected
  let s := p.entries.foldl (fun s e => s.reseat e.seat) s
  let s := s.undoWrites.rewriteDealerLines p pas
  -- clears of account counters wait for a settle window that commits (R84; log entry 93)
  let s := s.chargeHouse []
  -- a misdealt idle deal has no sheet to deal again; a re-deal already held stays held
  if p.formId.isNone then (s.decisionRepairs.startChecks d).judgeWhenDone else
  let r := redealPlan p d cs pas fails
  let repairIdle := if s.inGroup then cs.any (·.repair) else false
  let at1 := if repairIdle then d + 2 else d + 1
  let s : State := { s with dealer := { s.dealer with
    redeal := some r, redealAt := at1, lastPlan := some p
    rereads := s.dealer.rereads ++ fails
    vaultFails := s.dealer.vaultFails.filter (·.deal ≠ d) } }
  let s : State := if repairIdle then s.displace (d + 2) else s
  let s := s.decisionRepairs
  let s := s.startChecks d
  let s : State := if revokes p cs then
      let s : State := { s with forms := s.forms.map (fun f => if some f.id = p.formId then { f with revoked := true } else f) }
      State.dropRedeal { s with dealer := { s.dealer with forceIdle := d + 1 } } 0x06
    else s
  let s : State := if r.streak = 4 then { s with dealer := { s.dealer with bistHold := true, bistRunning := true } } else s
  -- a diverged group re-deals no sheet (R396)
  let s : State := if s.group.diverged then s.dropRedeal 0x0D else s
  s.judgeWhenDone

/-- Slack found in the deal raises the aging guard from D+2 (R358). -/
def State.agingAtDecision (s : State) : State :=
  let d := s.cad.deal
  let rise := match s.repair.leastMargin with
    | some m => if m < 1000 then ((1000 - m + 999) / 1000).toNat else 0
    | none => 0
  let rise := rise + (if s.repair.overrunSeen then 2 else 0)
  let s : State := { s with repair := { s.repair with lastMargin := s.repair.leastMargin.getD s.repair.lastMargin, leastMargin := none, overrunSeen := false } }
  s.raiseGuard rise (d + 2)

/-- The decision of the deal in progress: commit or misdeal (R26), from everything gathered for it. -/
def State.decideDeal (s : State) : State :=
  let d := s.cad.deal
  let p := s.dealer.running.getD (idlePlan false)
  let (p, s) := s.gather p
  let p := s.groupFolds p
  -- an abort that was assigned to a deal that turned out idle has no effect (R71)
  let cs := s.dealer.causes.filter (fun c => c.deal = d && (p.formId.isSome || c.rank ≠ 9))
  let s : State := { s with cad := { s.cad with decided := true }, dealer := { s.dealer with running := some p } }
  let s : State := if cs = [] then
      let s := s.commitDeal p
      let s : State := { s with dealer := { s.dealer with running := some { p with pins := [] }, lastOutcome := true, undo := [] } }
      ((s.startChecks d).settleHolds d).retest.decisionRepairs.judgeWhenDone
    else
      let s := s.misdealDeal p d cs
      { s with dealer := { s.dealer with running := some { p with pins := [] }, lastOutcome := false } }
  let s := s.agingAtDecision
  { s with dealer := { s.dealer with
      causes := s.dealer.causes.filter (·.deal ≠ d), poisonReads := s.dealer.poisonReads.filter (·.deal ≠ d)
      foreignWrites := s.dealer.foreignWrites.filter (·.deal ≠ d), completions := none
      slotHbm := [], vaultBytes := 0, deckBytes := 0 } }

/-- DEAL_DECISION: at T(L−64) of a deal the device deals, its outcome is fixed and the settle work runs (R25, R26). -/
def execDealDecision (s : State) : Out :=
  .next <| if s.dealing && !s.cad.decided && s.atLeft 64 then s.decideDeal else s

/-- One answer per running check, in order; a check with no answer stays under way. -/
def State.answerChecks : List Check → List Bool → State → State
  | k :: ks, b :: bs, s =>
    State.answerChecks ks bs (State.checkOutcome { s with dealer := { s.dealer with checks := s.dealer.checks.erase k } } k b)
  | _, _, s => s

/-- The deal that would have re-dealt a held misdeal is an idle deal (R300). -/
def State.idleRedeal (s : State) : State := { s with dealer := { s.dealer with forceIdle := max (s.cad.deal + 1) s.dealer.redealAt } }

/-- One answer per block re-read twice (R300): a pass leaves the block; a failure, or a block that failed in the deal this repeats too, damages it and bars the re-deal. -/
def State.answerRereads : List VaultFail → List Bool → State → State
  | v :: vs, b :: bs, s =>
    let s : State := { s with dealer := { s.dealer with rereads := s.dealer.rereads.erase v } }
    let before := match s.dealer.redeal with
      | some r => r.redealOf.isSome && s.dealer.lastPlan.any (fun p => p.vaultFailed.contains (v.image, v.die, v.block))
      | none => false
    let s : State := if b && !before then s else
      let s := s.damageBlock v.image v.die v.block v.detail
      let s : State := if s.inGroup then s.sendNotice 4 (s.cad.deal + 1) 2 else s
      s.idleRedeal.dropRedeal 0x06
    State.answerRereads vs bs s
  | _, _, s => s

/-- REPAIR_CHECK_DONE: the checks and re-reads that a decision started have ended; the repairs they bring are made and the re-deal is judged (R300, R348, R350). -/
def execRepairCheckDone (passes rereads : List Bool) (s : State) : Out :=
  .next <|
    let run := s.dealer.checks.filter (·.running)
    if run = [] && s.dealer.rereads = [] then s else
    let s := State.answerChecks run passes s
    let s := State.answerRereads s.dealer.rereads rereads s
    let s := s.watch
    s.judgeWhenDone

end Sys2Proof.Machine
end

