-- ==== Sys2Proof/Machine/Svis.lean ====
section
/-!
DEFINITION. Machine/Svis.lean: cores, queues, chips, regions and items in flight: how an SVIS instruction issues, waits, conflicts and completes (R120 to R166, R183, R184).
-/
namespace Sys2Proof.Machine

/-! ## Keys (logical coordinates, R8) -/

def cstoreKey (d row col : Nat) : Nat := (d * 64 + row) * 32 + col
def coreKey (d row col core : Nat) : Nat := cstoreKey d row col * 64 + core

def siteKey (x : Site) : Nat := coreKey x.die x.row x.col x.core
def siteCkey (x : Site) : Nat := cstoreKey x.die x.row x.col

def ckDie (ck : Nat) : Nat := ck / 2048
def ckRow (ck : Nat) : Nat := ck / 32 % 64
def ckCol (ck : Nat) : Nat := ck % 32

/-- A store of `n` bytes each of which is a free value (log entry 27). -/
def freeCells (fresh n : Nat) : List Host.Cell :=
  ((List.range n).map (fun i => (i, (Config.freeWord (fresh + i)).setWidth 8))).filter (fun x => x.2 ≠ 0)

/-- The store of a core or cluster since all stores were lost, the free values of each apart from those of every other (log entry 27). -/
def lostCore (lost : Option Nat) (k : Nat) : List Host.Cell := match lost with | some f => freeCells (f + 8192 * k) 8192 | none => []
def lostCluster (lost : Option Nat) (k : Nat) : List Host.Cell := match lost with | some f => freeCells (f + 8192 * 1048576 + 262144 * k) 262144 | none => []

def State.core (s : State) (k : Nat) : Core := (aget k s.svis.cores).getD { store := lostCore s.svis.lost k }
def State.setCore (s : State) (k : Nat) (c : Core) : State := { s with svis := { s.svis with cores := aset k c s.svis.cores } }
def State.cstore (s : State) (k : Nat) : Cluster := (aget k s.svis.clusters).getD { store := lostCluster s.svis.lost k }
def State.setCstore (s : State) (k : Nat) (c : Cluster) : State := { s with svis := { s.svis with clusters := aset k c s.svis.clusters } }

/-! ## Stores -/

/-- Bytes of a store: 8 KiB of a core, 256 KiB of a cluster (R167, R169). -/
def StoreRef.bytes : StoreRef → Nat
  | .core _ => 8192
  | .cluster _ => 262144

def StoreRef.lines (r : StoreRef) : Nat := r.bytes / 64

def State.storeCells (s : State) : StoreRef → List Host.Cell
  | .core k => (s.core k).store
  | .cluster k => (s.cstore k).store

def State.storeMarks (s : State) : StoreRef → List Nat
  | .core k => (s.core k).marks
  | .cluster k => (s.cstore k).marks

def State.storeRegions (s : State) : StoreRef → List StoreRegion
  | .core k => (s.core k).regions
  | .cluster k => (s.cstore k).regions

def State.setStore (s : State) (r : StoreRef) (cells : List Host.Cell) (marks : List Nat) : State :=
  match r with
  | .core k => s.setCore k { s.core k with store := cells, marks }
  | .cluster k => s.setCstore k { s.cstore k with store := cells, marks }

def State.setRegions (s : State) (r : StoreRef) (l : List StoreRegion) : State :=
  match r with
  | .core k => s.setCore k { s.core k with regions := l }
  | .cluster k => s.setCstore k { s.cstore k with regions := l }

/-- Lines that bytes [addr, addr + n) touch. -/
def lineRange (addr n : Nat) : List Nat := if n = 0 then [] else (List.range ((addr + n - 1) / 64 - addr / 64 + 1)).map (· + addr / 64)

/-- What a write leaves of a store's bytes and marks; bytes past the store's end are dropped. -/
def StoreWrite.apply (w : StoreWrite) (r : StoreRef) (x : List Host.Cell × List Nat) : List Host.Cell × List Nat :=
  let data := w.data.take (r.bytes - w.addr)
  (writeBytes x.1 w.addr data, (lineRange w.addr data.length).foldl (fun m l => if w.mark then sins l m else sdel l m) x.2)

/-- A store as the reads of queue `q` of core `k` see it: with the writes of that queue's earlier instructions (R121). -/
def State.view (s : State) (k q : Nat) (r : StoreRef) : List Host.Cell × List Nat :=
  ((s.svis.items.filter (fun i => i.core = k && i.queue = q)).flatMap (·.writes)).foldl
    (fun x w => if w.dsts.contains r then w.apply r x else x) (s.storeCells r, s.storeMarks r)

/-! ## Who may issue (R120, R123, R125) -/

def State.codeForm (s : State) : Option Form := s.dealer.running.bind (·.form s)

def State.openProgram (s : State) (id : Nat) : Option Program := s.svis.programs.find? (·.id = id)

def State.siteStream (s : State) (x : Site) : Option Stream :=
  match x.owner with
  | .deal slot => match s.codeForm with
    | some f => (f.native.streams[x.stream]?).filter (·.slot = slot)
    | none => none
  | .program id _ => match s.openProgram id with
    | some p => p.info.streams[x.stream]?
    | none => none

/-- R125. -/
def streamHas (t : Stream) (x : Site) : Bool :=
  t.dieMask.getLsbD x.die && t.rowLo ≤ x.row && x.row ≤ t.rowHi && t.colLo ≤ x.col && x.col ≤ t.colHi && t.coreMask.getLsbD x.core

/-- Logical columns of a die as the code of an owner may name them: none on a lost die or one outside the form's DIE_MASK, 30 on a short deck or where the form's SHORT_MASK says so (R13, R92, R171). -/
def State.columns (s : State) (o : CodeOwner) (die : Nat) : Nat :=
  let full := match s.deck die with | 0 => 32 | 1 => 30 | _ => 0
  match o, s.codeForm with
  | .deal _, some f => if !f.dieMask.getLsbD die then 0 else if f.shortMask.getLsbD die then min full 30 else full
  | _, _ => full

/-- An open window of the running form holds the die in the trick in progress (R114). -/
def State.inWindow (s : State) (f : Form) (die : Nat) : Bool :=
  f.wins.any (fun w => w.dieMask.getLsbD die && decide (w.start ≤ s.cad.trick) && decide (s.cad.trick < w.start + w.span))

/-- A deal-code stream issues in the deal tricks of a deal the device deals (R24), but on no open window's die in its span (R114), in a Deepen form from trick STAGE_OFFSET on (R385); an open program's while it runs in its window (R115) and has met no fault. -/
def State.mayIssue (s : State) (x : Site) : Bool :=
  x.die < 8 && x.row < 64 && decide (x.col < s.columns x.owner x.die) && x.core < 64 &&
  (match s.siteStream x with
    | none => false
    | some t => streamHas t x && (match x.owner with
      | .deal _ => s.dealing && !t.region && !s.dealer.halted && (match s.left with | some n => decide (257 ≤ n) | none => false)
          && (match s.codeForm with | some f => !s.inWindow f x.die && (f.mode ≠ 2 || decide (f.stageOffset ≤ s.cad.trick)) | none => true)
      | .program id r => t.region = r && (match s.openProgram id, s.svis.openWin with
        | some p, some w => p.start.isSome && p.fault.isNone && w.programs && w.dieMask.getLsbD x.die
        | _, _ => false)))

/-! ## Streams and their loops (R128 to R130) -/

/-- The cycle of the deal that the base of a stream's top-level frame is (R128). -/
def State.streamBase (s : State) (x : Site) : Nat :=
  match x.owner with
  | .deal _ => 0
  | .program id _ => match s.openProgram id with | some p => 64 * p.start.getD 0 | none => 0

/-- Words of the stream a core stands in. -/
def State.streamWords (s : State) (x : Site) : Nat := match s.siteStream x with | some t => t.words | none => 0

/-- Where the core stands in the stream; it has not begun when nothing is recorded. -/
def State.streamPos (s : State) (x : Site) : StreamPos :=
  match (s.core (siteKey x)).streams.find? (fun p => p.stream = x.stream && p.owner = x.owner) with
  | some p => p
  | none => { stream := x.stream, owner := x.owner }

def State.setStreamPos (s : State) (x : Site) (p : StreamPos) : State :=
  let c := s.core (siteKey x)
  s.setCore (siteKey x) { c with streams := c.streams.filter (fun q => !(q.stream = x.stream && q.owner = x.owner)) ++ [p] }

/-- A word's place in program order, every iteration counted: the REPEATs that hold it with their iterations, then the word (R130). -/
def sitePlace (x : Site) : List Nat := x.path.flatMap (fun p => [p.1, p.2]) ++ [x.word]

/-- `a` stands before `b` in program order. -/
def placeLt : List Nat → List Nat → Bool
  | [], [] => false
  | [], _ :: _ => true
  | _ :: _, [] => false
  | a :: t, b :: u => decide (a < b) || (a = b && placeLt t u)

/-- The frame that the REPEAT at `path`, `word` has opened. -/
def StreamPos.loop (p : StreamPos) (path : List (Nat × Nat)) (word : Nat) : Option Loop :=
  p.loops.find? (fun l => l.path = path && l.word = word)

/-- The frame of a word: its base cycle in the word's iteration, and the words it holds (R128, R129); none where the iteration has not begun. -/
def StreamPos.frame (p : StreamPos) (x : Site) (base words : Nat) : Option (Nat × Nat × Nat) :=
  match x.path.getLast? with
  | none => some (base, 0, words)
  | some (w, i) => match p.loop x.path.dropLast w with
    | some l => if i ≤ l.iter && i < l.count then some (l.base + i * l.period, w + 1, w + 1 + l.body) else none
    | none => none

/-- The word lies in the body of a REPEAT of its own frame: it is that frame's word. -/
def StreamPos.inner (p : StreamPos) (x : Site) : Bool :=
  p.loops.any (fun l => l.path = x.path && decide (l.word < x.word) && decide (x.word ≤ l.word + l.body))

/-- Words an instruction takes with what it holds: its own, and the body of a REPEAT, which nests at most four deep (R130, R132). -/
def wordSpan (x : Site) (op : SvisOp) (own : Nat) : Option Nat :=
  match op with
  | .repeatF o => if x.path.length < 4 then some (own + o.body.toNat) else none
  | _ => some own

/-- The base cycle of the word's frame, where the word with what it holds lies inside the frame. -/
def StreamPos.baseOf (p : StreamPos) (x : Site) (op : SvisOp) (own base words : Nat) : Option Nat :=
  match p.frame x base words, wordSpan x op own with
  | some (b, lo, hi), some n => if lo ≤ x.word && x.word + n ≤ hi && !p.inner x then some b else none
  | _, _ => none

/-- The word stands behind the last instruction of its queue in program order; in region mode, where words are handed over in program order, behind every one (R130, R162). -/
def StreamPos.follows (p : StreamPos) (x : Site) (q : Nat) (region : Bool) : Bool :=
  p.last.all (fun l => (!region && l.1 ≠ q) || placeLt l.2 (sitePlace x))

/-- Words the stream issues at a core in all, every iteration counted, as far as its REPEATs have issued. -/
def StreamPos.total (p : StreamPos) (words : Nat) : Int := (words : Int) + (p.loops.map (fun l => ((l.count * l.body : Nat) : Int) - (l.body : Int))).sum

/-! ## Address registers and chips (R151 to R156) -/

/-- The core as an instruction issuing at `cycle` sees it: register writes and posts of earlier cycles have taken place (R152, R154). -/
def Core.settle (c : Core) (cycle : Nat) : Core :=
  let regs := (c.regsLate.filter (fun r => r.2.1 < cycle)).foldl (fun l r => aset r.1 r.2.2 l) c.regs
  let chips := (c.posts.filter (fun p => p.2 < cycle)).foldl (fun l p => aset p.1 ((aget p.1 l).getD 0 + 1) l) c.chips
  { c with regs, regsLate := c.regsLate.filter (fun r => cycle ≤ r.2.1), chips, posts := c.posts.filter (fun p => cycle ≤ p.2) }

/-- A[i]; A0 reads zero (R151). -/
def Core.reg (c : Core) (i : Nat) : Nat := if i = 0 then 0 else (aget i c.regs).getD 0

def Core.chip (c : Core) (i : Nat) : Nat := (aget i c.chips).getD 0

/-- The chip's count with every post made, seen or not yet. -/
def Core.chipTotal (c : Core) (i : Nat) : Nat := c.chip i + (c.posts.filter (fun p => p.1 = i)).length

/-- Write a register at a cycle, wrapping at 48 bits; A0 is never written. -/
def Core.writeReg (c : Core) (i cycle v : Nat) : Core :=
  if i = 0 then c else { c with regsLate := c.regsLate ++ [(i, cycle, v % 2 ^ 48)] }

/-- The latest value of a register, written or about to be. -/
def Core.lastReg (c : Core) (i : Nat) : Nat :=
  match (c.regsLate.filter (fun r => r.1 = i)).getLast? with
  | some r => r.2.2
  | none => c.reg i

/-! ## The region scoreboard (R157 to R160) -/

def StoreRegion.meets (r : StoreRegion) (first len : Nat) : Bool := decide (r.base < first + len) && decide (first < r.base + r.len)

def StoreRegion.overlap (r : StoreRegion) (first len : Nat) : Nat := min (r.base + r.len) (first + len) - max r.base first

/-- ACCESS permits the access: 1 read, 2 write, 3 both. -/
def StoreRegion.permits (r : StoreRegion) (write : Bool) : Bool := if write then bit r.access 1 else bit r.access 0

/-- Some line of the access lies outside every live region, or a region it touches does not permit it (R158). -/
def State.outOfRegion (s : State) (a : StoreAcc) : Bool :=
  let rs := (s.storeRegions a.ref).filter (·.meets a.first a.len)
  (rs.map (·.overlap a.first a.len)).sum ≠ a.len || rs.any (fun r => !r.permits a.write)

/-- Two accesses touch one live region and one of them writes (R159). -/
def State.sameRegion (s : State) (a b : StoreAcc) : Bool :=
  decide (a.ref = b.ref) && (a.write || b.write)
    && (s.storeRegions a.ref).any (fun r => r.meets a.first a.len && r.meets b.first b.len)

def regionMode : CodeOwner → Bool
  | .deal _ => false
  | .program _ r => r

/-- Every access of an item, local and incoming: the scoreboard records both from its issue to its completion (R158). -/
def Item.recorded (i : Item) : List StoreAcc := i.accs ++ i.incoming

/-- An access of queue `q` of core `k` at `cycle` conflicts with one of an item not yet complete (R159). -/
def State.meetsItem (s : State) (k q cycle : Nat) (region : Bool) (a : StoreAcc) (i : Item) : Bool :=
  (i.core ≠ k || i.queue ≠ q) && (region || regionMode i.owner || decide (cycle ≤ i.done)) && i.recorded.any (fun b => s.sameRegion a b)

def State.conflicts (s : State) (k q cycle : Nat) (region : Bool) (a : StoreAcc) : Bool := s.svis.items.any (s.meetsItem k q cycle region a)

/-- An access in flight touches the region. -/
def State.regionBusy (s : State) (ref : StoreRef) (r : StoreRegion) : Bool :=
  s.svis.items.any (fun i => i.recorded.any (fun b => decide (b.ref = ref) && r.meets b.first b.len))

def planeRank : Plane → Nat
  | .memory => 1
  | _ => 0

/-- Order of accesses of one cycle (R159, R187): local ones by core and queue, then incoming ones, the tile plane's before the memory plane's, by source core and queue. -/
def accOrder (incoming : Bool) (plane : Plane) (core queue : Nat) : List Nat :=
  if incoming then [1, planeRank plane, core, queue] else [0, core, queue]

/-- The item issued in the same cycle, and its conflicting access stands behind this one in the order of R159: it is the item's access that conflicts. -/
def State.itemLater (s : State) (cycle : Nat) (order : List Nat) (a : StoreAcc) (i : Item) : Bool :=
  i.issue = cycle && (i.accs.any (fun b => s.sameRegion a b && placeLt order (accOrder false i.plane i.core i.queue))
    || i.incoming.any (fun b => s.sameRegion a b && placeLt order (accOrder true i.plane i.core i.queue)))

/-- Regions whose RFREE waited are released once no access is in flight in them. -/
def State.releaseRegions (s : State) (ref : StoreRef) : State :=
  let rs := s.storeRegions ref
  if rs.any (·.freeing) then s.setRegions ref (rs.filter (fun r => !(r.freeing && !s.regionBusy ref r))) else s

/-! ## Reneges, overruns, stops -/

/-- A renege of deal code on a die (R95, R97, R102 to R104, R160): a misdeal cause, and the mark R104 looks at. The code of a slot folded from the first trick on works on masked lanes alone and brings none (R105). -/
def State.renege (s : State) (detail slot die : Nat) : State :=
  if s.dealer.running.any (·.deadSlots.contains slot) then s else
  let s : State := { s with svis := { s.svis with reneges := s.svis.reneges ++ [(die, s.cad.trick)] } }
  s.addCause 6 detail slot die (placeDie die)

/-- An overrun (Table 6.6); behind a renege on its die it is logged CONSEQUENT and is no cause (R104). -/
def State.overrun (s : State) (detail slot die place due : Nat) : State :=
  if s.svis.reneges.any (fun r => r.1 = die && decide (r.2 ≤ due)) then s.post (logItem 5 0x2F s.curDeal place)
  else State.addCause { s with repair := { s.repair with overrunSeen := true } } 5 detail slot die place

/-- An item's place in a queue is gone with its program: forget the program's words, handed or not, and positions. -/
def State.dropProgram (s : State) (id : Nat) : State :=
  { s with svis := { s.svis with
      programs := s.svis.programs.filter (·.id ≠ id)
      code := s.svis.code.filter (·.prog ≠ some id)
      cores := s.svis.cores.map (fun c => (c.1, { c.2 with
        handed := c.2.handed.filter (·.program ≠ id)
        streams := c.2.streams.filter (fun p => match p.owner with | .program j _ => j ≠ id | .deal _ => true) })) } }

/-- An open program ends with a status (R166, R216, Table 19.6); `word` is the word index of the stopping instruction. -/
def State.stopProgram (s : State) (id status word : Nat) : State :=
  match s.openProgram id with
  | none => s
  | some p =>
    let s := s.dropProgram id
    s.owed p.ticket { kind := 4, status, opcode := 0, tag := p.ticket.tag, v0 := status + 256 * boolNat p.accSat, v1 := word, index := p.ticket.slot } true

/-! ## What an instruction does, before it is put in flight -/

/-- A run-time check that fails: the renege of deal code, the status of an open program. -/
structure Prob where
  detail : Nat
  status : Nat
deriving DecidableEq, Repr

/-- An instruction's effect: its times of Tables 6.4 and 6.5, its accesses, and what it writes at completion. -/
structure Effect where
  occ : Nat := 1
  lam : Nat := 2
  /-- Due trick counted from the issue trick. -/
  due : Option Nat := none
  plane : Plane := .local
  lateDetail : Nat := 0
  latePlace : Nat := 0
  accs : List StoreAcc := []
  incoming : List StoreAcc := []
  writes : List StoreWrite := []
  hbm : List (Nat × Bytes) := []
  /-- Lines of HBM read, by physical address. -/
  reads : List Nat := []
  reg : Option (Nat × Nat) := none
  remote : List (Nat × Nat) := []
  probs : List Prob := []
  /-- Poisoned lines that deal code read, and PCIe reads of open programs are free values already taken. -/
  poison : List Nat := []
  /-- Bytes moved, to meter: HBM by die, window KIND accounted to the slot, vault, link. -/
  hbmBytes : List (Nat × Nat) := []
  slotBytes : Nat := 0
  vaultBytes : Nat := 0
  deckBytes : Option (Nat × Nat) := none
  sat : Bool := false
  vaultFails : List (Nat × Nat × Nat) := []
  vault : Option (Nat × Nat × Nat × Nat) := none
  aboveLowest : Nat := 0
  /-- Transfers an XDECK sends: link and bytes. -/
  deckOut : List (Nat × Bytes) := []
deriving DecidableEq, Repr

/-- A no-op (R164). -/
def noOp : Effect := {}

/-- What an instruction is built in: its core, queue and issue cycle, the core as it sees it, and its place in handing order. -/
structure Env where
  site : Site
  key : Nat
  q : Nat
  cycle : Nat
  core : Core
  abase : Nat
  order : Nat := 0
deriving DecidableEq, Repr

def Env.a (e : Env) : Nat := e.core.reg e.abase

/-- Effective line of a store operand (R133). -/
def Env.line (e : Env) (imm : Nat) : Nat := imm + e.a / 64

def Env.coreRef (e : Env) : StoreRef := .core e.key
def Env.clusterRef (e : Env) : StoreRef := .cluster (e.key / 64)

/-- A store by its space code: 0 core, 1 cluster. -/
def Env.ref (e : Env) (space : Nat) : StoreRef := if space = 0 then e.coreRef else e.clusterRef

def StoreRef.acc (r : StoreRef) (addr bytes : Nat) (write : Bool) : List StoreAcc :=
  if bytes = 0 then [] else [{ ref := r, first := addr / 64, len := (addr + bytes - 1) / 64 - addr / 64 + 1, write }]

/-- A signed line number that lies below zero, or an access past the end of its store, is outside its buffer (R133, R165). -/
def StoreAcc.outside (a : StoreAcc) : Bool := decide (a.ref.lines < a.first + a.len)

/-! ## Completion -/

/-- Apply a write to each of its stores. -/
def State.applyWrite (s : State) (w : StoreWrite) : State :=
  w.dsts.foldl (fun s r => let x := w.apply r (s.storeCells r, s.storeMarks r); s.setStore r x.1 x.2) s

/-- Write whole lines to HBM, clearing poison (R258). -/
def State.applyHbm (s : State) (h : List (Nat × Bytes)) : State := h.foldl (fun s x => s.writeLine x.1 x.2) s

/-- Count a post on a core at a cycle (R153, R154). -/
def State.postChip (s : State) (k chip cycle : Nat) : State :=
  let c := s.core k
  s.setCore k { c with posts := c.posts ++ [(chip, cycle)] }

/-- Every post of the item, its own and the remote ones: core and chip. -/
def Item.posts (i : Item) : List (Nat × Nat) := (match i.post with | some p => [(i.core, p)] | none => []) ++ i.remote

/-- The posts of the item would take a counter past 255 (R156). -/
def State.chipOverflow (s : State) (i : Item) : Bool :=
  i.posts.any (fun r => decide (255 < (s.core r.1).chipTotal r.2 + (i.posts.filter (· = r)).length))

def Item.refs (i : Item) : List StoreRef := ((i.accs.map (·.ref)) ++ (i.incoming.map (·.ref))).dedup

/-- What the lines held that the running deal is about to write for the first time (R14, R349). -/
def State.noteUndo (s : State) (h : List (Nat × Bytes)) : State :=
  let add := fun (l : List (Nat × Bytes × Bool)) (x : Nat × Bytes) =>
    if l.any (·.1 = x.1 / 64) then l else l ++ [(x.1 / 64, s.hbmRead (x.1 / 64 * 64) 64, s.poisonedAt x.1)]
  { s with dealer := { s.dealer with undo := h.foldl add s.dealer.undo } }

/-- Landings of deal code in one cycle stand in the order of R187: what came before this one and stands behind it in that order is written over it. -/
def State.orderLandings (s : State) (i : Item) : State :=
  match i.owner with
  | .program _ _ => s
  | .deal _ =>
    if i.incoming = [] then s else
    let same := s.svis.landed.filter (·.cycle = i.done)
    let behind := fun (l : Landed) => placeLt (accOrder true i.plane i.core 0) (accOrder true l.plane l.core 0)
    let later := same.filter behind
    let s : State := { s with svis := { s.svis with landed := same.filter (!behind ·) ++ { cycle := i.done, plane := i.plane, core := i.core, writes := i.writes } :: later } }
    (later.flatMap (·.writes)).foldl State.applyWrite s

/-- The item is complete: its writes are visible, its post is counted (R122, R153). -/
def State.completeItem (s : State) (i : Item) : State :=
  let s : State := { s with svis := { s.svis with items := s.svis.items.filter (·.id ≠ i.id) } }
  let s := (i.writes.foldl State.applyWrite s).orderLandings i
  let s := match i.owner with
    | .deal _ => s.noteUndo i.hbm
    | .program _ _ => s
  let s := s.applyHbm i.hbm
  let s := match i.reg with
    | some (r, v) => s.setCore i.core ((s.core i.core).writeReg r i.done v)
    | none => s
  let s := match i.post with
    | some p => s.postChip i.core p i.done
    | none => s
  let s := i.remote.foldl (fun s r => s.postChip r.1 r.2 i.done) s
  i.refs.foldl State.releaseRegions s

/-- Complete an item; in region mode a post past 255 stops the program, and the writes are discarded (R156). -/
def State.finishItem (s : State) (i : Item) : State :=
  match i.owner with
  | .program id true =>
    if s.chipOverflow i then
      State.stopProgram { s with svis := { s.svis with items := s.svis.items.filter (·.id ≠ i.id) } } id 0x02 i.seq
    else s.completeItem i
  | _ => s.completeItem i

/-- No earlier item of its queue is in flight (R121). -/
def State.oldest (s : State) (i : Item) : Bool :=
  match s.svis.items.find? (fun j => j.core = i.core && j.queue = i.queue) with
  | some j => j.id = i.id
  | none => false

/-! ## Putting an effect in flight -/

/-- Meter the bytes of deal code in the 256-trick window (R97): the first count above a peak is a renege TRAFFIC. -/
def State.meterOne (s : State) (peak place slotDie : Nat) (n : Nat) (get : Svis → List (Nat × Nat)) (set : Svis → List (Nat × Nat) → Svis) (key : Nat) : State :=
  let old := (aget key (get s.svis)).getD 0
  let s : State := { s with svis := set s.svis (aset key (old + n) (get s.svis)) }
  if old ≤ peak && peak < old + n then
    let s : State := { s with svis := { s.svis with reneges := s.svis.reneges ++ [(slotDie, s.cad.trick)] } }
    s.addCause 6 0x13 0xFFF slotDie place
  else s

def State.meter (s : State) (f : Form) (e : Effect) (die slot : Nat) : State :=
  let w := s.cad.trick / 256
  let s : State := if s.svis.meterWin = w then s else { s with svis := { s.svis with meterWin := w, hbmMeter := [], vaultMeter := [], deckMeter := [] } }
  let s := e.hbmBytes.foldl (fun s x => s.meterOne f.cert.hbmPeak (placeDie x.1) x.1 x.2 (·.hbmMeter) (fun v l => { v with hbmMeter := l }) x.1) s
  let s := if e.vaultBytes = 0 then s else s.meterOne f.cert.vaultPeak (placeDie die) die e.vaultBytes (·.vaultMeter) (fun v l => { v with vaultMeter := l }) die
  let s := match e.deckBytes with
    | some (l, n) => s.meterOne f.cert.deckPeak (placeLink l) die n (·.deckMeter) (fun v l => { v with deckMeter := l }) l
    | none => s
  { s with dealer := { s.dealer with
      slotHbm := if e.slotBytes = 0 then s.dealer.slotHbm else aset slot ((aget slot s.dealer.slotHbm).getD 0 + e.slotBytes) s.dealer.slotHbm
      vaultBytes := s.dealer.vaultBytes + e.vaultBytes
      deckBytes := s.dealer.deckBytes + (match e.deckBytes with | some (_, n) => n | none => 0) } }

/-- What deal code's reads met: poison (R259) and vault read failures (R286, R301). -/
def State.noteReads (s : State) (f : Form) (die : Nat) (e : Effect) : State :=
  let d := s.causeDeal
  let s : State := { s with dealer := { s.dealer with
    poisonReads := s.dealer.poisonReads ++ e.poison.map (fun pa => { deal := d, pa })
    vaultFails := s.dealer.vaultFails ++ e.vaultFails.map (fun v => { deal := d, image := f.weightImage, die := v.1, block := v.2.1, detail := v.2.2 }) }, vault := { s.vault with failures := s.vault.failures + e.vaultFails.length } }
  e.vaultFails.foldl (fun s v => s.addCause 7 v.2.2 0xFFF die (placeDie die)) s

/-- INT8 saturation: the slot's ACC_SAT, or the program's (R213, R216). -/
def State.noteSat (s : State) (o : CodeOwner) (sat : Bool) : State :=
  if !sat then s else
  match o with
  | .deal slot => { s with dealer := { s.dealer with accSat := sins slot s.dealer.accSat } }
  | .program id _ => { s with svis := { s.svis with programs := s.svis.programs.map (fun p => if p.id = id then { p with accSat := true } else p) } }

/-- The last completion of a queue (R184). -/
def Core.qstate (c : Core) (q : Nat) : QState := (aget q c.queues).getD { issue := 0, occ := 0, done := 0 }

/-- Put the effect in flight: the queue is held for O cycles, and completion is no earlier than the queue's last (R183, R184). -/
def State.launch (s : State) (e : Env) (b : Base) (f : Effect) (word : Nat) : State :=
  let natural := match f.due with
    | some t => 64 * (e.cycle / 64 + t) - 1
    | none => e.cycle + f.lam - 1
  let done := max natural (e.core.qstate e.q).done
  let core := { e.core with queues := aset e.q { issue := e.cycle, occ := f.occ, done } e.core.queues }
  let i : Item :=
    { id := s.svis.nextItem, core := e.key, die := e.site.die, stream := e.site.stream, owner := e.site.owner, queue := e.q, seq := word, plane := f.plane
      issue := e.cycle, done, lateDetail := f.lateDetail, latePlace := f.latePlace, accs := f.accs, incoming := f.incoming, writes := f.writes, hbm := f.hbm
      reg := f.reg, post := if b.pe = 1 then some b.post.toNat else none, remote := f.remote, vault := f.vault, held := false, order := e.order }
  let s := s.setCore e.key core
  let s : State := { s with svis := { s.svis with items := s.svis.items ++ [i], nextItem := s.svis.nextItem + 1 } }
  let s := f.reads.foldl (fun s pa => s.memLine (.die e.site.die) false pa) s
  f.hbm.foldl (fun s w => s.memLine (.die e.site.die) true w.1) s

/-! ## Chip waits (R155, R103) -/

/-- Take the chips a wait needs; none when the count is below NEED. -/
def Core.takeChips (c : Core) (b : Base) : Option Core :=
  if b.we = 0 then some c
  else
    let n := c.chip b.wait.toNat
    if b.need.toNat ≤ n then some { c with chips := aset b.wait.toNat (n - b.need.toNat) c.chips } else none

/-- In ordered mode a wait found unposted: overrun LATENCY when its producer is late, judged under R104 by the producer's own die and due trick, else renege CHIP_EARLY (R103). -/
def State.chipMissing (s : State) (x : Site) (b : Base) (cycle slot : Nat) : State :=
  match s.svis.items.find? (fun i => decide (i.done < cycle) && i.posts.contains (siteKey x, b.wait.toNat)) with
  | some i => s.overrun 0x20 slot i.die (placeCore x.die x.row x.col x.core) ((i.done + 1) / 64)
  | none => s.renege 0x11 slot x.die

end Sys2Proof.Machine
end

