-- ==== Sys2Proof/Machine/Matrix.lean ====
section
/-!
DEFINITION. Machine/Matrix.lean: MMA and MZERO: operand tiles, accumulation, expansion, split passes, visit orders, extension words (R135 to R144, R168, R194, R205 to R212).
-/
namespace Sys2Proof.Machine

/-! ## Extension words (R140 to R142) -/

/-- Offsets in lines of every iteration of a batch, in order: for A or source, for B, for C or destination (R141). -/
def batchOffsets (d0 d1 d2 : Dim) : List (Int × Int × Int) :=
  (List.range d2.count.toNat).flatMap (fun i2 =>
    (List.range d1.count.toNat).flatMap (fun i1 =>
      (List.range d0.count.toNat).map (fun i0 =>
        ((i0 : Int) * d0.sa.toInt + i1 * d1.sa.toInt + i2 * d2.sa.toInt,
         (i0 : Int) * d0.sb.toInt + i1 * d1.sb.toInt + i2 * d2.sb.toInt,
         (i0 : Int) * d0.sc.toInt + i1 * d1.sc.toInt + i2 * d2.sc.toInt))))

/-- Entries of a pointer list, read at issue from its cluster-store lines (R143). -/
def pointerEntries (cells : List Host.Cell) (addr count : Nat) : List Nat :=
  (List.range count).map (fun i => leAll (readBytes cells (64 * addr + 8 * i) 8))

/-- Iterations of an extension: the batch product, PL_COUNT, or 1. -/
def extIterations : Ext → Nat
  | .none => 1
  | .batch d0 d1 d2 => d0.count.toNat * d1.count.toNat * d2.count.toNat
  | .ptrs _ n => n.toNat

/-! ## Visit orders (R139) -/

/-- The point of the Hilbert curve: `fuel` doublings of k from `k`, with (n, m) so far. -/
def hilbertStep : Nat → Nat → Nat → Nat → Nat → Nat × Nat
  | 0, _, _, n, m => (n, m)
  | fuel + 1, k, t, n, m =>
    let rx := t / 2 % 2
    let ry := Nat.xor t rx % 2
    let (n, m) := if ry = 0 then (if rx = 1 then (k - 1 - m, k - 1 - n) else (m, n)) else (n, m)
    hilbertStep fuel (k * 2) (t / 4) (n + k * rx) (m + k * ry)

/-- Bits of `d` at even places, lowest first, as many as `n`. -/
def evenBits : Nat → Nat → Nat
  | 0, _ => 0
  | n + 1, d => d % 2 + 2 * evenBits n (d / 4)

/-- Smallest power of two at least `n`, as an exponent, for n up to 32. -/
def sideLog (n : Nat) : Nat := if n ≤ 1 then 0 else if n ≤ 2 then 1 else if n ≤ 4 then 2 else if n ≤ 8 then 3 else if n ≤ 16 then 4 else 5

/-- Output tiles (m, n) in visiting order. -/
def visitOrder (order mt nt : Nat) : List (Nat × Nat) :=
  match order with
  | 1 => (List.range mt).flatMap (fun m => (List.range nt).map (fun n => (m, n)))
  | 2 => (List.range nt).flatMap (fun n => (List.range mt).map (fun m => (m, n)))
  | o =>
    let lg := sideLog (max mt nt)
    let pts := (List.range (2 ^ lg * 2 ^ lg)).map (fun d =>
      if o = 3 then (evenBits lg (d / 2), evenBits lg d)
      else let p := hilbertStep lg 1 d 0 0; (p.2, p.1))
    pts.filter (fun p => p.1 < mt && p.2 < nt)

/-! ## Operands -/

/-- Bytes of a tile (Table 7.3). -/
def tileBytes (code : Nat) : Nat := 2 * fmtWidth code

/-- The next line boundary. -/
def lineUp (n : Nat) : Nat := (n + 63) / 64 * 64

/-- Bytes of an operand of `tiles` tiles with `scales` MX scale bytes (R194). -/
def operandBytes (code tiles scales : Nat) : Nat :=
  if isMx code then lineUp (tiles * tileBytes code) + scales else tiles * tileBytes code

/-- What an MMA iteration reads: cells and byte bases of A, B and C, and the metadata base. -/
structure MmaAt where
  a : List Host.Cell
  aBase : Nat
  b : List Host.Cell
  bBase : Nat
  cBase : Nat
  md : List Host.Cell
  mdBase : Nat
deriving DecidableEq, Repr

def elemAt (cells : List Host.Cell) (base code idx : Nat) : Nat :=
  let w := fmtWidth code
  bits (leAll (readBytes cells (base + w * idx / 8) (w / 8 + 2))) (w * idx % 8) w

/-- a(r, c) of tile (m, k) (R193, R194). -/
def aElem (o : MmaOps) (p : MmaAt) (m k r c : Nat) : Num :=
  let f := o.fmtA.toNat
  let kt := o.kt.toNat
  let x := elemValue f (elemAt p.a (p.aBase + (m * kt + k) * tileBytes f) f (4 * r + c))
  if isMx f then
    mxScaled (cellGet (p.aBase + lineUp (o.mt.toNat * kt * tileBytes f) + (m * (kt / 8) + k / 8) * 4 + r) p.a).toNat x
  else x

/-- Expansion of an INT4 code of group `g` (R206, R207). -/
def expandCode (o : MmaOps) (p : MmaAt) (g q : Nat) : Num :=
  let f := o.fmtA.toNat
  if o.mode.toNat = 1 then
    let w := fmtWidth f / 8
    elemValue f (leAll (readBytes p.md (p.mdBase + g * (16 * w) + q * w) w))
  else
    let s := bf16.decode (leAll (readBytes p.md (p.mdBase + 4 * g) 2))
    let z := bf16.decode (leAll (readBytes p.md (p.mdBase + 4 * g + 2) 2))
    let d := Num.sum false [Num.ofInt q, z.neg]
    -- a code equal to the zero point gives +0 (Table 7.6)
    let r := if d.isZero && (d.mul s).isZero then Num.zero else d.mul s
    elemValue f (encodeElem f 0 (f = 3) r)

/-- b(r, c) of tile (k, n). -/
def bElem (o : MmaOps) (p : MmaAt) (k n r c : Nat) : Num :=
  let f := o.fmtB.toNat
  let nt := o.nt.toNat
  let raw := elemAt p.b (p.bBase + (k * nt + n) * tileBytes f) f (4 * r + c)
  let md := o.mode.toNat
  if md = 1 || md = 2 then
    let glog := bits o.mparam.toNat 5 4
    let g := 4 * o.kt.toNat / 2 ^ glog
    expandCode o p ((4 * n + c) * g + (4 * k + r) / 2 ^ glog) raw
  else
    let x := elemValue f raw
    if isMx f then
      mxScaled (cellGet (p.bBase + lineUp (o.kt.toNat * nt * tileBytes f) + (k / 8 * nt + n) * 4 + c) p.b).toNat x
    else x

/-! ## One tile pair -/

/-- C + Σ products, rounded once to FP32, nearest even (R205). -/
def accumulate (c : Num) (ps : List Num) : Num := fp32.decode (toFp32 (Num.sum false (c :: ps)))

/-- Pieces hi, mid, lo of an FP32 pattern (R209). -/
def splitPieces (p : Nat) : List Num :=
  let x := fp32.decode p
  if !x.isFinite then [x, Num.zero, Num.zero] else
  let hi := bf16.decode (p / 65536)
  let p1 := toFp32 (Num.sum false [x, hi.neg])
  let mid := bf16.decode (p1 / 65536)
  let p2 := toFp32 (Num.sum false [fp32.decode p1, mid.neg])
  [hi, mid, bf16.decode (p2 / 65536)]

/-- Passes of Table 7.5: pieces of A and of B. -/
def splitPasses (pieces : Nat) : List (Nat × Nat) :=
  if pieces = 2 then [(1, 0), (0, 1), (0, 0)] else [(2, 0), (1, 1), (0, 2), (1, 0), (0, 1), (0, 0)]

/-- A product of pieces; one with a mid or lo piece that is +0 contributes nothing (R210). -/
def pieceProduct (a b : List Num) (pass : Nat × Nat) : Option Num :=
  let x := a.getD pass.1 Num.zero
  let y := b.getD pass.2 Num.zero
  let plusZero := fun (v : Num) => v.isZero && !v.sign
  if (0 < pass.1 && plusZero x) || (0 < pass.2 && plusZero y) then none else some (x.mul y)

/-- One float output element after tile pair k (R205, R210). -/
def floatStep (o : MmaOps) (p : MmaAt) (m n k i j : Nat) (c : Num) : Num :=
  if o.mode.toNat = 3 then
    let pa := (List.range 4).map (fun t => splitPieces (elemAt p.a (p.aBase + (m * o.kt.toNat + k) * 64) 0 (4 * i + t)))
    let pb := (List.range 4).map (fun t => splitPieces (elemAt p.b (p.bBase + (k * o.nt.toNat + n) * 64) 0 (4 * t + j)))
    (splitPasses (bits o.mparam.toNat 11 2)).foldl (fun c pass =>
      accumulate c ((List.range 4).filterMap (fun t => pieceProduct (pa.getD t []) (pb.getD t []) pass))) c
  else accumulate c ((List.range 4).map (fun t => (aElem o p m k i t).mul (bElem o p k n t j)))

/-- The integer of an exact integral value. -/
def Num.toInt (x : Num) : Int := x.floor

/-- Saturation of R212, with its flag. -/
def saturate40 (v : Int) : Int × Bool :=
  let top : Int := 2 ^ 39 - 1
  if top < v then (top, true) else if v < -top then (-top, true) else (v, false)

/-- One INT8 output element after tile pair k, and whether it saturated (R212). -/
def intStep (o : MmaOps) (p : MmaAt) (m n k i j : Nat) (c : Int × Bool) : Int × Bool :=
  let r := saturate40 (c.1 + ((List.range 4).map (fun t => (aElem o p m k i t).toInt * (bElem o p k n t j).toInt)).sum)
  (r.1, c.2 || r.2)

def isInt8 (o : MmaOps) : Bool := o.fmtA.toNat = 10

/-- Bytes of a C tile. -/
def cTileBytes (o : MmaOps) : Nat := if isInt8 o then 128 else 64

/-- One output tile: its bytes, and whether it saturated (R135, R205, R212). -/
def mmaTile (o : MmaOps) (p : MmaAt) (core : List Host.Cell) (mn : Nat × Nat) : Bytes × Bool :=
  let base := p.cBase + (mn.1 * o.nt.toNat + mn.2) * cTileBytes o
  let ks := List.range o.kt.toNat
  if isInt8 o then
    let out := (List.range 16).map (fun e =>
      let c0 : Int := if o.acc = 1 then signedOf 40 (leAll (readBytes core (base + 8 * e) 8)) else 0
      ks.foldl (fun c k => intStep o p mn.1 mn.2 k (e / 4) (e % 4) c) (c0, false))
    (out.flatMap (fun x => toLe (ofSigned 64 x.1) 8), out.any (·.2))
  else
    let out := (List.range 16).map (fun e =>
      let c0 := if o.acc = 1 then fp32.decode (leAll (readBytes core (base + 4 * e) 4)) else Num.zero
      toFp32 (ks.foldl (fun c k => floatStep o p mn.1 mn.2 k (e / 4) (e % 4) c) c0))
    (out.flatMap (fun x => toLe x 4), false)

/-! ## The instruction -/

/-- Addresses of one iteration in lines: A, B, C, and B's space. -/
structure MmaIter where
  a : Int
  b : Int
  c : Int
  space : Nat
  bad : Bool
deriving DecidableEq, Repr

def mmaIters (e : Env) (o : MmaOps) (x : Ext) (cluster : List Host.Cell) : List MmaIter :=
  let base : MmaIter := { a := e.line o.aAddr.toNat, b := e.line o.bAddr.toNat, c := e.line o.cAddr.toNat, space := o.bSpace.toNat, bad := false }
  match x with
  | .none => [base]
  | .batch d0 d1 d2 => (batchOffsets d0 d1 d2).map (fun t => { base with a := base.a + t.1, b := base.b + t.2.1, c := base.c + t.2.2 })
  | .ptrs addr count => (pointerEntries cluster addr.toNat count.toNat).map (fun w =>
      { a := e.line (bits w 57 7), b := e.line (bits w 44 12), c := e.line (bits w 37 7), space := bits w 56 1, bad := bits w 0 37 ≠ 0 })

/-- An iteration lies below the stores, or its entry is bad. -/
def MmaIter.wrong (t : MmaIter) : Bool := t.bad || t.a < 0 || t.b < 0 || t.c < 0

/-- Bytes of A, B and C of one iteration. -/
def mmaBytes (o : MmaOps) : Nat × Nat × Nat :=
  let mt := o.mt.toNat
  let nt := o.nt.toNat
  let kt := o.kt.toNat
  (operandBytes o.fmtA.toNat (mt * kt) (mt * (kt / 8) * 4), operandBytes o.fmtB.toNat (kt * nt) (kt / 8 * nt * 4), mt * nt * cTileBytes o)

/-- Bytes of group metadata, 0 outside MODE 1 and 2 (R208). -/
def metaBytes (o : MmaOps) : Nat :=
  let groups := 4 * o.nt.toNat * (4 * o.kt.toNat / 2 ^ bits o.mparam.toNat 5 4)
  match o.mode.toNat with
  | 1 => groups * (2 * fmtWidth o.fmtA.toNat)
  | 2 => groups * 4
  | _ => 0

/-- p of Table 6.1. -/
def mmaRate (o : MmaOps) : Nat :=
  match o.mode.toNat with
  | 3 => if bits o.mparam.toNat 11 2 = 2 then 24 else 48
  | 0 => match o.fmtA.toNat with
    | 1 => 8
    | 2 => 8
    | 9 => 2
    | _ => 4
  | _ => if o.fmtA.toNat = 1 then 8 else 4

def Env.metaBase (e : Env) (o : MmaOps) : Nat := e.core.reg (bits o.mparam.toNat 9 4) / 64 * 64

/-- Run the iterations in order over the core store. -/
def mmaRun (e : Env) (o : MmaOps) (cluster : List Host.Cell) : List MmaIter → List Host.Cell → List Host.Cell × Bool
  | [], core => (core, false)
  | t :: rest, core =>
    if t.wrong then mmaRun e o cluster rest core else
    let p : MmaAt :=
      { a := core, aBase := 64 * t.a.toNat, b := if t.space = 0 then core else cluster, bBase := 64 * t.b.toNat
        cBase := 64 * t.c.toNat, md := cluster, mdBase := e.metaBase o }
    let tiles := (visitOrder o.order.toNat o.mt.toNat o.nt.toNat).map (fun mn => (mn, mmaTile o p core mn))
    let core' := tiles.foldl (fun c x => writeBytes c (p.cBase + (x.1.1 * o.nt.toNat + x.1.2) * cTileBytes o) (x.2.1.take (8192 - p.cBase))) core
    let r := mmaRun e o cluster rest core'
    (r.1, r.2 || tiles.any (·.2.2))

/-- MMA (R135, Tables 5.7, 6.1, 6.4). A pointer list is read at line PL_ADDR itself, without A[ABASE] (DESIGN CHOICE, log entry 96). -/
def mmaEffect (s : State) (e : Env) (o : MmaOps) (x : Ext) : Effect :=
  let n := extIterations x
  if n = 0 || o.mt = 0 || o.nt = 0 || o.kt = 0 then noOp else
  let core := (s.view e.key e.q e.coreRef).1
  let cluster := (s.view e.key e.q e.clusterRef).1
  let its := mmaIters e o x cluster
  let sz := mmaBytes o
  let r := mmaRun e o cluster its core
  let good := its.filter (fun t => !t.wrong)
  let occ := n * o.mt.toNat * o.nt.toNat * o.kt.toNat * mmaRate o + (match x with | .ptrs _ c => c.toNat | _ => 0)
  { occ, lam := occ + (if good.any (·.space = 1) then 8 else 6)
    accs := good.flatMap (fun t =>
        e.coreRef.acc (64 * t.a.toNat) sz.1 false ++ (e.ref t.space).acc (64 * t.b.toNat) sz.2.1 false
          ++ (if o.acc = 1 then e.coreRef.acc (64 * t.c.toNat) sz.2.2 false else []) ++ e.coreRef.acc (64 * t.c.toNat) sz.2.2 true)
      ++ e.clusterRef.acc (e.metaBase o) (metaBytes o) false
      ++ (match x with | .ptrs a c => e.clusterRef.acc (64 * a.toNat) (8 * c.toNat) false | _ => [])
    writes := good.map (fun t => { dsts := [e.coreRef], addr := 64 * t.c.toNat, data := readBytes r.1 (64 * t.c.toNat) sz.2.2, mark := false })
    probs := if its.any MmaIter.wrong then [{ detail := 0x10, status := 1 }] else []
    sat := r.2 }

/-- MZERO (R139, Table 6.4). -/
def mzeroEffect (e : Env) (o : MzeroOps) : Effect :=
  let n := o.mt.toNat * o.nt.toNat
  if n = 0 then noOp else
  let bytes := n * (if o.int = 1 then 128 else 64)
  let occ := if o.int = 1 then 2 * n else n
  let addr := 64 * e.line o.cAddr.toNat
  { occ, lam := occ + 2, accs := e.coreRef.acc addr bytes true
    writes := [{ dsts := [e.coreRef], addr, data := List.replicate bytes 0, mark := false }] }

end Sys2Proof.Machine
end

