-- ==== Sys2Proof/Machine/Vector.lean ====
section
/-!
DEFINITION. Machine/Vector.lean: the V and S queues (R145, R146, R197 to R204, R217, R229 to R235, Tables 5.8, 5.9, 6.4).
-/
namespace Sys2Proof.Machine

/-- A vector operand in the core store: where it lies, its bytes as the queue sees them, its access. -/
def Env.vec (e : Env) (core : List Host.Cell) (line code count : Nat) : List Num × List StoreAcc :=
  let addr := 64 * e.line line
  let n := vecBytes code count
  (readVec code count (readBytes core addr n), e.coreRef.acc addr n false)

/-- Some line the accesses read is marked (R289). -/
def anyMarked (marks : List Nat) (accs : List StoreAcc) : Bool :=
  accs.any (fun a => !a.write && marks.any (fun l => decide (a.first ≤ l) && decide (l < a.first + a.len)))

/-- V opcodes that copy (R289). -/
def vCopies : VOp → Bool
  | .cvt | .sel | .max | .min | .abs | .neg | .and | .or | .qmx => true
  | _ => false

/-- Sources an opcode reads: S2, S3. -/
def vReads2 : VOp → Bool
  | .abs | .neg | .cvt | .qmx => false
  | _ => true

def vReads3 : VOp → Bool
  | .fma | .sel => true
  | _ => false

/-- The exact result of one element (R145, R204); VAND and VOR act on patterns. -/
def vValue (op : VOp) (rnd : Nat) (a b c : Num) : Num :=
  let zs := Config.zeroSign rnd
  let flag := fun (x : Bool) => if x then Num.one else Num.zero
  match op with
  | .add => Num.add zs a b
  | .sub => Num.add zs a b.neg
  | .mul => a.mul b
  | .fma => Num.add zs (a.mul b) c
  | .max => Num.max a b
  | .min => Num.min a b
  | .abs => a.abs
  | .neg => a.neg
  | .cvt => a
  | .cmplt => flag (a.lt b)
  | .cmpeq => flag (a.eqv b)
  | .sel => if c.isZero then b else a
  | .qmx => a
  | .and => a
  | .or => a

/-- Patterns of VAND and VOR. -/
def vBits (op : VOp) (a b : Nat) : Nat := match op with | .and => Nat.land a b | _ => Nat.lor a b

/-- A V opcode (Table 5.8). -/
def vecEffect (s : State) (e : Env) (op : VOp) (o : VOps) : Effect :=
  let n := o.count.toNat
  if n = 0 then noOp else
  let (core, marks) := s.view e.key e.q e.coreRef
  let fs := o.fmtS.toNat
  let fd := o.fmtD.toNat
  let rnd := o.rnd.toNat
  let bcast := o.bcast = 1
  let v1 := e.vec core o.s1.toNat fs n
  let v2 := if vReads2 op then e.vec core o.s2.toNat fs (if bcast then 1 else n) else ([], [])
  let v3 := if vReads3 op then e.vec core o.s3.toNat fs n else ([], [])
  let reads := v1.2 ++ v2.2 ++ v3.2
  let d := 64 * e.line o.d.toNat
  let at2 := fun (i : Nat) => v2.1.getD (if bcast then 0 else i) Num.zero
  let mark := vCopies op && anyMarked marks reads
  let occ := n / 4
  let put := fun (ws : List (Nat × Bytes)) =>
    ({ occ, lam := occ + 4, accs := reads ++ ws.flatMap (fun w => e.coreRef.acc w.1 w.2.length true)
       writes := ws.map (fun w => { dsts := [e.coreRef], addr := w.1, data := w.2, mark }) } : Effect)
  match op with
  | .qmx =>
    let q := quantise fd rnd v1.1
    put [(d, q.1), (d + scaleOffset (fmtWidth fd) n, q.2)]
  | .and | .or =>
    let pat := fun (line i : Nat) => leAll (readBytes core (64 * e.line line + 4 * i) 4)
    put [(d, packElems 32 ((List.range n).map (fun i => vBits op (pat o.s1.toNat i) (pat o.s2.toNat (if bcast then 0 else i)))))]
  | _ =>
    put [(d, packElems (fmtWidth fd) ((List.range n).map (fun i =>
      encodeElem fd rnd (o.sat = 1) (vValue op rnd (v1.1.getD i Num.zero) (at2 i) (v3.1.getD i Num.zero)))))]

/-- The S queue writes with no mark (R289). -/
def sEffect (e : Env) (occ lam : Nat) (reads : List StoreAcc) (d : Nat) (data : Bytes) : Effect :=
  { occ, lam, accs := reads ++ e.coreRef.acc d data.length true, writes := [{ dsts := [e.coreRef], addr := d, data, mark := false }] }

/-- SFN (R217, R221, R224): the bits of the function, rounded once; SAT is taken as 0. -/
def sfnEffect (s : State) (e : Env) (o : SfnOps) : Effect :=
  let n := o.count.toNat
  if n = 0 then noOp else
  let v := e.vec (s.view e.key e.q e.coreRef).1 o.s.toNat o.fmtS.toNat n
  let fd := o.fmtD.toNat
  sEffect e n (n + 12) v.2 (64 * e.line o.d.toNat)
    (packElems (fmtWidth fd) (v.1.map (fun x => encodeElem fd o.rnd.toNat false (fnValue s.svis.tables o.fn.toNat x))))

/-- SFUSE (R229). -/
def sfuseEffect (s : State) (e : Env) (o : SfuseOps) : Effect :=
  let n := o.count.toNat
  if n = 0 then noOp else
  let core := (s.view e.key e.q e.coreRef).1
  let v := e.vec core o.s.toNat o.fmtS.toNat n
  let b := e.vec core o.bias.toNat 0 n
  let c := e.vec core o.scale.toNat 0 n
  let fd := o.fmtD.toNat
  sEffect e n (n + 12) (v.2 ++ b.2 ++ c.2) (64 * e.line o.d.toNat)
    (packElems (fmtWidth fd) ((List.range n).map (fun i =>
      encodeElem fd o.rnd.toNat (o.sat = 1) (fuseValue s.svis.tables o.fn.toNat o.rnd.toNat (v.1.getD i Num.zero) (b.1.getD i Num.zero) (c.1.getD i Num.zero)))))

/-- SSTAT (R230, R231). -/
def sstatEffect (s : State) (e : Env) (o : SstatOps) : Effect :=
  let rows := o.rows.toNat
  let len := o.rowlen.toNat
  if rows = 0 || len = 0 then noOp else
  let v := e.vec (s.view e.key e.q e.coreRef).1 o.s.toNat o.fmtS.toNat (rows * len)
  let row := fun (r : Nat) => (List.range len).map (fun c => v.1.getD (statIndex rows len r c) Num.zero)
  sEffect e (rows * len) (rows * len + 8) v.2 (64 * e.line o.d.toNat)
    ((List.range rows).flatMap (fun r => statRecord o.stats.toNat (row r)))

/-- SMERGE (R234, R235): both sources are read before D is written. -/
def smergeEffect (s : State) (e : Env) (o : SmergeOps) : Effect :=
  let n := o.count.toNat
  if n = 0 then noOp else
  let core := (s.view e.key e.q e.coreRef).1
  let bytes := 64 + 4 * n
  let a1 := 64 * e.line o.s1.toNat
  let a2 := 64 * e.line o.s2.toNat
  sEffect e (n + 2) (n + 10) (e.coreRef.acc a1 bytes false ++ e.coreRef.acc a2 bytes false) (64 * e.line o.d.toNat)
    (mergeTriples n (readBytes core a1 bytes) (readBytes core a2 bytes))

/-- SMASK (R232). -/
def smaskEffect (s : State) (e : Env) (o : SmaskOps) : Effect :=
  let qt := o.qt.toNat
  let kt := o.kt.toNat
  if qt = 0 || kt = 0 then noOp else
  let core := (s.view e.key e.q e.coreRef).1
  let seg := o.segment = 1
  let aq := 64 * e.line o.segq.toNat
  let ak := 64 * e.line o.segk.toNat
  let num := fun (a i : Nat) => leAll (readBytes core (a + 2 * i) 2)
  let reads := if seg then e.coreRef.acc aq (8 * qt) false ++ e.coreRef.acc ak (8 * kt) false else []
  sEffect e (qt * kt) (qt * kt + 4) reads (64 * e.line o.d.toNat)
    (packElems 32 (maskTiles qt kt (o.causal = 1) seg (e.core.reg o.qreg.toNat % 2 ^ 32) (e.core.reg o.kreg.toNat % 2 ^ 32) (num aq) (num ak)))

end Sys2Proof.Machine
end

