-- ==== Sys2Proof/Machine/Move.lean ====
section
/-!
DEFINITION. Machine/Move.lean: the L queue: stores, device virtual addresses, conversion on the way (R94, R95, R133, R147, R148, R152, R197, R259, R289, Tables 5.10 and 6.4).
-/
namespace Sys2Proof.Machine

/-! ## Virtual lines -/

/-- Lines of a virtual access: where each lies in HBM (none: nowhere, or host memory), and what the checks found. -/
structure VLines where
  pas : List (Option Nat)
  data : Bytes
  probs : List Prob
  poison : List Nat
  hbmBytes : List (Nat × Nat)
  slotBytes : Nat
  sec : Bool
deriving DecidableEq, Repr

def VLines.empty : VLines := { pas := [], data := [], probs := [], poison := [], hbmBytes := [], slotBytes := 0, sec := false }

/-- A line that fails its check: nothing is read or written there. -/
def VLines.fail (v : VLines) (detail status : Nat) (sec : Bool) : VLines :=
  { v with pas := v.pas ++ [none], data := v.data ++ List.replicate 64 0, probs := v.probs ++ [{ detail, status }], sec := v.sec || sec }

/-- Writes to HBM that the queue's earlier instructions have in flight, oldest first: reads of the same queue see them (R121). -/
def State.hbmInFlight (s : State) (k q : Nat) : List (Nat × Bytes) :=
  (s.svis.items.filter (fun i => i.core = k && i.queue = q)).flatMap (·.hbm)

/-- A line of HBM as a read sees it behind the writes `ahead`: its bytes and whether it is poisoned. -/
def State.lineBehind (s : State) (ahead : List (Nat × Bytes)) (pa : Nat) : Bytes × Bool :=
  match (ahead.filter (fun x => x.1 / 64 = pa / 64)).getLast? with
  | some x => (padTo 64 x.2, false)
  | none => (s.hbmRead pa 64, s.poisonedAt pa)

/-- A line at physical address `pa`, read behind the writes `ahead`. -/
def VLines.line (v : VLines) (s : State) (ahead : List (Nat × Bytes)) (pa : Nat) (wr kv : Bool) : VLines :=
  let r := s.lineBehind ahead pa
  { v with
    pas := v.pas ++ [some pa]
    data := if wr then v.data else v.data ++ r.1
    poison := if !wr && r.2 then v.poison ++ [pa] else v.poison
    hbmBytes := aset (homeDie pa) ((aget (homeDie pa) v.hbmBytes).getD 0 + 64) v.hbmBytes
    slotBytes := if kv then v.slotBytes else v.slotBytes + 64 }

/-- A KV window, whose pages R85 charges by descriptor. -/
def kvFoot (f : Form) (w : Window) : Bool := w.kind = 1 && (match f.foots[w.foot]? with | some e => e.base = 3 | none => false)

/-- The positions of a slot that are dealt: neither void nor folded. -/
def Plan.positions (p : Plan) (slot : Nat) : List Nat :=
  (p.entries.filter (fun e => e.slot = slot && !e.void && e.cause.isNone)).map (·.pos)

/-- A window takes a write to the line at `va` where deal code may write there (R80): the latent write buffer, KV positions at or beyond KV_LEN, the OUT area, the slot's scratch, and in a MIRROR window the lines of completion words. -/
def State.takesWrite (s : State) (p : Plan) (f : Form) (w : Window) (va : Nat) : Bool :=
  w.write && (match w.kind with
    | 1 => (match (f.foots[w.foot]?).map (·.base), w.page with
      | some 0, _ => false
      | some 2, _ => false
      | some 3, some g =>
        let tpp := Config.tokensPerPage f.id w.slot
        decide ((s.seat w.seat).kvLen ≤ g * tpp + Config.kvPosition f.id w.slot (va % 65536 / 64) % tpp)
      | _, _ => true)
    | 2 => true
    | 3 => (p.positions w.slot).any (fun i => (w.va + Config.completionOffset i) / 64 = va / 64)
    | _ => false)

/-- A line of deal code: the first window of its slot that contains it governs (R95, R255); outside every window, or written where the window takes no write, it is a renege FOOTPRINT; so is a read through a window that only writes (DESIGN CHOICE, log entry 95). -/
def State.dealLine (s : State) (ahead : List (Nat × Bytes)) (slot : Nat) (wr : Bool) (v : VLines) (va : Nat) : VLines :=
  match s.dealer.running, s.codeForm with
  | some p, some f =>
    match p.windows.find? (fun w => w.slot = slot && w.kind ≠ 4 && decide (w.va ≤ va) && decide (va + 64 ≤ w.va + w.len)) with
    | none => v.fail 0x12 0 false
    | some w =>
      if (wr && !s.takesWrite p f w va) || (!wr && !w.read) then v.fail 0x12 0 false else
      match piecePa w.pages va with
      | some pa => v.line s ahead pa wr (kvFoot f w)
      | none => v.fail 0x12 0 false
  | _, _ => v.fail 0x12 0 false

/-- Statuses of Table 9.9. -/
def walkStatus : WalkFault → Nat
  | .translation => 0x06
  | .permission => 0x07
  | .walk => 0x08
  | .deviceRegion => 0x09

/-- A line of an open program, in its account's context (R115, R116, R272). A line in a PCIe window is host memory: a read is a free value, or `fails` with a completion error. -/
def State.programLine (s : State) (ahead : List (Nat × Bytes)) (account : Nat) (fails wr : Bool) (v : VLines) (va : Nat) : VLines × State :=
  match translate s account va with
  | (.error x, s') => (v.fail 0x12 (walkStatus x) (x = .deviceRegion), s')
  | (.ok x, s') =>
    if s'.runningPins.any (fun p => overlaps p.base p.size x.pa 64) then (v.fail 0x12 0x03 false, s')
    else if (if wr then !x.w else !x.r) then (v.fail 0x12 0x07 false, s')
    else if usableHbm x.pa 64 then
      if !wr && (s'.lineBehind ahead x.pa).2 then (v.fail 0x12 0x0A false, s') else (v.line s' ahead x.pa wr false, s')
    else if wr then ({ v with pas := v.pas ++ [none] }, s')
    else if fails then (v.fail 0x12 0x0B false, s')
    else
      let (b, s'') := s'.takeBytes 8
      ({ v with pas := v.pas ++ [none], data := v.data ++ b }, s'')

/-- The lines of a virtual access, in order, behind the queue's earlier writes and those of the instruction itself, `own`. -/
def State.vLines (s : State) (e : Env) (own : List (Nat × Bytes)) (wr : Bool) : List Nat → VLines → VLines × State
  | [], v => (v, s)
  | va :: t, v =>
    let ahead := s.hbmInFlight e.key e.q ++ own
    match e.site.owner with
    | .deal slot => s.vLines e own wr t (s.dealLine ahead slot wr v va)
    | .program id _ =>
      let acct := match s.openProgram id with | some p => p.account | none => 0
      let (v', s') := s.programLine ahead acct e.site.pcieFails wr v va
      s'.vLines e own wr t v'

/-! ## Conversion (R148, R197) -/

/-- Bytes converted element by element; equal formats copy bits. -/
def convertBytes (fs fd rnd : Nat) (sat : Bool) (b : Bytes) : Bytes :=
  if fs = fd then b else
  let n := 8 * b.length / fmtWidth fs
  packElems (fmtWidth fd) ((List.range n).map (fun i => encodeElem fd rnd sat (elemValue fs (packedElem b (fmtWidth fs) i))))

/-- Destination lines of `n` source lines. -/
def destLines (fs fd n : Nat) : Nat := if fs = fd then n else n * fmtWidth fd / fmtWidth fs

/-! ## LMOV, LGATH, LSCAT, LDA -/

/-- One move: where it reads and writes; a virtual side has a byte address, a store side a line number. -/
structure Leg where
  src : Int
  dst : Int
deriving DecidableEq, Repr


/-- A[ABASE] applies to the virtual side, or to both sides when neither is virtual (R147). -/
def moveLegs (e : Env) (o : LOps) (x : Ext) : List Leg :=
  let vs := o.ssp = 2
  let vd := o.dsp = 2
  let va := fun (off : BitVec 20) => ((e.a / 64 * 64 : Nat) : Int) + 64 * off.toInt
  let st := fun (off : BitVec 20) => (off.toNat : Int) + (if vs || vd then 0 else (e.a / 64 : Nat))
  let base : Leg := { src := if vs then va o.soff else st o.soff, dst := if vd then va o.doff else st o.doff }
  match x with
  | .batch d0 d1 d2 => (batchOffsets d0 d1 d2).map (fun t =>
      { src := base.src + (if vs then 64 * t.1 else t.1), dst := base.dst + (if vd then 64 * t.2.2 else t.2.2) })
  | _ => [base]

/-- Legs of LGATH and LSCAT: the virtual address of each entry, and the store side, with A[ABASE], advancing by COUNT lines per entry (R133, R142). -/
def pointerLegs (e : Env) (o : LOps) (gather : Bool) (count : Nat) (entries : List Nat) : List Leg :=
  ((List.range entries.length).zip entries).map (fun p =>
    let va : Int := (p.2 % 2 ^ 48 / 64 * 64 : Nat)
    let st := fun (off : BitVec 20) => ((e.line off.toNat + p.1 * count : Nat) : Int)
    if gather then { src := va, dst := st o.doff } else { src := st o.soff, dst := va })

/-- Byte addresses of `n` virtual lines from `a`, wrapping at 48 bits. -/
def vaRun (a : Int) (n : Nat) : List Nat := (List.range n).map (fun i => ((a + 64 * i) % 2 ^ 48).toNat)

/-- What the legs of a move read, write and access, and whether a marked line was read. -/
structure Moved where
  eff : Effect
  st : State
  marked : Bool := false

/-- A destination line takes bytes of a marked source line. -/
def takesMarked (marks : List Nat) (src fs fd j : Nat) : Bool :=
  (lineRange (64 * src + 64 * fs * j / fd) (max 1 (64 * fs / fd))).any marks.contains

/-- One leg's effect, added to what the earlier legs gave; it reads the stores and HBM as the earlier legs left them (R141: iterations run in order). A virtual line that fails its check, or would carry a marked line, is not written (R95, R289). -/
def moveLeg (e : Env) (o : LOps) (m : Moved) (g : Leg) : Moved :=
  let fs := o.fmtS.toNat
  let fd := o.fmtD.toNat
  let n := o.count.toNat
  let dn := destLines fs fd n
  let s := m.st
  let vs := o.ssp = 2
  let vd := o.dsp = 2
  if (!vs && g.src < 0) || (!vd && g.dst < 0) then { m with eff := { m.eff with probs := m.eff.probs ++ [{ detail := 0x10, status := 1 }] } } else
  -- read
  let srcRef := e.ref o.ssp.toNat
  let srcView := m.eff.writes.foldl (fun x w => if w.dsts.contains srcRef then w.apply srcRef x else x) (s.view e.key e.q srcRef)
  let (rd, s) := if vs then s.vLines e m.eff.hbm false (vaRun g.src n) VLines.empty
    else ({ VLines.empty with data := readBytes srcView.1 (64 * g.src.toNat) (64 * n) }, s)
  let reads := if vs then [] else srcRef.acc (64 * g.src.toNat) (64 * n) false
  let marked := !vs && anyMarked srcView.2 reads
  let data := convertBytes fs fd o.rnd.toNat (o.sat = 1) rd.data
  -- write
  let (wv, s) := if vd then s.vLines e [] true (vaRun g.dst dn) VLines.empty else (VLines.empty, s)
  let dstRef := e.ref o.dsp.toNat
  let probs := rd.probs ++ wv.probs ++ (if vd && marked then [{ detail := 0x12, status := 3 }] else [])
  let sec := rd.sec || wv.sec
  let s : State := if sec then s.security 0xAB 0 (placeCore e.site.die e.site.row e.site.col e.site.core) 0 0 else s
  let f := m.eff
  let out := ((List.range dn).zip (wv.pas.zip (chunks 64 dn data))).filterMap (fun p =>
    if !vs && takesMarked srcView.2 g.src.toNat (fmtWidth fs) (fmtWidth fd) p.1 then none else p.2.1.map (fun pa => (pa, p.2.2)))
  { st := s, marked := m.marked || marked
    eff := { f with
      reads := f.reads ++ (if vs then rd.pas.filterMap id else [])
      accs := f.accs ++ reads ++ (if vd then [] else dstRef.acc (64 * g.dst.toNat) (64 * dn) true)
      writes := f.writes ++ (if !vd && decide (probs = []) then [{ dsts := [dstRef], addr := 64 * g.dst.toNat, data, mark := !vs && marked }] else [])
      hbm := f.hbm ++ (if vd then out else [])
      probs := f.probs ++ probs
      poison := f.poison ++ rd.poison
      hbmBytes := (rd.hbmBytes ++ wv.hbmBytes).foldl (fun l x => aset x.1 ((aget x.1 l).getD 0 + x.2) l) f.hbmBytes
      slotBytes := f.slotBytes + rd.slotBytes + wv.slotBytes } }

/-- What a move of all its legs does: where it read a marked line, every line it writes takes the mark (R289). -/
def moveAll (e : Env) (o : LOps) (base : Effect) (s : State) (legs : List Leg) : Effect × State :=
  let m := legs.foldl (moveLeg e o) { eff := base, st := s }
  (if m.marked then { m.eff with writes := m.eff.writes.map (fun w => { w with mark := true }) } else m.eff, m.st)

/-- The slot or place an L item's overrun is attributed to (Table 6.6). -/
def Env.place (e : Env) : Nat := placeCore e.site.die e.site.row e.site.col e.site.core

/-- LMOV (R147, R148, Table 6.4). -/
def lmovEffect (s : State) (e : Env) (o : LOps) (x : Ext) : Effect × State :=
  let n := o.count.toNat
  let iters := extIterations x
  if n = 0 || iters = 0 then (noOp, s) else
  let lines := iters * max n (destLines o.fmtS.toNat o.fmtD.toNat n)
  let virt := o.ssp = 2 || o.dsp = 2
  let cluster := o.ssp = 1 || o.dsp = 1
  let occ := if virt || cluster then 4 * lines else lines
  let base : Effect :=
    if virt then { occ, due := some (20 + (lines + 15) / 16), plane := .memory, lateDetail := 0x20, latePlace := e.place }
    else { occ, lam := if cluster then occ + 4 else occ + 3 }
  moveAll e o base s (moveLegs e o x)

/-- LGATH and LSCAT (R142 to R144, Table 6.4). The list is read at line PL_ADDR itself: ABASE is added to the store side only (DESIGN CHOICE, log entry 96). -/
def listMove (s : State) (e : Env) (o : LOps) (x : Ext) (gather : Bool) : Effect × State :=
  match x with
  | .ptrs addr count =>
    let n := o.count.toNat
    let c := count.toNat
    if n = 0 || c = 0 then (noOp, s) else
    let cluster := (s.view e.key e.q e.clusterRef).1
    let entries := pointerEntries cluster addr.toNat c
    let occ := c * (4 * n + 1)
    let bad := entries.any (fun w => w / 2 ^ 48 ≠ 0)
    let base : Effect :=
      { occ, due := some (20 + (occ + 63) / 64), plane := .memory, lateDetail := 0x20, latePlace := e.place
        accs := e.clusterRef.acc (64 * addr.toNat) (8 * c) false
        probs := if bad then [{ detail := 0x12, status := 1 }] else [] }
    let (f, s) := moveAll e o base s (pointerLegs e o gather n (entries.map (fun w => if w / 2 ^ 48 = 0 then w else 0)))
    (if bad then { f with writes := [], hbm := [] } else f, s)
  | _ => (noOp, s)

/-- LDA (R152, Table 6.4): a 64-bit word, of which the register takes [47:0]. -/
def ldaEffect (s : State) (e : Env) (o : LdaOps) : Effect × State :=
  if o.ssp = 2 then
    let va := ((((e.a / 64 * 64 : Nat) : Int) + 64 * o.soff.toInt) % 2 ^ 48).toNat
    let (v, s) := s.vLines e [] false [va] VLines.empty
    let s : State := if v.sec then s.security 0xAB 0 e.place 0 0 else s
    ({ occ := 1, due := some 21, plane := .memory, lateDetail := 0x20, latePlace := e.place
       reads := v.pas.filterMap id, reg := some (o.dreg.toNat, leAll (v.data.take 8) % 2 ^ 48), probs := v.probs, poison := v.poison, hbmBytes := v.hbmBytes, slotBytes := v.slotBytes }, s)
  else
    let r := e.ref o.ssp.toNat
    let addr := 64 * e.line o.soff.toNat
    ({ occ := 1, lam := 4, accs := r.acc addr 8 false, reg := some (o.dreg.toNat, leAll (readBytes (s.view e.key e.q r).1 addr 8) % 2 ^ 48) }, s)

end Sys2Proof.Machine
end

