-- ==== Sys2Proof/Machine/VaultRead.lean ====
section
/-!
DEFINITION. Machine/VaultRead.lean: how a vault block is found, authenticated and read (R275, R279, R282, R285, R301).
-/
namespace Sys2Proof.Machine

/-- Key of a block of a stack. -/
def blockKey (die block : Nat) : Nat := 4194304 * die + block

/-- A 384-bit digest as bytes, first byte first. -/
def digestBytes (d : BitVec 384) : Bytes := (toLe d.toNat 48).reverse

/-- The IV of R282. -/
def blockIv (e : ImageEntry) (die idx : Nat) : BitVec 96 :=
  BitVec.ofNat 96 (e.id * 2 ^ 64 + e.gen * 2 ^ 32 + e.pos * 2 ^ 28 + die * 2 ^ 25 + idx)

/-- Keys, by rising slot, of the slots that hold a key ID. -/
def State.keysOf (s : State) (keyId : Nat) : List (BitVec 256) := (s.vault.keys.filter (fun k => k.2.1 = keyId)).map (·.2.2)

/-- The first slot that authenticates the block, counted from 0, with its plaintext (R285). -/
def openWith (iv : BitVec 96) (aad : Bytes) (ct : Bytes) (tag : BitVec 128) : List (BitVec 256) → Nat → Option (Nat × Bytes)
  | [], _ => none
  | k :: t, n => match Config.gcmOpen k iv aad ct tag with
    | some p => some (n, p)
    | none => openWith iv aad ct tag t (n + 1)

/-- A block read: its plaintext and whether a slot above the lowest holder was used, or the detail of Table 10.7. -/
def State.readBlock (s : State) (e : ImageEntry) (die idx : Nat) : Except Nat (Bytes × Bool) :=
  let first := (e.extents.getD die (0, 0)).1
  match aget (blockKey die (first + idx)) s.nv.blocks with
  | none => .error 0x50
  | some (ct, tag) =>
    match openWith (blockIv e die idx) (digestBytes e.digest) ct tag (s.keysOf e.keyId) 0 with
    | none => .error 0x51
    | some (n, p) => .ok (padTo 4096 p, 0 < n)

end Sys2Proof.Machine
end

