-- ==== Sys2Proof/Machine/Fabric.lean ====
section
/-!
DEFINITION. Machine/Fabric.lean: weight streaming and the X queue (R149, R150, R173 to R180, R186, R285 to R289, R365, R366, Tables 5.10, 5.11, 6.5, 10.3).
-/
namespace Sys2Proof.Machine

/-! ## Multicast sets (R127) -/

def Env.mset (s : State) (e : Env) (i : Nat) : Option MSet :=
  match e.site.owner with
  | .deal _ => s.codeForm.bind (fun f => f.native.msets[i]?)
  | .program id _ => (s.openProgram id).bind (fun p => p.info.msets[i]?)

/-- The clusters a set names, in order of die, row, column; a set names none outside the rows and logical columns of its dies (R8, R13). -/
def msetClusters (s : State) (o : CodeOwner) (m : MSet) : List Nat :=
  ((List.range 8).filter (fun d => m.dieMask.getLsbD d)).flatMap (fun d =>
    ((List.range (m.rowHi + 1 - m.rowLo)).filter (fun r => m.rowLo + r < 64)).flatMap (fun r =>
      ((List.range (m.colHi + 1 - m.colLo)).filter (fun c => m.colLo + c < s.columns o d)).map (fun c => cstoreKey d (m.rowLo + r) (m.colLo + c))))

/-! ## WSTREAM -/

/-- A block's lines after the conversion of Table 10.3. -/
def landBlock (fs fd : Nat) (b : Bytes) : Bytes := convertBytes fs fd 0 false b

/-- Lines a block lands as (R287). -/
def blockLines (fs fd : Nat) : Nat := if fs = fd then 64 else 64 * fmtWidth fd / fmtWidth fs

/-- Read NBLK blocks: what lands, the failures, and the reads above the lowest holder (R285, R286). -/
def streamBlocks (s : State) (img : Option ImageEntry) (die first fs fd : Nat) : Nat → Bytes × List (Nat × Nat × Nat) × Nat
  | 0 => ([], [], 0)
  | n + 1 =>
    let r := streamBlocks s img die first fs fd n
    let idx := first + n
    let zero := List.replicate (64 * blockLines fs fd) (0 : Byte)
    match img with
    | none => (r.1 ++ zero, r.2.1 ++ [(die, idx, 0x50)], r.2.2)
    | some e =>
      let blk := (e.extents.getD die (0, 0)).1 + idx
      match s.readBlock e die idx with
      | .error d => (r.1 ++ zero, r.2.1 ++ [(die, blk, d)], r.2.2)
      | .ok (p, above) => (r.1 ++ landBlock fs fd p, r.2.1, r.2.2 + boolNat above)

/-- Every block of a WSTREAM of the slot lies in one of its VAULT windows (R94, R95). -/
def State.vaultCovered (s : State) (o : CodeOwner) (first n : Nat) : Bool :=
  match o, s.dealer.running with
  | .deal slot, some p => (List.range n).all (fun i => p.windows.any (fun w =>
      w.slot = slot && w.kind = 4 && w.read && decide (w.va ≤ 4096 * (first + i)) && decide (4096 * (first + i + 1) ≤ w.va + w.len)))
  | _, _ => false

/-- WSTREAM (R149, R286, R287, Table 6.4). Blocks outside the slot's VAULT windows are a renege FOOTPRINT, and nothing lands (R95). -/
def wstreamEffect (s : State) (e : Env) (o : WstreamOps) : Effect :=
  let n := o.nblk.toNat
  if n = 0 then noOp else
  let clusters := match Env.mset s e o.mset.toNat with | some m => msetClusters s e.site.owner m | none => []
  let img := s.codeForm.bind (fun f => (s.imageOf f.weightImage).map (·.2))
  let fs := o.fmtS.toNat
  let fd := o.fmtD.toNat
  let r := streamBlocks s img e.site.die o.block.toNat fs fd n
  let addr := 64 * e.line o.doff.toNat
  let refs := clusters.map StoreRef.cluster
  let extent := match img with | some i => (i.extents.getD e.site.die (0, 0)).1 | none => 0
  if !s.vaultCovered e.site.owner o.block.toNat n then
    { occ := 1, due := some (64 + n), plane := .memory, lateDetail := 0x21, latePlace := placeDie e.site.die, probs := [{ detail := 0x12, status := 1 }] }
  else
  { occ := 1, due := some (64 + n), plane := .memory, lateDetail := 0x21, latePlace := placeDie e.site.die
    incoming := refs.flatMap (fun c => c.acc addr r.1.length true)
    writes := [{ dsts := refs, addr, data := r.1, mark := true }]
    vaultBytes := 4096 * n, vaultFails := r.2.1, aboveLowest := r.2.2
    vault := some (e.site.die, extent + o.block.toNat, n, 64 * blockLines fs fd) }

/-! ## Tile plane (Table 6.5) -/

def dist (a b : Nat) : Nat := max a b - min a b

/-- λ beyond O of a transfer between clusters. -/
def hopCycles (src dst : Nat) : Nat :=
  if src = dst then 4
  else if ckDie src = ckDie dst then 4 + 2 * (dist (ckRow src) (ckRow dst) + dist (ckCol src) (ckCol dst)) + 4
  else 4 + 2 * (34 - ckCol src) + 4 + 32 + 2 * (34 - ckCol dst) + 4

/-- λ beyond O of a multicast: the largest of any member; the cross-die row for all when another die is named (R186). -/
def castCycles (src : Nat) (m : MSet) (clusters : List Nat) : Nat :=
  if clusters.any (fun c => ckDie c ≠ ckDie src) then 4 + 2 * (34 - ckCol src) + 4 + 32 + 2 * (34 - m.colLo) + 4
  else 4 + 2 * ((clusters.map (fun c => dist (ckRow src) (ckRow c) + dist (ckCol src) (ckCol c))).foldl max 0) + 4

/-- What a send reads of its source store: data, access, and whether a line it reads is marked. -/
def sendSource (s : State) (e : Env) (ssp soff count : Nat) : Bytes × List StoreAcc × Bool :=
  let r := e.ref ssp
  let v := s.view e.key e.q r
  let addr := 64 * e.line soff
  let acc := r.acc addr (64 * count) false
  (readBytes v.1 addr (64 * count), acc, anyMarked v.2 acc)

/-- A no-op of the X queue: with RPE set its completion posts the remote chip too (R150, R164; DESIGN CHOICE, log entry 98). -/
def noSend (clusters : List Nat) (dcore rpe rchip : Nat) : Effect :=
  { noOp with remote := if rpe = 1 then clusters.map (fun c => (c * 64 + dcore, rchip)) else [] }

/-- An open program's target lies on a die outside its window (R180). -/
def offWindow (s : State) (e : Env) (clusters : List Nat) : Bool :=
  match e.site.owner, s.svis.openWin with
  | .program _ _, some w => clusters.any (fun c => !w.dieMask.getLsbD (ckDie c))
  | _, _ => false

/-- The destination cluster of an XPUT, none when it lies outside the rows and the logical columns of its die (R13, R150). -/
def xputTarget (s : State) (x : Site) (o : XputOps) : Option Nat :=
  let die := if o.rel = 1 then x.die else o.die.toNat
  let row : Int := if o.rel = 1 then x.row + o.row.toInt else o.row.toNat
  let col : Int := if o.rel = 1 then x.col + o.col.toInt else o.col.toNat
  if row < 0 || 63 < row || col < 0 || (s.columns x.owner die : Int) ≤ col then none else some (cstoreKey die row.toNat col.toNat)

/-- XPUT (R150, R174, R177, Table 6.5). -/
def xputEffect (s : State) (e : Env) (o : XputOps) : Effect :=
  let n := o.count.toNat
  match xputTarget s e.site o with
  | none => if n = 0 then noOp else { noOp with probs := [{ detail := 0x10, status := 1 }] }
  | some c =>
    if n = 0 then noSend [c] o.dcore.toNat o.rpe.toNat o.rchip.toNat else
    let src := sendSource s e o.ssp.toNat o.soff.toNat n
    let dst : StoreRef := if o.dsp = 0 then .core (c * 64 + o.dcore.toNat) else .cluster c
    let addr := 64 * e.line o.doff.toNat
    { occ := 4 * n, lam := 4 * n + hopCycles (e.key / 64) c, plane := .tile, lateDetail := 0x20, latePlace := e.place
      accs := src.2.1, incoming := dst.acc addr (64 * n) true
      writes := [{ dsts := [dst], addr, data := src.1, mark := src.2.2 }]
      remote := if o.rpe = 1 then [(c * 64 + o.dcore.toNat, o.rchip.toNat)] else []
      probs := if offWindow s e [c] then [{ detail := 0x10, status := 1 }] else [] }

/-- XCAST (R175, R186, Table 6.5). -/
def xcastEffect (s : State) (e : Env) (o : XcastOps) : Effect :=
  let n := o.count.toNat
  match Env.mset s e o.mset.toNat with
  | none => noOp
  | some m =>
    let clusters := msetClusters s e.site.owner m
    if n = 0 then noSend clusters o.dcore.toNat o.rpe.toNat o.rchip.toNat else
    let src := sendSource s e o.ssp.toNat o.soff.toNat n
    let refs := clusters.map StoreRef.cluster
    let addr := 64 * e.line o.doff.toNat
    { occ := 4 * n, lam := 4 * n + castCycles (e.key / 64) m clusters, plane := .tile, lateDetail := 0x20, latePlace := e.place
      accs := src.2.1, incoming := refs.flatMap (fun r => r.acc addr (64 * n) true)
      writes := [{ dsts := refs, addr, data := src.1, mark := src.2.2 }]
      remote := if o.rpe = 1 then clusters.map (fun c => (c * 64 + o.dcore.toNat, o.rchip.toNat)) else []
      probs := if offWindow s e clusters then [{ detail := 0x10, status := 1 }] else [] }

/-! ## XDECK -/

/-- The 16-byte transfer header (R365); its DOFF is the effective line (R133). -/
def xferHeader (deal doff : Nat) (o : XdeckOps) : Bytes :=
  toLe (deal % 65536) 2
    ++ toLe (o.die.toNat + 2 ^ 3 * o.row.toNat + 2 ^ 9 * o.col.toNat + 2 ^ 14 * o.dcore.toNat + 2 ^ 20 * (doff % 4096)
        + 2 ^ 32 * o.count.toNat + 2 ^ 44 * o.rpe.toNat + 2 ^ 45 * o.rchip.toNat) 14

/-- Runs of the lines `first` to `first + n - 1` that carry no mark: where each begins, counted from `first`, and its length. -/
def unmarkedRuns (marks : List Nat) (first : Nat) : Nat → List (Nat × Nat)
  | 0 => []
  | n + 1 =>
    let r := unmarkedRuns marks first n
    if marks.contains (first + n) then r
    else match r.getLast? with
      | some (a, k) => if a + k = n then r.dropLast ++ [(a, k + 1)] else r ++ [(n, 1)]
      | none => [(n, 1)]

/-- The transfers of an XDECK: one, or one for each run of unmarked lines, the last of which carries RPE (R289; DESIGN CHOICE, log entry 98). -/
def xferPieces (deal doff : Nat) (o : XdeckOps) (data : Bytes) (runs : List (Nat × Nat)) : List Bytes :=
  ((List.range runs.length).zip runs).map (fun p =>
    let last := p.1 + 1 = runs.length
    xferHeader deal (doff + p.2.1) { o with count := BitVec.ofNat 12 p.2.2, rpe := if last then o.rpe else 0, rchip := if last then o.rchip else 0 }
      ++ (data.drop (64 * p.2.1)).take (64 * p.2.2))

/-- XDECK (R365, R366, Table 6.4). A marked source line is not sent, a renege FOOTPRINT (R289); a target past the end of the cluster store is outside its buffer (R133); an open program may not issue it (R366). -/
def xdeckEffect (s : State) (e : Env) (o : XdeckOps) : Effect :=
  let n := o.count.toNat
  let link := o.link.toNat
  match e.site.owner with
  | .program _ _ => { noOp with probs := [{ detail := 0x10, status := 1 }] }
  | .deal _ =>
    if n = 0 then noOp else
    let src := sendSource s e o.ssp.toNat o.soff.toNat n
    let doff := e.line o.doff.toNat
    { occ := 4 * n, due := some (48 + (n + 23) / 24), plane := .memory, lateDetail := 0x23, latePlace := placeLink link
      accs := src.2.1
      probs := (if src.2.2 then [{ detail := 0x12, status := 3 }] else []) ++ (if 4096 < doff + n then [{ detail := 0x10, status := 1 }] else [])
      deckBytes := some (link, 64 * n)
      deckOut := if 4096 < doff + n then [] else
        (xferPieces s.cad.deal doff o src.1 (unmarkedRuns (s.view e.key e.q (e.ref o.ssp.toNat)).2 (e.line o.soff.toNat) n)).map (fun b => (link, b)) }

end Sys2Proof.Machine
end

