-- ==== Sys2Proof/Machine/Issue.lean ====
section
/-!
DEFINITION. Machine/Issue.lean: an SVIS word issues: the C queue, ordered and region mode, open programs' ends (R128 to R131, R151 to R166).
-/
namespace Sys2Proof.Machine

/-! ## Words and queues -/

/-- Queue of an instruction (Tables 5.1, 5.6). -/
def opQueue : SvisOp → Nat
  | .mma _ _ => 0
  | .mzero _ => 0
  | .vec _ _ => 1
  | .sfn _ => 2
  | .sfuse _ => 2
  | .sstat _ => 2
  | .smerge _ => 2
  | .smask _ => 2
  | .lmov _ _ => 3
  | .lgath _ _ => 3
  | .lscat _ _ => 3
  | .lda _ => 3
  | .wstream _ => 3
  | .xput _ => 4
  | .xcast _ => 4
  | .xdeck _ => 4
  | _ => 5

/-- Words of the instruction: one, or two with an extension (R132). -/
def opWords : SvisOp → Nat
  | .mma _ x => if x = .none then 1 else 2
  | .lmov _ x => if x = .none then 1 else 2
  | .lgath _ x => if x = .none then 1 else 2
  | .lscat _ x => if x = .none then 1 else 2
  | _ => 1

/-- Address registers an instruction reads. -/
def regsRead (b : Base) (op : SvisOp) : List Nat :=
  b.abase.toNat :: (match op with
    | .mma o _ => if o.mode = 1 || o.mode = 2 then [bits o.mparam.toNat 9 4] else []
    | .smask o => [o.qreg.toNat, o.kreg.toNat]
    | .adda d _ => [d.toNat]
    | .addid d _ _ => [d.toNat]
    | _ => [])

/-- The address register an instruction writes. -/
def regWritten : SvisOp → Option Nat
  | .lda o => some o.dreg.toNat
  | .seta d _ => some d.toNat
  | .adda d _ => some d.toNat
  | .addid d _ _ => some d.toNat
  | .repeatF o => if o.stepreg = 0 then none else some o.stepreg.toNat
  | _ => none

/-- An access past the end of its store, or out of region (R158, R165). -/
def State.badAccess (s : State) (a : StoreAcc) : Bool := a.outside || s.outOfRegion a

/-- LGATH and LSCAT, whose entries' faults are reneges FOOTPRINT (R144). -/
def listed : SvisOp → Bool
  | .lgath _ _ => true
  | .lscat _ _ => true
  | _ => false

/-- Words that the Blocker refuses by what it knows of their stream and form (Table 5.10, Table 5.13, R115, R134, R150, R366): WSTREAM outside deal code or in a stream of more than one core, XDECK in a form of MODE 0, an XPUT of ordered code to a cluster that is none. -/
def State.wordAllowed (s : State) (x : Site) (op : SvisOp) : Bool :=
  match op with
  | .wstream _ => (match x.owner, s.siteStream x with
    | .deal _, some t => (maskBits t.dieMask 8).length * (t.rowHi + 1 - t.rowLo) * (t.colHi + 1 - t.colLo) * (maskBits t.coreMask 64).length = 1
    | _, _ => false)
  | .xdeck _ => (match x.owner, s.codeForm with
    | .deal _, some f => decide (f.mode ≠ 0)
    | .deal _, none => false
    | .program _ _, _ => true)
  | .xput o => regionMode x.owner || (xputTarget s x o).isSome
  | _ => true

/-- The words of a stream are one text for every core of its set (R120): by program or form, stream and word. -/
def State.codeKey (s : State) (x : Site) (b : Base) (op : SvisOp) : CodeWord :=
  { prog := match x.owner with | .program id _ => some id | .deal _ => none
    form := match x.owner with | .program _ _ => 0 | .deal _ => (match s.codeForm with | some f => f.id | none => 0)
    stream := x.stream, word := x.word, base := b, op }

def CodeWord.sameSpot (c d : CodeWord) : Bool := c.prog = d.prog && c.form = d.form && c.stream = d.stream && c.word = d.word

/-- The word is the one its stream holds there, or nothing has issued there yet. -/
def State.sameWord (s : State) (x : Site) (b : Base) (op : SvisOp) : Bool :=
  let c := s.codeKey x b op
  match s.svis.code.find? c.sameSpot with
  | some d => d = c
  | none => true

/-- Hold the word for every later core and iteration. -/
def State.holdWord (s : State) (x : Site) (b : Base) (op : SvisOp) : State :=
  let c := s.codeKey x b op
  if s.svis.code.any c.sameSpot then s else { s with svis := { s.svis with code := s.svis.code ++ [c] } }

/-! ## Lane masks (R59, R68, R74, R101, R260) -/

/-- The word works on lanes that the running deal has masked: a folded slot's, or those of a position that is void, folded or unfilled. -/
def State.laneMasked (s : State) (x : Site) : Bool :=
  match x.owner, s.dealer.running with
  | .deal slot, some p => p.deadSlots.contains slot || (match x.lane with | some i => !p.lanes.contains (slot, i) | none => false)
  | _, _ => false

/-- Masked lanes are written as zero, read and write no virtual line and bring no cause of their own; a weight stream has no lanes. -/
def Effect.masked (f : Effect) : Effect :=
  if f.vault.isSome then f else
  { f with
    writes := f.writes.map (fun w => { w with data := List.replicate w.data.length 0, mark := false })
    hbm := [], poison := [], hbmBytes := [], slotBytes := 0, sat := false
    reg := f.reg.map (fun r => (r.1, if f.plane = .memory then 0 else r.2))
    probs := f.probs.filter (·.detail ≠ 0x12)
    deckOut := f.deckOut.map (fun x => (x.1, x.2.take 16 ++ List.replicate (x.2.length - 16) 0)) }

/-- The effect of an instruction that is not of the C queue; a C instruction occupies its slot (Table 6.4). -/
def buildOp (s : State) (e : Env) (op : SvisOp) : Effect × State :=
  match op with
  | .mma o x => (mmaEffect s e o x, s)
  | .mzero o => (mzeroEffect e o, s)
  | .vec v o => (vecEffect s e v o, s)
  | .sfn o => (sfnEffect s e o, s)
  | .sfuse o => (sfuseEffect s e o, s)
  | .sstat o => (sstatEffect s e o, s)
  | .smerge o => (smergeEffect s e o, s)
  | .smask o => (smaskEffect s e o, s)
  | .lmov o x => lmovEffect s e o x
  | .lgath o x => listMove s e o x true
  | .lscat o x => listMove s e o x false
  | .lda o => ldaEffect s e o
  | .wstream o => (wstreamEffect s e o, s)
  | .xput o => (xputEffect s e o, s)
  | .xcast o => (xcastEffect s e o, s)
  | .xdeck o => (xdeckEffect s e o, s)
  | .nop | .repeatF _ | .seta _ _ | .adda _ _ | .addid _ _ _ | .region _ | .rfree _ _ | .mark _ | .rwait _ _ | .endP => (noOp, s)

/-! ## The C queue (Table 5.12) -/

/-- ID of ADDID: core, row, column, die, MEMBER. -/
def State.addIdValue (s : State) (x : Site) (sel : Nat) : Nat :=
  match sel with
  | 0 => x.core
  | 1 => x.row
  | 2 => x.col
  | 3 => x.die
  | _ => match s.codeForm with | some f => f.member | none => 0

/-- The region's store. -/
def regionRef (x : Site) (store : BitVec 1) : StoreRef := if store = 0 then .core (siteKey x) else .cluster (siteCkey x)

/-- REGION is refused whole: past the end of the store, NUM live, or overlapping a live region (R157). -/
def State.regionRefused (s : State) (r : StoreRef) (o : RegionOps) : Bool :=
  decide (r.lines < o.base.toNat + o.len.toNat) || (s.storeRegions r).any (fun g => g.num = o.num.toNat || g.meets o.base.toNat o.len.toNat)

/-- What a C instruction does at issue, beside occupying its slot. -/
def State.control (s : State) (x : Site) (op : SvisOp) (cycle : Nat) : State :=
  let k := siteKey x
  let write := fun (d v : Nat) => s.setCore k ((s.core k).writeReg d cycle v)
  match op with
  | .seta d imm => write d.toNat imm.toNat
  | .adda d imm => write d.toNat ((((s.core k).lastReg d.toNat : Int) + imm.toInt) % 2 ^ 48).toNat
  | .addid d sel scale =>
    write d.toNat ((((s.core k).lastReg d.toNat : Int) + (s.addIdValue x sel.toNat : Int) * scale.toInt * 64) % 2 ^ 48).toNat
  | .region o =>
    let r := regionRef x o.store
    if o.len = 0 || s.regionRefused r o then s
    else s.setRegions r (s.storeRegions r ++ [{ num := o.num.toNat, base := o.base.toNat, len := o.len.toNat, access := o.access.toNat }])
  | .rfree num store =>
    let r := regionRef x store
    State.releaseRegions (s.setRegions r ((s.storeRegions r).map (fun g => if g.num = num.toNat then { g with freeing := true } else g))) r
  | .mark v => { s with svis := { s.svis with trace := s.svis.trace ++ [(k, v)] } }
  | _ => s

/-- Run-time refusals of a C instruction in an open program: a refused declaration (R157). -/
def State.controlProb (s : State) (x : Site) (op : SvisOp) : List Prob :=
  match op with
  | .region o => if o.len ≠ 0 && s.regionRefused (regionRef x o.store) o then [{ detail := 0x10, status := 1 }] else []
  | _ => []

/-- The stream's position after an instruction: REPEAT opens its frame, END ends the core's stream (R129, R163, R164). -/
def StreamPos.after (p : StreamPos) (x : Site) (op : SvisOp) (cycle : Nat) : StreamPos :=
  let p : StreamPos := { p with last := aset (opQueue op) (sitePlace x) p.last, done := p.done + opWords op }
  match op with
  | .repeatF o => { p with loops := p.loops ++ [{ path := x.path, word := x.word, base := cycle, body := o.body.toNat, count := o.count.toNat,
                                                   period := o.period.toNat, iter := 0, stepReg := o.stepreg.toNat, step := o.step.toInt }] }
  | .endP => { p with ended := true }
  | _ => p

/-! ## The end of an open program (R163) -/

/-- Cores a stream runs on. -/
def streamCores (t : Stream) : Nat :=
  (maskBits t.dieMask 8).length * (t.rowHi + 1 - t.rowLo) * (t.colHi + 1 - t.colLo) * (maskBits t.coreMask 64).length

/-- The core has no word of the stream left: END has issued, or every iteration of every word has. -/
def StreamPos.finished (p : StreamPos) (words : Nat) : Bool := p.ended || decide ((p.done : Int) = p.total words)

def ownedBy (id : Nat) : CodeOwner → Bool
  | .program j _ => j = id
  | .deal _ => false

/-- Words of stream `i` of a program. -/
def Program.words (p : Program) (i : Nat) : Nat := match p.info.streams[i]? with | some t => t.words | none => 0

/-- A word of the program is handed to a queue and has not issued. -/
def State.programWaits (s : State) (id : Nat) : Bool := s.svis.cores.any (fun c => c.2.handed.any (·.program = id))

/-- Every core of every stream has finished and no word waits: by END, or by its last word with nothing of that core in flight (R163; several cores: DESIGN CHOICE, log entry 57). -/
def State.programFinished (s : State) (p : Program) : Bool :=
  let poss := s.svis.cores.flatMap (fun c => (c.2.streams.filter (fun q => ownedBy p.id q.owner && q.finished (p.words q.stream)
    && (q.ended || !s.svis.items.any (fun i => i.core = c.1 && ownedBy p.id i.owner)))))
  decide (poss.length = (p.info.streams.map streamCores).sum) && !s.programWaits p.id

/-- End every running program that has met a fault, once the words before it have issued, and every one whose work is done, with DONE. -/
def State.endPrograms (s : State) (word : Nat) : State :=
  (s.svis.programs.filter (fun p => p.start.isSome)).foldl (fun s p =>
    match p.fault with
    | some (status, w, _, _, _) => if s.programWaits p.id then s else s.stopProgram p.id status w
    | none => if s.programFinished p then s.stopProgram p.id 0x00 word else s) s

/-- Words handed to a core behind place `seq` of a stream of the program, and those of its other cores and streams. -/
def fallsBehind (id k stream seq : Nat) (core : Nat) (h : Handed) : Bool :=
  h.program = id && !(core = k && h.stream = stream && decide (h.seq < seq))

/-- An open program stops at the first instruction that faults: earlier ones of its core that wait in their queues still issue, and nothing later does (R166). -/
def State.faultProgram (s : State) (id status word k stream seq : Nat) : State :=
  let s : State := { s with svis := { s.svis with
    cores := s.svis.cores.map (fun c => (c.1, { c.2 with handed := c.2.handed.filter (fun h => !fallsBehind id k stream seq c.1 h) }))
    programs := s.svis.programs.map (fun p => if p.id = id then { p with fault := some (status, word, k, stream, seq) } else p) } }
  if s.programWaits id then s else s.stopProgram id status word

/-! ## Issue in ordered mode -/

/-- Accesses of an instruction, local and incoming, that lie past their store or out of region (R144, R158, R165): the list of LGATH and LSCAT comes first among them. -/
def State.regionProbs (s : State) (op : SvisOp) (f : Effect) : List Prob :=
  let bad := fun (l : List StoreAcc) (d : Nat) => if l.any s.badAccess then ([{ detail := d, status := 1 }] : List Prob) else []
  if listed op then bad (f.accs.take 1) 0x10 ++ bad (f.accs.drop 1) 0x12 else bad (f.accs ++ f.incoming) 0x10

/-- Items whose access an access of the instruction meets, and whether the item's is the later of the two (R159). -/
def State.meetings (s : State) (e : Env) (f : Effect) : List (Item × Bool) :=
  let look := fun (incoming : Bool) (l : List StoreAcc) => l.flatMap (fun a =>
    (s.svis.items.filter (s.meetsItem e.key e.q e.cycle false a)).map (fun i => (i, s.itemLater e.cycle (accOrder incoming f.plane e.key e.q) a i)))
  look false f.accs ++ look true f.incoming

/-- Conflicts in deal code: the instruction's own, and those of items of the same cycle that stand behind it, which are reneges of their slots (R160). -/
def State.conflictProbs (s : State) (e : Env) (f : Effect) : List Prob :=
  if (s.meetings e f).any (!·.2) then [{ detail := 0x10, status := 1 }] else []

def State.conflictOthers (s : State) (e : Env) (f : Effect) : State :=
  ((((s.meetings e f).filter (·.2)).map (·.1)).dedup).foldl (fun s i => match i.owner with
    | .deal slot => s.renege 0x10 slot i.die
    | .program _ _ => s) s

/-- Word index in the program of a word (Table 19.6). -/
def State.wordIndex (s : State) (x : Site) : Nat := (match s.siteStream x with | some t => t.first | none => 0) + x.word

def Env.make (x : Site) (b : Base) (op : SvisOp) (cycle : Nat) (core : Core) : Env :=
  { site := x, key := siteKey x, q := opQueue op, cycle, core, abase := b.abase.toNat }

/-- Queue what an XDECK sends, or register the overrun of a link that is not up, which falls due at the due trick (R104, R366). -/
def State.sendDeck (s : State) (e : Env) (f : Effect) : State :=
  match f.deckOut with
  | [] => s
  | (k, _) :: _ =>
    if (s.deckLink k).st = 2 then f.deckOut.foldl (fun s x => s.deckSend x.1 1 x.2) s
    else s.overrun 0x23 0xFFF e.site.die (placeLink k) (e.cycle / 64 + f.due.getD 0)

/-- Deal code issues (R102): each failing check is a renege of its slot, and the instruction goes on. -/
def State.issueDeal (s : State) (e : Env) (b : Base) (op : SvisOp) (slot word : Nat) : State :=
  match s.codeForm with
  | none => s
  | some form =>
    let r := buildOp s e op
    let f := if s.laneMasked e.site then r.1.masked else r.1
    let s := r.2
    let probs := f.probs ++ s.regionProbs op f ++ s.conflictProbs e f
    let s := ((probs.map (·.detail)).dedup).foldl (fun s d => s.renege d slot e.site.die) s
    let s := s.conflictOthers e f
    let s := s.launch e b f word
    let c := s.core e.key
    let s := s.setCore e.key { c with dealWins := sins (e.cycle / 16384) c.dealWins }
    let s : State := { s with vault := { s.vault with aboveLowest := s.vault.aboveLowest + f.aboveLowest } }
    let s := ((s.meter form f e.site.die slot).noteReads form e.site.die f).noteSat e.site.owner f.sat
    (s.sendDeck e f).control e.site op e.cycle

/-- An open program's instruction issues, or stops the program before it issues (R165, R166). Two accesses of an ordered program that conflict are neither a renege nor a status of Table 5.14: the program goes on (DESIGN CHOICE, log entry 57). -/
def State.issueProgram (s : State) (e : Env) (b : Base) (op : SvisOp) (id word : Nat) : State :=
  let r := buildOp s e op
  let f := r.1
  let s := r.2
  match f.probs ++ s.controlProb e.site op ++ s.regionProbs op f with
  | p :: _ => s.faultProgram id p.status word e.key e.site.stream e.order
  | [] => ((s.launch e b f word).noteSat e.site.owner f.sat).control e.site op e.cycle

/-- The core after its chip wait in ordered mode: a wait found unposted leaves the count and is handled under R103 (R155). -/
def State.waitOrdered (s : State) (x : Site) (b : Base) (cycle : Nat) (core : Core) : Core × State :=
  match core.takeChips b with
  | some c => (c, s)
  | none => match x.owner with
    | .deal slot => (core, s.chipMissing x b cycle slot)
    | .program _ _ => (core, s)

/-- A word of an ordered stream issues at its stated cycle (R128); an earlier cycle than the queue allows is no issue (R184). -/
def State.issueOrdered (s : State) (x : Site) (b : Base) (op : SvisOp) : State :=
  let pos := s.streamPos x
  match pos.baseOf x op (opWords op) (s.streamBase x) (s.streamWords x) with
  | none => s
  | some base =>
    let cycle := base + b.issue.toNat
    let core0 := s.core (siteKey x)
    let qs := core0.qstate (opQueue op)
    if pos.ended || !pos.follows x (opQueue op) false || cycle / 64 ≠ s.cad.trick || decide (cycle < qs.issue + qs.occ) then s else
    let word := s.wordIndex x
    let (core, s) := s.waitOrdered x b cycle (core0.settle cycle)
    let e := Env.make x b op cycle core
    let s := (s.holdWord x b op).setStreamPos x (pos.after x op cycle)
    -- the position belongs to the core as it now stands
    let e := { e with core := { core with streams := (s.core (siteKey x)).streams } }
    match x.owner with
    | .deal slot => s.issueDeal e b op slot word
    | .program id _ => (s.issueProgram e b op id word).endPrograms word

/-! ## Issue in region mode (R162) -/

/-- The site of a handed word. -/
def handedSite (k : Nat) (h : Handed) : Site :=
  { die := ckDie (k / 64), row := ckRow (k / 64), col := ckCol (k / 64), core := k % 64, stream := h.stream, owner := .program h.program true }

/-- An earlier instruction of the stream in program order that writes a register this one reads is pending: handed and not issued, or an LDA not complete. -/
def State.registerPending (s : State) (k : Nat) (h : Handed) : Bool :=
  (regsRead h.base h.op).any (fun r => r ≠ 0 &&
    ((s.core k).handed.any (fun g => g.program = h.program && g.stream = h.stream && decide (g.seq < h.seq) && regWritten g.op = some r)
      || s.svis.items.any (fun i => i.core = k && ownedBy h.program i.owner && i.stream = h.stream && decide (i.order < h.seq)
          && (match i.reg with | some (d, _) => d = r | none => false))))

/-- RWAIT and RFREE wait until their region has no access in flight (Tables 5.12, 5.13). -/
def State.regionWaits (s : State) (x : Site) (op : SvisOp) : Bool :=
  let busy := fun (num : BitVec 6) (store : BitVec 1) =>
    let r := regionRef x store
    (s.storeRegions r).any (fun g => g.num = num.toNat && s.regionBusy r g)
  match op with
  | .rwait n st => busy n st
  | .rfree n st => busy n st
  | _ => false

/-- The earliest cycle a queue lets its next instruction issue in (R122, R184). -/
def Core.nextCycle (c : Core) (q trick : Nat) : Nat := max (64 * trick) ((c.qstate q).issue + (c.qstate q).occ)

/-- The head of a queue issues when its wait is met, its registers are written and the scoreboard finds no conflict of its local accesses; none while it waits. An incoming write waits at its Felt port instead (R162, R163). -/
def State.tryHanded (s : State) (k : Nat) (h : Handed) : Option State :=
  let x := handedSite k h
  let core := (s.core k).settle (2 ^ 62)
  let cycle := core.nextCycle (opQueue h.op) s.cad.trick
  match core.takeChips h.base with
  | none => none
  | some core =>
    if s.registerPending k h || s.regionWaits x h.op then none else
    let core := { core with handed := core.handed.erase h }
    let e := { Env.make x h.base h.op cycle core with order := h.seq }
    let f := (buildOp s e h.op).1
    if f.probs = [] && f.accs.any (fun a => s.conflicts k (opQueue h.op) cycle true a) then none
    else some (((s.setCore k core).issueProgram e h.base h.op h.program h.word).endPrograms h.word)

/-- Heads of the queues of a core: the first handed word of each queue. -/
def queueHeads (hs : List Handed) : List Handed := (List.range 6).filterMap (fun q => hs.find? (fun h => opQueue h.op = q))

/-- The first head anywhere that can issue. -/
def firstHead (s : State) : List (Nat × Handed) → Option State
  | [] => none
  | (k, h) :: t => match s.tryHanded k h with
    | some s' => some s'
    | none => firstHead s t

/-- A landing waits at its Felt port while a local access in flight conflicts with it, or an incoming one of an item before it (R159, R163). -/
def State.incomingBlocked (s : State) (i : Item) : Bool :=
  i.incoming.any (fun a => s.svis.items.any (fun j => (j.core ≠ i.core || j.queue ≠ i.queue)
    && (j.accs.any (fun b => s.sameRegion a b) || (decide (j.id < i.id) && j.incoming.any (fun b => s.sameRegion a b)))))

def firstHeld (s : State) : List Item → Option State
  | [] => none
  | i :: t => if i.held && !s.incomingBlocked i then some (s.finishItem i) else firstHeld s t

/-- Issue and land what can, `n` times at most. -/
def pump : Nat → State → State
  | 0, s => s
  | n + 1, s =>
    match firstHead s (s.svis.cores.flatMap (fun c => (queueHeads c.2.handed).map (fun h => (c.1, h)))) with
    | some s' => pump n s'
    | none => match firstHeld s s.svis.items with
      | some s' => pump n s'
      | none => s

def State.pumpAll (s : State) : State :=
  pump ((s.svis.cores.map (fun c => c.2.handed.length)).sum + (s.svis.items.filter (·.held)).length) s

/-- A word of a region stream is handed to its queue unless the queue holds 8 (R162). -/
def State.handWord (s : State) (x : Site) (b : Base) (op : SvisOp) : State :=
  let pos := s.streamPos x
  let k := siteKey x
  match x.owner, pos.baseOf x op (opWords op) (s.streamBase x) (s.streamWords x) with
  | .program id _, some _ =>
    if pos.ended || !pos.follows x (opQueue op) true || 8 ≤ ((s.core k).handed.filter (fun h => opQueue h.op = opQueue op)).length then s else
    let word := s.wordIndex x
    let s := (s.holdWord x b op).setStreamPos x (pos.after x op 0)
    let c := s.core k
    let seq := (c.handed.map (·.seq)).foldl max s.svis.nextItem + 1
    State.pumpAll (s.setCore k { c with handed := c.handed ++ [{ seq, stream := x.stream, program := id, word, base := b, op }] })
  | _, _ => s

/-- One SVIS word at its core: nothing where the core may not issue it (log entry 1), where the Blocker admits no such word (log entry 25), or where its stream holds another word (R120). -/
def State.issue (s : State) (x : Site) (b : Base) (op : SvisOp) : State :=
  if !s.mayIssue x || !svisLegal (regionMode x.owner) b op || !s.wordAllowed x op || !s.sameWord x b op then s
  else if regionMode x.owner then s.handWord x b op else s.issueOrdered x b op

end Sys2Proof.Machine
end

