-- ==== Sys2Proof/Machine/SvisExec.lean ====
section
/-!
DEFINITION. Machine/SvisExec.lean: the SVIS commands: one word issuing at one core, iterations, and the completion of items in flight (Table 5.6, R129, R177, R179, R183).
-/
namespace Sys2Proof.Machine

/-- MMA (R135). -/
def execMma (x : Site) (b : Base) (o : MmaOps) (e : Ext) (s : State) : Out := .next (s.issue x b (.mma o e))

/-- MZERO (R139). -/
def execMzero (x : Site) (b : Base) (o : MzeroOps) (s : State) : Out := .next (s.issue x b (.mzero o))

/-- VADD (R145): S1 + S2, rounded once. -/
def execVadd (x : Site) (b : Base) (o : VOps) (s : State) : Out := .next (s.issue x b (.vec .add o))

/-- VSUB (R145): S1 − S2. -/
def execVsub (x : Site) (b : Base) (o : VOps) (s : State) : Out := .next (s.issue x b (.vec .sub o))

/-- VMUL (R145). -/
def execVmul (x : Site) (b : Base) (o : VOps) (s : State) : Out := .next (s.issue x b (.vec .mul o))

/-- VFMA (R145): S1 × S2 + S3 with one rounding. -/
def execVfma (x : Site) (b : Base) (o : VOps) (s : State) : Out := .next (s.issue x b (.vec .fma o))

/-- VMAX (R204). -/
def execVmax (x : Site) (b : Base) (o : VOps) (s : State) : Out := .next (s.issue x b (.vec .max o))

/-- VMIN (R204). -/
def execVmin (x : Site) (b : Base) (o : VOps) (s : State) : Out := .next (s.issue x b (.vec .min o))

/-- VABS (R145). -/
def execVabs (x : Site) (b : Base) (o : VOps) (s : State) : Out := .next (s.issue x b (.vec .abs o))

/-- VNEG (R145). -/
def execVneg (x : Site) (b : Base) (o : VOps) (s : State) : Out := .next (s.issue x b (.vec .neg o))

/-- VCVT (R145, R197): copies with conversion. -/
def execVcvt (x : Site) (b : Base) (o : VOps) (s : State) : Out := .next (s.issue x b (.vec .cvt o))

/-- VCMPLT (R145, R204): 1.0 or 0.0. -/
def execVcmplt (x : Site) (b : Base) (o : VOps) (s : State) : Out := .next (s.issue x b (.vec .cmplt o))

/-- VCMPEQ (R145, R204). -/
def execVcmpeq (x : Site) (b : Base) (o : VOps) (s : State) : Out := .next (s.issue x b (.vec .cmpeq o))

/-- VSEL (R145): S1 where S3 is nonzero, else S2. -/
def execVsel (x : Site) (b : Base) (o : VOps) (s : State) : Out := .next (s.issue x b (.vec .sel o))

/-- VQMX (R201): MX blocks and their scales. -/
def execVqmx (x : Site) (b : Base) (o : VOps) (s : State) : Out := .next (s.issue x b (.vec .qmx o))

/-- VAND (R145): on patterns. -/
def execVand (x : Site) (b : Base) (o : VOps) (s : State) : Out := .next (s.issue x b (.vec .and o))

/-- VOR (R145): on patterns. -/
def execVor (x : Site) (b : Base) (o : VOps) (s : State) : Out := .next (s.issue x b (.vec .or o))

/-- SFN (R221, R224). -/
def execSfn (x : Site) (b : Base) (o : SfnOps) (s : State) : Out := .next (s.issue x b (.sfn o))

/-- SFUSE (R229). -/
def execSfuse (x : Site) (b : Base) (o : SfuseOps) (s : State) : Out := .next (s.issue x b (.sfuse o))

/-- SSTAT (R231). -/
def execSstat (x : Site) (b : Base) (o : SstatOps) (s : State) : Out := .next (s.issue x b (.sstat o))

/-- SMERGE (R234). -/
def execSmerge (x : Site) (b : Base) (o : SmergeOps) (s : State) : Out := .next (s.issue x b (.smerge o))

/-- SMASK (R232). -/
def execSmask (x : Site) (b : Base) (o : SmaskOps) (s : State) : Out := .next (s.issue x b (.smask o))

/-- LMOV (R147). -/
def execLmov (x : Site) (b : Base) (o : LOps) (e : Ext) (s : State) : Out := .next (s.issue x b (.lmov o e))

/-- LGATH (R142). -/
def execLgath (x : Site) (b : Base) (o : LOps) (e : Ext) (s : State) : Out := .next (s.issue x b (.lgath o e))

/-- LSCAT (R142). -/
def execLscat (x : Site) (b : Base) (o : LOps) (e : Ext) (s : State) : Out := .next (s.issue x b (.lscat o e))

/-- LDA (R152). -/
def execLda (x : Site) (b : Base) (o : LdaOps) (s : State) : Out := .next (s.issue x b (.lda o))

/-- WSTREAM (R149, R286). -/
def execWstream (x : Site) (b : Base) (o : WstreamOps) (s : State) : Out := .next (s.issue x b (.wstream o))

/-- XPUT (R150). -/
def execXput (x : Site) (b : Base) (o : XputOps) (s : State) : Out := .next (s.issue x b (.xput o))

/-- XCAST (R175). -/
def execXcast (x : Site) (b : Base) (o : XcastOps) (s : State) : Out := .next (s.issue x b (.xcast o))

/-- XDECK (R366). -/
def execXdeck (x : Site) (b : Base) (o : XdeckOps) (s : State) : Out := .next (s.issue x b (.xdeck o))

/-- NOP: occupies its slot; waits and posts (Table 5.12). -/
def execNop (x : Site) (b : Base)  (s : State) : Out := .next (s.issue x b .nop)

/-- REPEAT (R129): opens a frame. -/
def execRepeatFrame (x : Site) (b : Base) (o : RepeatOps) (s : State) : Out := .next (s.issue x b (.repeatF o))

/-- SETA (R152). -/
def execSeta (x : Site) (b : Base) (d : BitVec 4) (imm : BitVec 48) (s : State) : Out := .next (s.issue x b (.seta d imm))

/-- ADDA (R152). -/
def execAdda (x : Site) (b : Base) (d : BitVec 4) (imm : BitVec 32) (s : State) : Out := .next (s.issue x b (.adda d imm))

/-- ADDID (R152). -/
def execAddid (x : Site) (b : Base) (d : BitVec 4) (sel : BitVec 3) (scale : BitVec 32) (s : State) : Out := .next (s.issue x b (.addid d sel scale))

/-- REGION (R157). -/
def execRegion (x : Site) (b : Base) (o : RegionOps) (s : State) : Out := .next (s.issue x b (.region o))

/-- RFREE (R157). -/
def execRfree (x : Site) (b : Base) (n : BitVec 6) (st : BitVec 1) (s : State) : Out := .next (s.issue x b (.rfree n st))

/-- MARK: a trace marker, no architectural effect (Table 5.12). -/
def execMarkTrace (x : Site) (b : Base) (v : BitVec 16) (s : State) : Out := .next (s.issue x b (.mark v))

/-- RWAIT (R162). -/
def execRwait (x : Site) (b : Base) (n : BitVec 6) (st : BitVec 1) (s : State) : Out := .next (s.issue x b (.rwait n st))

/-- END (R163). -/
def execEndProgram (x : Site) (b : Base)  (s : State) : Out := .next (s.issue x b .endP)

/-! ## Iterations (R129) -/

/-- A register rises at an iteration base; every instruction that issues at that cycle or later sees it (R129). -/
def Core.stepReg (c : Core) (r : Nat) (by64 : Int) (cycle : Nat) : Core :=
  if r = 0 then c else
  let c := c.settle (cycle + 1)
  { c with regs := aset r (((c.reg r : Int) + by64) % 2 ^ 48).toNat c.regs }

/-- A register write that stands before the iteration in program order is pending: in region mode the step waits for it (R152, R162). -/
def State.stepPending (s : State) (x : Site) (r : Nat) : Bool :=
  (s.core (siteKey x)).handed.any (fun g => ownedBy g.program x.owner && g.stream = x.stream && regWritten g.op = some r)
    || s.svis.items.any (fun i => i.core = siteKey x && i.owner = x.owner && i.stream = x.stream && (match i.reg with | some (d, _) => d = r | none => false))

/-- The base cycle of iteration `n` of a loop (R129). -/
def Loop.baseAt (l : Loop) (n : Nat) : Nat := l.base + n * l.period

/-- REPEAT_ITERATION: the next iteration of the REPEAT at the site's word begins. In ordered mode its base lies in the trick in progress, and words of earlier iterations may still issue; in region mode it follows the words handed so far and the writes of its register. -/
def execRepeatIteration (x : Site) (s : State) : Out :=
  .next <|
    if !s.mayIssue x then s else
    let p := s.streamPos x
    match p.loop x.path x.word with
    | none => s
    | some l =>
      let region := regionMode x.owner
      let cycle := if region then 2 ^ 62 else l.baseAt (l.iter + 1)
      if decide (l.count ≤ l.iter + 1) || (!region && cycle / 64 ≠ s.cad.trick) || (region && s.stepPending x l.stepReg) then s else
      let p := { p with loops := p.loops.map (fun m => if m = l then { m with iter := m.iter + 1 } else m) }
      let s := s.setStreamPos x p
      s.setCore (siteKey x) ((s.core (siteKey x)).stepReg l.stepReg (64 * l.step) cycle)

/-! ## Completion (R121, R177, R179, R183) -/

def State.item (s : State) (id : Nat) : Option Item := s.svis.items.find? (·.id = id)

/-- What follows a completion: waiting words issue, waiting landings go in, programs that are done end. -/
def State.settleItems (s : State) (word : Nat) : State := (State.pumpAll s).endPrograms word

/-- The cycle of completion has come: in deal code the trick it lies in is reached, and for an item with a due trick that trick; an open program's items complete when they do (R179, R180, R183). -/
def State.reached (s : State) (i : Item) : Bool :=
  match i.owner with
  | .program _ _ => true
  | .deal _ => decide ((if i.plane = .memory then i.done + 1 else i.done) / 64 ≤ s.cad.trick)

/-- INSTRUCTION_COMPLETE: the oldest item of a queue completes, its writes visible and its chip counted. -/
def execInstructionComplete (item : Nat) (s : State) : Out :=
  .next <|
    match s.item item with
    | none => s
    | some i => if i.plane ≠ .local || !s.oldest i || !s.reached i then s else (s.finishItem i).settleItems i.seq

/-- Land an item's lines. What the scoreboard holds against them was found at issue (R158, R160); into a region-mode cluster they wait while a conflict stands (R163). -/
def State.land (s : State) (i : Item) : State :=
  match i.owner with
  | .deal _ => s.finishItem i
  | .program _ region =>
    if region && s.incomingBlocked i then
      { s with svis := { s.svis with items := s.svis.items.map (fun j => if j.id = i.id then { j with held := true } else j) } }
    else s.finishItem i

/-- TILE_LANDING: the transfer lands at its table cycle; one that is `late` by some cycles is an overrun LATENCY of the sending slot (R177). -/
def execTileLanding (item late : Nat) (s : State) : Out :=
  .next <|
    match s.item item with
    | none => s
    | some i =>
      if i.plane ≠ .tile || !s.oldest i || !s.reached i || i.held then s else
      let s := match i.owner with
        | .deal slot => if 0 < late then s.overrun 0x20 slot i.die i.latePlace (i.done / 64) else s
        | .program _ _ => s
      (s.land i).settleItems i.seq

/-- Zero the lines of the blocks of a WSTREAM that met a media error, and note the failures (R286). -/
def State.mediaFail (s : State) (i : Item) (bad : List Nat) : Item × State :=
  match i.vault, s.codeForm with
  | some (die, first, n, bytes), some f =>
    let bad := bad.filter (· < n)
    let zero := fun (w : StoreWrite) => { w with data := (List.range n).flatMap (fun b =>
      if bad.contains b then List.replicate bytes 0 else (w.data.drop (b * bytes)).take bytes) }
    let i' := if bad = [] then i else { i with writes := i.writes.map zero }
    (i', s.noteReads f die { vaultFails := bad.map (fun b => (die, first + b, 0x50)) })
  | _, _ => (i, s)

/-- The slot an overrun of the item is attributed to (Table 6.6): the slot for LATENCY, none for STREAM and DECK. -/
def Item.lateSlot (i : Item) (slot : Nat) : Nat := if i.lateDetail = 0x20 then slot else 0xFFF

/-- The projected margin of R358 in ps: slack over the item's span in tricks, less what the period gives beyond the effective T_min. -/
def State.projectedMargin (s : State) (i : Item) (slack : Int) : Int :=
  let k := (i.done + 1) / 64 - i.issue / 64
  let teff := match s.codeForm with | some f => s.effTmin f | none => 0
  slack / (max k 1 : Nat) - 1000 * ((s.cad.period : Int) - teff)

def State.noteMargin (s : State) (m : Int) : State :=
  { s with repair := { s.repair with leastMargin := some (match s.repair.leastMargin with | some l => min l m | none => m) } }

/-- MEMORY_ITEM_COMPLETE: a memory-plane item completes at its due trick; data that came late is the overrun Table 6.6 gives, and the slack of data in time is a margin (R179, R358). -/
def execMemoryItemComplete (item : Nat) (arr : Arrival) (s : State) : Out :=
  .next <|
    match s.item item with
    | none => s
    | some i =>
      if i.plane ≠ .memory || !s.oldest i || !s.reached i || i.held then s else
      match i.owner with
      | .program id _ =>
        if arr.pcieError then
          State.settleItems (State.stopProgram { s with svis := { s.svis with items := s.svis.items.filter (·.id ≠ i.id) } } id 0x0B i.seq) i.seq
        else (s.land i).settleItems i.seq
      | .deal slot =>
        let s : State := if arr.slack < 0 then s.overrun i.lateDetail (i.lateSlot slot) i.die i.latePlace ((i.done + 1) / 64)
          else s.noteMargin (s.projectedMargin i arr.slack)
        let (i', s) := s.mediaFail i arr.mediaFails
        (s.land i').settleItems i.seq

end Sys2Proof.Machine
end

