-- ==== Sys2Proof/Machine/OpenWin.lean ====
section
/-!
DEFINITION. Machine/OpenWin.lean: open windows and the open programs that run in them (R114 to R119, R290).
-/
namespace Sys2Proof.Machine

/-- The open window that begins at the trick in progress: one of the running form's, or the one window of an idle deal (R114, R119). -/
def State.windowNow (s : State) : Option Window0 :=
  match s.dealer.running with
  | none => none
  | some p =>
    match p.form s with
    | some f => (f.wins.find? (fun w => w.start = s.cad.trick)).map (fun w =>
        { start := w.start, stop := w.start + w.span, beganPs := s.now, dieMask := w.dieMask, programs := w.programs, looseDma := w.looseDma, gbps := some w.gbps })
    | none =>
      match s.cad.len with
      | some l => if s.cad.trick = 0 then some { start := 0, stop := l - 256, beganPs := s.now, dieMask := 0xFF, programs := true, looseDma := true } else none
      | none => none

/-- Marked lines written to zero, and their marks cleared (R290). -/
def zeroMarked (cells : List Host.Cell) (marks : List Nat) : List Host.Cell :=
  marks.foldl (fun c l => writeBytes c (64 * l) (List.replicate 64 0)) cells

/-- What a debug read finds of a store's line: zero where the line is marked (R290). The table has no row for such a read (log entry 88). -/
def State.debugLine (s : State) (r : StoreRef) (line : Nat) : Bytes :=
  if (s.storeMarks r).contains line then List.replicate 64 0 else readBytes (s.storeCells r) (64 * line) 64

def Core.zeroMarks (c : Core) : Core := { c with store := zeroMarked c.store c.marks, marks := [] }
def Cluster.zeroMarks (c : Cluster) : Cluster := { c with store := zeroMarked c.store c.marks, marks := [] }

/-- Die of a core by its key. -/
def coreDie (k : Nat) : Nat := ckDie (k / 64)

/-- Map the cores and the clusters of a set of dies. -/
def State.onDies (s : State) (m : BitVec 8) (f : Core → Core) (g : Cluster → Cluster) : State :=
  { s with svis := { s.svis with
      cores := s.svis.cores.map (fun c => if m.getLsbD (coreDie c.1) then (c.1, f c.2) else c)
      clusters := s.svis.clusters.map (fun c => if m.getLsbD (ckDie c.1) then (c.1, g c.2) else c) } }

/-- The cores a program's streams run on (R125). -/
def programCores (info : NativeInfo) : List Nat :=
  (info.streams.flatMap (fun t => (maskBits t.dieMask 8).flatMap (fun d =>
    (List.range (t.rowHi + 1 - t.rowLo)).flatMap (fun r => (List.range (t.colHi + 1 - t.colLo)).flatMap (fun c =>
      (maskBits t.coreMask 64).map (fun k => coreKey d (t.rowLo + r) (t.colLo + c) k)))))).dedup

/-- Every core store and cluster store of the device loses its contents (R492, R586): every byte is a free value, and no line is marked. -/
def State.loseAllStores (s : State) : State :=
  { s with
    svis := { s.svis with
      lost := some s.fresh
      cores := s.svis.cores.map (fun c => (c.1, { c.2 with store := lostCore (some s.fresh) c.1, marks := [] }))
      clusters := s.svis.clusters.map (fun c => (c.1, { c.2 with store := lostCluster (some s.fresh) c.1, marks := [] })) }
    fresh := s.fresh + 8192 * 1048576 + 262144 * 16384 }

/-- A program's core and cluster store contents are lost (R117): every byte is a free value, and no line is marked. -/
def State.loseStores (s : State) (info : NativeInfo) : State :=
  let cores := programCores info
  let s := cores.foldl (fun s k => { s.setCore k { s.core k with store := freeCells s.fresh 8192, marks := [] } with fresh := s.fresh + 8192 }) s
  ((cores.map (· / 64)).dedup).foldl (fun s k => { s.setCstore k { s.cstore k with store := freeCells s.fresh 262144, marks := [] } with fresh := s.fresh + 262144 }) s

/-- PROGRAM: the open program waits behind those accepted before it (R119). -/
def execProgram (c : CmdSlot) (info : NativeInfo) (s : State) : Out :=
  .next <| s.hostCommand 0x32 c true none fun s t =>
    if argHigh c.arg0 12 || argHigh c.arg1 48 || !nativeOk 0xFF 0 1 info then s.complete t 0xE0 else
    let dies := info.streams.foldl (fun m x => m ||| x.dieMask) 0
    let p : Program := { id := s.svis.nextProgram, account := c.arg0.toNat, info, ticket := t, dieMask := dies, takenPs := s.now, start := none, accSat := false }
    { s with svis := { s.svis with programs := s.svis.programs ++ [p], nextProgram := s.svis.nextProgram + 1 } }

/-- A free value for the word index of an instruction that the spec does not single out (log entry 15). -/
def State.stopAt (s : State) (id status : Nat) : State :=
  let (w, s) := s.takeFree
  s.stopProgram id status (w.toNat % 2 ^ 32)

/-- In-flight work of a stopped program: what has issued completes and its writes stand (R117, R166). -/
def State.finishOf (s : State) (id : Nat) : State :=
  (s.svis.items.filter (fun i => ownedBy id i.owner)).foldl (fun s i => s.completeItem i) s

/-- Stop every running program with WINDOW_END, or with the fault it has met, and close the window (R117, R118, R166). -/
def State.closeWindow (s : State) : State :=
  let s := (s.svis.programs.filter (fun p => p.start.isSome)).foldl (fun s p =>
    State.loseStores (match p.fault with
      | some (status, w, _, _, _) => (s.finishOf p.id).stopProgram p.id status w
      | none => (s.finishOf p.id).stopAt p.id 0x04) p.info) s
  { s with svis := { s.svis with openWin := none } }

/-- A core as a program finds it at its start (R151, R153, R157). -/
def Core.atProgram (c : Core) : Core := { c with regs := [], regsLate := [], chips := [], posts := [], regions := [] }

/-- OPEN_PROGRAM_START: the program at the head starts when the window began after it was taken, has every die it names, and no earlier program runs (R119). The spec gives no maintenance kernel of the Dealer: none is held to run before it (log entry 57). -/
def execOpenProgramStart (s : State) : Out :=
  .next <|
    match s.svis.openWin, s.svis.programs with
    | some w, p :: rest =>
      if !w.programs || p.start.isSome || w.beganPs ≤ p.takenPs || (p.dieMask &&& ~~~w.dieMask) ≠ 0 || w.stop ≤ s.cad.trick then s else
      let s : State := { s with svis := { s.svis with programs := { p with start := some s.cad.trick } :: rest } }
      (s.onDies p.dieMask Core.atProgram (fun c => { c with regions := [] })).endPrograms 0
    | _, _ => s

/-- OPEN_WINDOW_END: at its last trick's end the window stops what still runs in it, and loose DMA pauses (R117, R118). -/
def execOpenWindowEnd (s : State) : Out :=
  .next <|
    match s.svis.openWin with
    | none => s
    | some w => if w.stop ≤ s.cad.trick || !s.dealing then s.closeWindow else s

end Sys2Proof.Machine
end

