-- ==== Sys2Proof/Machine/Reset.lean ====
section
/-!
DEFINITION. Machine/Reset.lean: what a reset leaves (R498, R520, R531, R540, R566, R567).
-/
namespace Sys2Proof.Machine

/-- What a store cut short by a reset leaves in the two user copies: untouched, the first copy invalid, the first copy written, or the first written and the second invalid; which of them is a free value (R445; log entry 38). -/
def State.cutStore (s : State) : Nv :=
  match s.dict.storing with
  | none => s.nv
  | some c =>
    let first := fun (v : Option UserCopy) (n : Nv) => ({ n with userA := if s.dict.firstB then n.userA else v, userB := if s.dict.firstB then v else n.userB } : Nv)
    let second := fun (v : Option UserCopy) (n : Nv) => ({ n with userA := if s.dict.firstB then v else n.userA, userB := if s.dict.firstB then n.userB else v } : Nv)
    match (Config.freeWord s.fresh).toNat % 4 with
    | 0 => s.nv
    | 1 => first none s.nv
    | 2 => first (some c) s.nv
    | _ => second none (first (some c) s.nv)

/-- The device is in reset: everything but the hub store and the vault is lost (R498). The reason is that of OD 0x1000.0B. -/
def State.reboot (s : State) (reason : Nat) : State :=
  { State.reset with pending := s.pending, fresh := s.fresh + 1, factory := s.factory, nv := s.cutStore, start := { reason } }

/-- RESET_N_PULSE: a low pulse of at least 10 µs resets the device (R566). -/
def execResetNPulse (us : Nat) (s : State) : Out := .next (if us < 10 then s else s.reboot 1)

/-- PWR_GOOD_FALL: the device holds itself in reset, and power goes (R567). -/
def execPwrGoodFall (s : State) : Out := .next (s.reboot 0)

/-- PCIE_RESET: PERST# or a hot reset of PF0's port (R540). -/
def execPcieReset (s : State) : Out := .next (s.reboot 2)

/-- WATCHDOG_EXPIRY: the start watchdog, armed at reset release, was not serviced for 100 ms (R520). -/
def execWatchdogExpiry (s : State) : Out := .next (if s.start.up then s.reboot 3 else s)

end Sys2Proof.Machine
end

