-- ==== Sys2Proof/Machine/Cadence.lean ====
section
/-!
DEFINITION. Machine/Cadence.lean: the deal clock: BEAT edges, the flywheel, headers, marks, departures and joining (R19 to R53, R564, R574, R575, R592).
-/
namespace Sys2Proof.Machine

/-! ## Who may sit at the table (R47 to R51, R463, R478, R587) -/

/-- Nothing but the join mark keeps a device in READY from dealing. -/
def State.mayDeal (s : State) : Bool :=
  s.start.stage = 2 && s.power.phase = 0 && !s.sec.joinLow && !s.sec.preparing && !s.dealer.halted && !s.power.cold && !s.power.tripped
    && !s.cad.holdThermal && !s.cad.holdHub && s.sec.lifeCycle ≠ 4 && !s.start.factoryBad

/-- The join flag (R49). -/
def State.joinFlag (s : State) : Bool := s.cad.st = .ready && s.mayDeal

/-! ## What a mark clears -/

/-- At a mark every core's registers, chips, regions, queues and streams start anew; its store and marks stay (R153, R157, R161, R289). -/
def Core.atMark (c : Core) : Core := { store := c.store, marks := c.marks }

/-- A window still open ends (R117), deal code's work is gone from the cores, and the deal's meters with it (R97, R104, R212). -/
def State.clearCompute (s : State) : State :=
  let s := s.closeWindow
  { s with
    dealer := { s.dealer with accSat := [] }
    svis := { s.svis with
      cores := s.svis.cores.map (fun c => (c.1, c.2.atMark))
      clusters := s.svis.clusters.map (fun c => (c.1, { c.2 with regions := [] }))
      items := [], reneges := [], landed := [], meterWin := 0, hbmMeter := [], vaultMeter := [], deckMeter := [], openWin := none } }

/-- Post what waited for the mark (R83, R354). -/
def State.flushEvents (s : State) : State :=
  State.postAll { s with dealer := { s.dealer with toPost := [] } } s.dealer.toPost

/-! ## Which plan a mark deals (R50, R64, R351 to R353, R389 to R392) -/

/-- Repairs or self-tests still hold the re-deal back (R351, R356). -/
def State.redealHeld (s : State) : Bool := s.dealer.checks.any (·.running) || s.dealer.rereads ≠ [] || s.dealer.bistHold

/-- Another member has not sent its SELECT for deal `d`, or has left (R392). -/
def State.memberAbsent (s : State) (d : Nat) : Bool :=
  match s.group.binding with
  | none => false
  | some b => (List.range b.size).any (fun m =>
      !(s.group.records.any (fun r => r.kind = 1 && r.note.deal = d && r.note.member = m))
        || s.group.records.any (fun r => r.kind = 5 && r.note.member = m && decide (d ≤ r.note.deal + 1)))

/-- The re-deal is due at the mark of deal `d`. -/
def State.redealDue (s : State) (d : Nat) (p : Plan) : Bool :=
  decide (s.dealer.redealAt ≤ d) && !s.redealHeld && !s.group.diverged && s.dealer.forceIdle ≠ d
    && (!p.shortFill || (match s.dealer.selected with | some q => q.shortFill | none => false))
    && (!s.inGroup || (if p.redealOf = some (d - 1) then !s.memberAbsent d else !s.group.idleNext))

/-- Fold the seats and slots whose pages still hold the poison the misdeal was for (R260). -/
def State.poisonFolds (s : State) (p : Plan) : Plan :=
  (p.poisonPages.filter s.poisonedAt).foldl (fun p pa => (ownersAt p.pins pa).foldl (fun p o => match o with
    | .seat i => p.foldSeat i 0x16
    | .slot i => p.foldSlot i 0x20
    | .dealer => p) p) p

/-- A repair idle deal at the mark of `d`; the re-deal moves to the next one, whose sheets it displaces (R351). -/
def State.holdRedeal (s : State) (d : Nat) : Plan × State :=
  let s : State := if s.dealer.redealAt ≤ d then State.displace { s with dealer := { s.dealer with redealAt := d + 1 } } (d + 1) else s
  (idlePlan (d < s.dealer.redealAt || s.redealHeld), s)

/-- The plan for deal `d` of length `l`, and REDEAL when it is the re-deal; a form of another length is never dealt (R35). -/
def State.markPlan (s : State) (d l : Nat) : Plan × State :=
  match s.dealer.redeal with
  | some r =>
    if !s.redealDue d r then s.holdRedeal d else
    let p := if r.shortFill then s.dealer.selected.getD r else r
    (match p.form s with
      | some f =>
        if f.len ≠ l then (idlePlan false, s.dropRedeal 0x0A) else
        let from' := p.redealOf.getD d
        let e : EvReq := { ev 0x04 0 from' with subject := subjOffset (d - from'), w0 := subjOffset (d - from'), w2 := p.tag, toAll := true }
        (s.poisonFolds p, { s with dealer := { s.dealer with redeal := none, toPost := s.dealer.toPost ++ [e] } })
      | none => (idlePlan false, s.dropRedeal 0x06))
  | none =>
    if s.group.diverged || s.dealer.forceIdle = d || s.group.idleNext then (idlePlan false, s.discardSelected) else
    match s.dealer.selected with
    | none => (idlePlan (s.dealer.bistHold || 0 < s.dealer.auditLeft), s)
    | some p =>
      match p.form s with
      | none => (p, s)
      | some f => if f.len = l then (p, s) else (idlePlan false, s.finishSheet p 0x0A)

/-- Step 6 of the Ante (Table 3.11, R56): the mirrors of the seats dealt. It comes last before the mark, since until then the deal in progress reads the same mirror; a re-deal's mirrors are written anew (R260; log entry 16). -/
def State.copyMirrors (s : State) (p : Plan) : State :=
  (p.entries.filter (fun e => !e.void && e.cause.isNone && (s.seat e.seat).state = 1)).foldl (fun s e =>
    writeMirror s (p.windows.filter (fun w => w.slot = e.slot && w.pos = e.pos)) e.pos (s.seat e.seat)) s

/-- Seats of the plan go from SEATED to IN_DEAL; one that is not SEATED is void (R68, Table 3.5), but for a malformed record that the Ante folded (R89). -/
def State.seatDeal (s : State) (p : Plan) : Plan × State :=
  p.entries.foldl (fun (acc : Plan × State) e =>
    if e.void || (e.cause.isSome && malformed (acc.2.seat e.seat)) then acc
    else if (acc.2.seat e.seat).state = 1 then (acc.1, acc.2.setSeat e.seat { acc.2.seat e.seat with state := 2 })
    else ({ acc.1 with entries := acc.1.entries.map (fun x => if x = e then { x with void := true } else x) }, acc.2)) (p, s)

/-! ## Departures (R46, R48, R354, R380) -/

def departCause (s : State) (deal rank detail : Nat) : Cause :=
  { deal, rank, detail, member := s.member, remote := false, slot := 0xFFF, die := 0, place := 0, repair := repairRank rank }

/-- The deal in progress misdeals at once, or D is decided and D+1 misdeals (R26, R46). -/
def State.departMisdeal (s : State) (rank detail : Nat) : State :=
  let d := s.cad.deal
  if s.causeDeal = d then
    -- what was met in the deal and not yet judged is a cause too (R16)
    let s := s.judgeRunning
    let c := departCause s d rank detail
    let s := s.sendNotice 2 d (rank + 2 ^ 8 * detail + 2 ^ 16 * boolNat c.repair)
    let p := s.dealer.running.getD (idlePlan false)
    State.misdealDeal { s with cad := { s.cad with decided := true } } p d (s.dealer.causes.filter (·.deal = d) ++ [c])
  else
    let s := if s.cad.decided then s else s.decideDeal
    let s := s.sendNotice 2 (d + 1) (rank + 2 ^ 8 * detail + 2 ^ 16 * boolNat (repairRank rank))
    let p := (s.dealer.redeal.or s.dealer.selected).getD (idlePlan false)
    let (p, s) := s.judgeReads p (d + 1)
    State.misdealDeal { s with dealer := { s.dealer with selected := none, redeal := none } } p (d + 1)
      (s.dealer.causes.filter (·.deal = d + 1) ++ [departCause s (d + 1) rank detail])

/-- The device leaves the table, to LEFT or, on a new Banker, to ACQUIRING: the misdeal is posted at once, members are told, and nothing more is dealt. -/
def State.leaveTable (s : State) (rank detail : Nat) (next : CadState) : State :=
  let again : Bool := match s.dealer.running with | some p => p.redealOf.isSome | none => false
  let s := s.departMisdeal rank detail
  let s := if again then s else s.suspectsToBist
  let s := s.sendNotice 5 s.cad.deal 0
  State.flushEvents { s.clearCompute with
    dealer := { s.dealer with running := none, selected := none, causes := [], poisonReads := [], foreignWrites := [], completions := none,
                              slotHbm := [], vaultBytes := 0, deckBytes := 0, accSat := [] }
    board := { s.board with loadHint := false }
    cad := { s.cad with st := next, departures := if next = .left then s.cad.departures + 1 else s.cad.departures, period := 0,
                        hdrRun := 0, edgeRun := 0, missRun := 0, len := none, latch := none, markLatch := none, joinMark := none, decided := false, cutDone := false, drained := false, compared := false } }

/-- A unit that holds no deal drops its position and acquires afresh. -/
def State.reacquire (s : State) (st : CadState) : State :=
  { s with
    dealer := { s.dealer with selected := none }
    cad := { s.cad with st, edgeRun := 0, hdrRun := 0, missRun := 0, len := none, period := 0, latch := none, markLatch := none, joinMark := none, decided := false, cutDone := false, drained := false, compared := false } }

/-- Leave for LEFT from any state (Table 2.5, R359, R586): a device that deals misdeals. -/
def State.toLeft (s : State) (detail : Nat) : State :=
  if s.dealing then s.leaveTable 1 detail .left
  else if s.cad.st = .left then s
  else
    let s := s.reacquire .left
    { s with cad := { s.cad with departures := s.cad.departures + 1 } }

/-! ## The mark -/

/-- Length and period of the deal that begins: latched, else R31's. -/
def State.nextClock (s : State) (l : Nat) : Nat × Nat :=
  match s.cad.latch with
  | some x => x
  | none => match s.cad.lastHdr with
    | some h => if h.curDeal = s.cad.deal then (h.nextLen, h.nextPeriod) else (l, s.cad.period)
    | none => (l, s.cad.period)

/-- Rises of the aging guard whose mark has come (R358). -/
def State.applyGuard (s : State) (d : Nat) : State :=
  { s with repair := { s.repair with
      agingGuard := ((s.repair.guardNext.filter (·.1 ≤ d)).map (·.2)).foldl max s.repair.agingGuard
      guardNext := s.repair.guardNext.filter (fun g => decide (d < g.1)) } }

/-- HOLDs that take effect at the mark (R58). -/
def State.markHolds (s : State) : State :=
  let due := s.dealer.holds.filter (·.deal = none)
  let s : State := { s with dealer := { s.dealer with holds := s.dealer.holds.filter (·.deal ≠ none) } }
  due.foldl (fun s h => (s.holdSeat h.seat 0x18).complete h.ticket 0) s

/-- A request is unanswered at the mark of `d`: one raised two deals before or earlier and not withdrawn asks for more than `p` (R42). -/
def State.stretchUnmet (s : State) (d p : Nat) : Bool :=
  s.cad.stretchReq ≠ 0 && s.cad.stretchRaises.any (fun r => decide (r.1 + 2 ≤ d) && decide (p < r.2))

/-- The device in READY enters DEALING at the mark of `d` (R42, R49, R51, R371). -/
def State.joinsAt (s : State) (d p : Nat) : Bool :=
  s.cad.st = .ready && s.mayDeal && s.cad.joinMark = some d && decide (s.cad.joinPs + 8000000 ≤ s.now)
    && (s.power.wakePs = 0 || decide (s.power.wakePs + 8000000 ≤ s.now)) && decide (s.cad.stretchReq ≤ p)

/-- Since when the period has met the own request (R461). -/
def State.noteMet (s : State) : State :=
  { s with power := { s.power with metSince :=
      if s.cad.stretchReq ≤ s.cad.period then (match s.power.metSince with | some t => some t | none => some s.now) else none } }

/-- Begin deal `d` at the table: its plan is chosen and its seats dealt, PERIOD_LOW is found (R40), and an unmet stretch ends it (R42). -/
def State.startDeal (s : State) (d l p : Nat) : State :=
  let (q, s) := s.markPlan d l
  let s := s.copyMirrors q
  let (q, s) := s.seatDeal q
  let q := q.writeLanes
  let s := { s with
    cascade := { s.cascade with lastDealt := some d }
    board := { s.board with loadHint := s.board.loadHint && q.formId.isSome }
    dealer := { s.dealer with
      running := some q, selected := none
      lastPlan := if q.formId.isSome then some q else s.dealer.lastPlan
      auditLeft := if q.repairIdle && s.dealer.redeal.isNone then s.dealer.auditLeft - 1 else s.dealer.auditLeft }
    group := { s.group with idleNext := false, records := s.group.records.filter (fun r => decide (d ≤ r.note.deal + 1)) } }
  let low : Bool := match q.form s with | some f => decide (p < s.effTmin f) | none => false
  let s := if low then s.addCause 1 0x04 0xFFF 0 0 else s
  if s.stretchUnmet d p then s.leaveTable 1 0x03 .left else s.flushEvents

/-- Accepted sheets whose deal has come unselected receive DISPLACED (R351, R495). -/
def State.displacePast (s : State) (d : Nat) : State :=
  let out := s.dealer.sheets.filter (fun x => decide (x.target ≤ d))
  let s : State := { s with dealer := { s.dealer with sheets := s.dealer.sheets.filter (fun x => decide (d < x.target)) } }
  out.foldl (fun s x => s.sheetDone x 0x0C) s

/-- The mark: the next deal's number, length and period come into force (R21, R23, R29, R31). -/
def State.markDeal (s : State) : State :=
  match s.cad.len with
  | none => s
  | some l =>
    let s := if s.dealing && !s.cad.decided then s.decideDeal else s
    -- a firmware reset that waited takes place at the boundary (R531)
    if s.start.resetReq && s.dealer.redeal.isNone then s.reboot 3 else
    let d := s.cad.deal + 1
    let (l', p') := s.nextClock l
    let joins := s.joinsAt d p'
    let deals := s.dealing || joins
    let s := { s.clearCompute with cad := { s.cad with
      deal := d, trick := 0, len := some l', period := p', prevLen := l, prevPeriod := s.cad.period, latch := none, markLatch := s.cad.latch
      decided := false, cutDone := false, drained := false, compared := false
      st := if joins then .dealing else s.cad.st, joinMark := if joins then none else s.cad.joinMark } }
    let s := (((s.applyGuard d).noteMet).markHolds).displacePast d
    if deals then s.startDeal d l' p'
    else
      let s := s.discardSelected.flushEvents
      { s with board := { s.board with loadHint := false } }

/-! ## Edges -/

/-- A trick begins at `t` (R20, R574). -/
def State.trickStart (s : State) (t : Nat) : State :=
  let s := (s.advanceTo t)
  let s := { s with cad := { s.cad with startPs := t } }
  if s.cad.st = .acquiring && s.cad.hdrRun = 0 then s
  else if s.cad.len = some (s.cad.trick + 1) then s.markDeal
  else { s with cad := { s.cad with trick := s.cad.trick + 1 } }

/-- The predicted edge (R36). Where no period is in force the last header's CUR_PERIOD places it, or 40 ns before any header (DESIGN CHOICE, log entry 90). -/
def State.predicted (s : State) : Nat :=
  let p := if s.cad.period = 0 then (match s.cad.lastHdr with | some h => h.curPeriod | none => 40) else s.cad.period
  s.cad.startPs + 1000 * p

/-- ACQUIRING has seen what READY needs (Table 2.5). -/
def State.tryReady (s : State) : State :=
  if s.cad.st = .acquiring && 64 ≤ s.cad.edgeRun && 2 ≤ s.cad.hdrRun && s.cad.len.isSome then { s with cad := { s.cad with st := .ready } } else s

/-- The delay line moves one step towards the trim (R575). -/
def slewStep (line trim : Nat) : Nat := if line + 250 ≤ trim then line + 250 else if trim + 250 ≤ line then line - 250 else trim

def State.slew (s : State) : State := { s with cad := { s.cad with delayLine := slewStep s.cad.delayLine s.cad.trim } }

/-- An accepted edge: the trick begins at the later of the edge and the end of the previous trick's cycles (R574). -/
def State.acceptEdge (s : State) (at' : Nat) : State :=
  let st := s.cad.st
  let s : State := { s with cad := { s.cad with missRun := 0, st := if st = .flywheel then .dealing else st, edgeRun := if st = .acquiring then s.cad.edgeRun + 1 else s.cad.edgeRun } }
  let s := (s.trickStart (max at' (s.cad.startPs + 40000))).tryReady
  if st = .ready then s.slew else s

/-- How far from its prediction the unit sees an edge that arrives `off` ps from it at the ball: the delay line adds its position (R37, R575). -/
def State.edgeOff (s : State) (off : Int) : Int := off + s.cad.delayLine

/-- A BEAT rising edge `off` ps from the predicted edge (R36): accepted within ±4 ns of it as the unit sees it, else stray. In UNLOCKED and LEFT it only places the prediction. -/
def State.beat (s : State) (off : Int) : State :=
  let at' := ((s.predicted : Int) + s.edgeOff off).toNat
  match s.cad.st with
  | .left | .unlocked => let s := s.advanceTo at'; { s with cad := { s.cad with startPs := at' } }
  | _ =>
    if -4000 ≤ s.edgeOff off ∧ s.edgeOff off ≤ 4000 then s.acceptEdge at'
    else
      let s := s.advanceTo at'
      { s with cad := { s.cad with strayCount := s.cad.strayCount + 1 } }

/-- A flywheel edge in place of a missed one (R44, R45). -/
def State.flywheel (s : State) : State :=
  let t := s.predicted
  State.trickStart { s with cad := { s.cad with st := .flywheel, missRun := s.cad.missRun + 1, flyCount := s.cad.flyCount + 1 } } t

/-- BEAT_EDGE: a rising edge at BEAT_IN, `offsetPs` from the predicted edge before the trim's delay (R20, R36, R37, R574). -/
def execBeatEdge (offsetPs : Int) (s : State) : Out := .next (s.beat offsetPs)

/-- FLYWHEEL_EDGE: the predicted edge has passed without a BEAT edge (R44). -/
def execFlywheelEdge (s : State) : Out :=
  .next <| if s.dealing && s.cad.missRun < 16 then s.flywheel else s

/-- BEAT_LOSS: the 17th consecutive missed edge, at its predicted time, where the next trick would have begun: the loss is found in that trick (R26, R45, R46). -/
def execBeatLoss (s : State) : Out :=
  .next <|
    if s.dealing && s.cad.missRun = 16 then
      let s := s.advanceTo s.predicted
      State.toLeft { s with cad := { s.cad with trick := s.cad.trick + 1 } } 0x01
    else s

/-- DEAL_MARK: the edge that follows T(L−1), a BEAT edge at an offset or a flywheel edge (R21, Table 2.3). -/
def execDealMark (edge : Option Int) (s : State) : Out :=
  .next <|
    if s.cad.len ≠ some (s.cad.trick + 1) then s else
    match edge with
    | some off => s.beat off
    | none => if s.dealing && s.cad.missRun < 16 then s.flywheel else s

/-- MISSED_EDGE: a predicted edge passes outside DEALING and FLYWHEEL (R44, Table 2.5). -/
def execMissedEdge (s : State) : Out :=
  .next <|
    match s.cad.st with
    | .acquiring => let t := s.predicted; let s := s.advanceTo t; { s with cad := { s.cad with edgeRun := 0, startPs := t } }
    | .ready => let t := s.predicted; let s := (s.advanceTo t).reacquire .acquiring; { s with cad := { s.cad with startPs := t } }
    | _ => s

/-- LOAD_HINT_RISE: 8 µs before a mark at which the device will deal, unless it knows that deal is idle (R564). -/
def execLoadHintRise (s : State) : Out :=
  let idle := fun (p : Option Plan) => match p with | some p => p.formId.isNone | none => true
  .next <|
    match s.left with
    | none => s
    | some n =>
      if (s.dealing || (s.cad.st = .ready && s.cad.joinMark = some (s.cad.deal + 1))) && decide (8000 ≤ n * s.cad.period) && decide ((n - 1) * s.cad.period < 8000)
          && !(idle s.dealer.selected && idle s.dealer.running && s.dealer.redeal.isNone)
      then { s with board := { s.board with loadHint := true } } else s

/-- SEAM_START: at T(L−256) the deal's tricks end, no more issue, and LOAD_HINT falls (R24, R564). -/
def execSeamStart (s : State) : Out :=
  .next <| if s.dealing && s.atLeft 256 then { s with board := { s.board with loadHint := false } } else s

/-- Dies on which deal code still has work in flight. -/
def State.openDies (s : State) : List Nat :=
  ((s.svis.items.filter (fun i => match i.owner with | .deal _ => true | .program _ _ => false)).map (·.die)).dedup

/-- DRAIN_END: at T(L−193) an item still open is an overrun DRAIN of its die, the completion words stand as they are, and what the deal has met is judged (R25, R56, Table 6.6). -/
def execDrainEnd (s : State) : Out :=
  .next <|
    if !s.dealing || s.cad.drained || !s.atLeft 193 then s else
    let s := s.openDies.foldl (fun s d => s.overrun 0x22 0xFFF d (placeDie d) s.cad.trick) s
    let words := match s.dealer.running with
      | some p => (p.entries.filter (!·.void)).map (fun e => (e.seat, s.completionWord p e))
      | none => []
    let s := { s with cad := { s.cad with drained := true }, dealer := { s.dealer with completions := some words } }
    match s.dealer.running with
    | some p =>
      let (p, s) := s.judgeWords p
      State.judgeRunning { s with dealer := { s.dealer with running := some p } }
    | none => s

/-- DELAY_LINE_STEP: 40 ns of SYS_CLK pass where no trick runs (R575). -/
def execDelayLineStep (s : State) : Out :=
  .next <| match s.cad.st with
    | .unlocked | .acquiring | .left => s.slew
    | _ => s

/-- LEFT_RELEASE: every MISDEAL of the departure is posted and no hold is in force (R48). -/
def execLeftRelease (s : State) : Out :=
  .next <| if s.cad.st = .left && s.dealer.toPost = [] && !s.cad.holdThermal && !s.cad.holdHub then s.reacquire .acquiring else s

/-! ## Headers (R27 to R33, R380, R592) -/

/-- R28 and R407. -/
def headerValid (h : HbHeader) : Bool :=
  h.ok && !h.rsvd && 40 ≤ h.curPeriod && h.curPeriod ≤ 160 && 40 ≤ h.nextPeriod && h.nextPeriod ≤ 160 && 1024 ≤ h.nextLen && h.nextLen ≤ 4194304

/-- Trick starts in (t, now], counted back from the trick in progress at `p` ns a trick. -/
def startsSince (startPs t p : Nat) : Nat := if startPs ≤ t then 0 else (startPs - t - 1) / (1000 * max p 1) + 1

/-- Position of the edge nearest to time `t` on the unit's own count; across the mark the previous deal's length and period hold (R32, R405). -/
def State.positionAt (s : State) (t : Nat) : Nat × Nat :=
  let half := 500 * s.cad.period
  let k := startsSince s.cad.startPs (t + half) s.cad.period
  if k ≤ s.cad.trick then (s.cad.deal, s.cad.trick - k)
  else
    let markPs := s.cad.startPs - 1000 * s.cad.trick * s.cad.period
    let j := startsSince markPs (t + 500 * s.cad.prevPeriod) s.cad.prevPeriod
    if j = 0 then (s.cad.deal, 0) else (s.cad.deal - 1, s.cad.prevLen - j)

/-- Take the position from a header's stamp (Table 2.5), with the length and period of its deal where they are known; else tricks are counted at the header's CUR_PERIOD (R592). -/
def State.takeStamp (s : State) (h : HbHeader) (t : Nat) (clock : Option (Nat × Nat)) : State :=
  let k := startsSince s.cad.startPs (t + 500 * h.curPeriod) h.curPeriod
  { s with cad := { s.cad with deal := h.curDeal, trick := h.stampTrick + k, period := (clock.map (·.2)).getD h.curPeriod, len := clock.map (·.1), hdrRun := 1, latch := none, markLatch := none } }

/-- Length and period of the deal a header that advances CUR_DEAL begins: NEXT_LEN and NEXT_PERIOD of the header before it (R592); a new Banker's lead-in lasts 2,048 tricks at its CUR_PERIOD (R378). -/
def State.clockFrom (s : State) (h : HbHeader) : Option (Nat × Nat) :=
  match s.cad.lastHdr with
  | some g => if g.curDeal + 1 = h.curDeal then (if g.bankerId = h.bankerId then some (g.nextLen, g.nextPeriod) else some (2048, h.curPeriod)) else none
  | none => none

/-- A position fault: out of READY without a misdeal, out of dealing by leaving (Table 2.5). -/
def State.positionFault (s : State) : State :=
  if s.dealing then s.leaveTable 1 0x02 .left else s.reacquire .acquiring

/-- Latch or check NEXT_LEN and NEXT_PERIOD (R29, R30); a header about the deal just ended is checked against what was latched for its mark. -/
def State.latchHeader (s : State) (h : HbHeader) : State :=
  match s.cad.len with
  | none => s
  | some l =>
    if h.curDeal ≠ s.cad.deal then
      (match s.cad.markLatch with
        | some x => if h.curDeal + 1 = s.cad.deal && x ≠ (h.nextLen, h.nextPeriod) then s.positionFault else s
        | none => s)
    else
    let markPs := s.cad.startPs + 1000 * (l - s.cad.trick) * s.cad.period
    if s.now + 8000000 ≤ markPs then { s with cad := { s.cad with latch := some (h.nextLen, h.nextPeriod) } }
    else match s.cad.latch with
      | some x => if x = (h.nextLen, h.nextPeriod) then s else s.positionFault
      | none => s

/-- A header from a new Banker (R33, R379, R380). -/
def State.newBanker (s : State) (old : HbHeader) (h : HbHeader) (t : Nat) : State :=
  let detail := if s.now < s.cad.lastHdrPs + 24000000 then 0x71 else 0x70
  let s := s.post { ev 0x0A detail s.curDeal with w2 := old.bankerId + 2 ^ 8 * h.bankerId }
  let s := if s.dealing then s.leaveTable 2 detail .acquiring else s.reacquire .acquiring
  match s.cascade.lastDealt with
  | some d =>
    if h.curDeal ≤ d then State.post { s with cad := { s.cad with refused := true } } (logItem 0 0x72 0 0)
    else State.takeStamp { s with cad := { s.cad with refused := false } } h t (s.clockFrom h)
  | none => s.takeStamp h t (s.clockFrom h)

/-- A header in ACQUIRING (Table 2.5, R592). The header that advances the deal is not compared, and the run of headers that pass R32 stays as it was: it neither counts nor breaks the run (DESIGN CHOICE, log entry 92). -/
def State.acquireHeader (s : State) (h : HbHeader) (t : Nat) : State :=
  if s.cad.refused then
    (if s.cascade.lastDealt.any (fun d => decide (h.curDeal ≤ d)) then s
     else State.takeStamp { s with cad := { s.cad with refused := false } } h t none)
  else if s.cad.hdrRun = 0 then s.takeStamp h t none
  else if s.cad.len.isNone && s.cad.deal < h.curDeal then
    let s' := s.takeStamp h t (s.clockFrom h)
    { s' with cad := { s'.cad with hdrRun := s.cad.hdrRun } }
  else if s.positionAt t = (h.curDeal, h.stampTrick) then { s with cad := { s.cad with hdrRun := s.cad.hdrRun + 1 } }
  else
    let s := s.takeStamp h t (if s.cad.deal = h.curDeal then s.cad.len.map (·, s.cad.period) else s.clockFrom h)
    { s with cad := { s.cad with edgeRun := 0 } }

/-- A valid first-lap header whose stamp edge lies `delayPs` before now (R29 to R33). -/
def State.cadHeader (s : State) (h : HbHeader) (delayPs : Nat) : State :=
  if !headerValid h || s.cad.st = .left then s else
  let t := s.now - delayPs
  let s := match s.cad.lastHdr with
    | some g =>
      if g.bankerId ≠ h.bankerId then (s.newBanker g h t).latchHeader h
      else match s.cad.st with
        | .unlocked => State.takeStamp { s with cad := { s.cad with st := .acquiring, edgeRun := 0 } } h t none
        | .acquiring => (s.acquireHeader h t).latchHeader h
        | _ => if s.positionAt t = (h.curDeal, h.stampTrick) then s.latchHeader h else s.positionFault
    | none => State.takeStamp { s with cad := { s.cad with st := .acquiring, edgeRun := 0 } } h t none
  State.tryReady { s with cad := { s.cad with lastHdr := some h, lastHdrPs := s.now } }

end Sys2Proof.Machine
end

