-- ==== Sys2Proof/Machine/Vault.lean ====
section
/-!
DEFINITION. Machine/Vault.lean: key slots, installation passes, mending and scrub (R274 to R301).
-/
namespace Sys2Proof.Machine

/-- What a dictionary write leaves: the status of Table 15.4 or 14.7 (1 is OK), the detail of R434, and the state. -/
abbrev WriteRes := Nat × Nat × State

def wOk (s : State) : WriteRes := (0x01, 0, s)
def wRsvd (s : State) : WriteRes := (0x16, 0, s)
def wRange (s : State) : WriteRes := (0x17, 0, s)
def wState (s : State) : WriteRes := (0x18, 0, s)
def wBusy (s : State) : WriteRes := (0x19, 0, s)
def wRefused (detail : Nat) (s : State) : WriteRes := (0x1A, detail, s)

/-! ## Key slots (R283, R284) -/

/-- The vault is read, and keys are held, in Provisioned and Deployed (Table 17.1). -/
def State.keysAllowed (s : State) : Bool := s.sec.lifeCycle = 1 || s.sec.lifeCycle = 2

/-- An Open session in Provisioned or Deployed, or its preparation, holds the slots empty (Table 17.4, Table 17.9). -/
def State.slotsShut (s : State) : Bool := s.keysAllowed && (s.sec.level = 2 || s.sec.preparing)

/-- A change of slot `k` takes effect: the slot, and its wrapped form in the hub store. -/
def State.setKey (s : State) (k : Nat) (v : Option (Nat × BitVec 256)) : State :=
  match v with
  | some (id, key) => { s with
      vault := { s.vault with keys := aset k (id, key) s.vault.keys }
      nv := { s.nv with wrapped := aset k (id, Config.keyWrap key) s.nv.wrapped } }
  | none => { s with vault := { s.vault with keys := adel k s.vault.keys }, nv := { s.nv with wrapped := adel k s.nv.wrapped } }

/-- Changes of slot `k` that still wait take effect, in the order they were accepted. -/
def State.flushSlot (s : State) (k : Nat) : State :=
  let t := (s.vault.keyPending.filter (·.1 = k)).foldl (fun s c => s.setKey c.1 c.2.1) s
  { t with vault := { t.vault with keyPending := t.vault.keyPending.filter (·.1 ≠ k) } }

/-- Accept a change: at once when nothing is dealt, behind those that wait, else at a later mark of its own; in Sleep only the hub store takes it, and the wake fills the slot (R284, R493). -/
def State.changeKey (s : State) (k : Nat) (v : Option (Nat × BitVec 256)) : State :=
  if s.dealing then
    { s with vault := { s.vault with keyPending := s.vault.keyPending ++ [(k, v, s.now)] } }
  else
    let t := (s.flushSlot k).setKey k v
    if s.power.phase = 1 || s.power.phase = 2 then { t with vault := { t.vault with keys := s.vault.keys } } else t

/-- A 256-bit key from its 32 bytes, first byte first. -/
def keyOf (b : Bytes) : BitVec 256 := BitVec.ofNat 256 (leAll b.reverse)

/-- KEY_LOAD's record (R283). -/
def State.keyLoad (s : State) (secured : Bool) (b : Bytes) : WriteRes :=
  if b.length = 40 && (byteAt b 0 / 8 ≠ 0 || nonzero b 1 3) then wRsvd s
  else if b.length ≠ 40 || le b 4 4 = 0 then wRange s
  else if !secured || !s.keysAllowed || s.slotsShut then wState s
  else wOk (s.changeKey (byteAt b 0 % 8) (some (le b 4 4, keyOf (b.drop 8))))

/-- KEY_UNLOAD of a slot (R284). -/
def State.keyUnload (s : State) (k : Nat) : WriteRes :=
  if 7 < k then wRange s else if !s.keysAllowed || s.slotsShut then wState s else wOk (s.changeKey k none)

/-- KEY_SLOT_UPDATE: the first mark at least 100 µs after acceptance has come, or nothing is dealt any more (R284). -/
def execKeySlotUpdate (slot : Nat) (s : State) : Out :=
  .next <|
    match s.vault.keyPending.find? (·.1 = slot) with
    | none => s
    | some c =>
      if !s.dealing || (s.cad.trick = 0 && decide (c.2.2 + 100000000 ≤ s.cad.startPs)) then
        State.setKey { s with vault := { s.vault with keyPending := s.vault.keyPending.erase c } } c.1 c.2.1
      else s

/-! ## Images (R278, R281) -/

def State.referenced (s : State) (id : Nat) : Bool := s.forms.any (·.weightImage = id)

/-- IMAGE_DELETE: an entry READY or DAMAGED that no loaded form names becomes ABSENT, its extents free (R281). -/
def execImageDelete (c : CmdSlot) (s : State) : Out :=
  .next <| s.hostCommand 0x41 c true none fun s t =>
    let id := c.arg0.toNat
    if argHigh c.arg0 32 || c.arg1 ≠ 0 || c.arg2 ≠ 0 then s.complete t 0xE0 else
    match s.imageOf id with
    | none => s.complete t 0x14
    | some (i, _) =>
      if s.referenced id then s.complete t 0x04
      else State.complete { s with nv := { s.nv with images := adel i s.nv.images } } t 0

/-- Extents in use on a die. -/
def State.extentsOn (s : State) (die : Nat) : List (Nat × Nat) :=
  (s.nv.images.map (fun e => e.2.extents.getD die (0, 0))).filter (fun x => 0 < x.2)

/-- The lowest-addressed free run of `n` blocks of a die (R294). -/
def freeRun (used : List (Nat × Nat)) (n : Nat) : Option Nat :=
  let starts := (0 :: used.map (fun x => x.1 + x.2)).filter (fun a => decide (a + n ≤ 4194304) && !used.any (fun x => overlaps x.1 x.2 a n))
  match starts with
  | [] => none
  | a :: t => some (t.foldl min a)

/-! ## The pass (R291 to R297) -/

def passHeadBytes : Nat := 640

/-- BAD_HEADER as R291 gives it. -/
def passHeadBad (b : Bytes) : Bool :=
  let counts := (List.range 128).map (fun i => le b (0x40 + 4 * i) 4)
  b.length ≠ passHeadBytes || le b 0 4 ≠ 0x53534150 || le b 4 2 ≠ 1 || byteAt b 6 < 1 || 16 < byteAt b 6 || byteAt b 7 / 4 ≠ 0
    || le b 8 4 = 0 || le b 0xC 4 = 0 || nonzero b 0x14 44 || nonzero b 0x244 60 || counts.any (fun c => decide (4194304 < c))
    || (bit (byteAt b 7) 0 && (counts.drop 8).any (· ≠ 0)) || crc32cSkip 0x240 b ≠ le b 0x240 4

/-- The image digest: SHA-384 of the header with MEND and CHECK as zero (R282). -/
def passDigest (b : Bytes) : BitVec 384 :=
  Config.sha384 (b.take 7 ++ [BitVec.ofNat 8 (byteAt b 7 % 2)] ++ (b.drop 8).take 0x238 ++ [0, 0, 0, 0] ++ b.drop 0x244)

def parsePassHead (b : Bytes) : PassHead :=
  { positions := byteAt b 6, replicate := bit (byteAt b 7) 0, mend := bit (byteAt b 7) 1, id := le b 8 4, keyId := le b 0xC 4, gen := le b 0x10 4
    counts := (List.range 128).map (fun i => le b (0x40 + 4 * i) 4), digest := passDigest b }

/-- Position whose records this device keeps: its own, or 0 with REPLICATE where the position is below POSITIONS (R293). -/
def State.keptPos (s : State) (h : PassHead) : Nat := if h.replicate && decide (s.dict.settings.position < h.positions) then 0 else s.dict.settings.position

/-- Blocks of this device's shard on a die. -/
def State.kept (s : State) (h : PassHead) (die : Nat) : Nat := h.counts.getD (8 * s.keptPos h + die) 0

def State.sparesLeft (s : State) (die : Nat) : Nat := 65536 - (aget die s.nv.sparesUsed).getD 0

/-- The entry a MEND stream must match (R297). -/
def State.mendTarget (s : State) (h : PassHead) : Option (Nat × ImageEntry) :=
  match s.imageOf h.id with
  | some (i, e) =>
    if e.keyId = h.keyId && e.gen = h.gen && e.digest = h.digest && (List.range 8).all (fun d => (e.extents.getD d (0, 0)).2 = s.kept h d) then some (i, e) else none
  | none => none

/-- Extents for a new image; none when a die lacks a run. -/
def State.allocate (s : State) (h : PassHead) : Option (List (Nat × Nat)) :=
  (List.range 8).foldr (fun d acc => match acc with
    | none => none
    | some l => if s.kept h d = 0 then some ((0, 0) :: l) else match freeRun (s.extentsOn d) (s.kept h d) with
      | some a => some ((a, s.kept h d) :: l)
      | none => none) (some [])

/-- The first refusal of Table 10.5 that a header meets here; none when the device may keep its shard. -/
def State.passRefusal (s : State) (b : Bytes) : Option Nat :=
  let h := parsePassHead b
  if passHeadBad b || (h.mend && (s.mendTarget h).isNone) then some 0x01
  else if !s.vault.keys.any (fun k => k.2.1 = h.keyId) then some 0x02
  else if !h.mend && s.nv.images.any (fun e => e.2.id = h.id && decide (h.gen ≤ e.2.gen)) then some 0x03
  else if s.referenced h.id && (!h.mend || s.nv.images.any (fun e => e.2.id = h.id && e.2.state = 2)) then some 0x04
  else if (if h.mend then (match s.mendTarget h with
        | some (_, e) => (List.range 8).any (fun d => decide (s.sparesLeft d < (e.damaged.filter (·.1 = d)).length))
        | none => false)
      else (s.allocate h).isNone) then some 0x05
  else if !h.mend && 64 ≤ s.nv.images.length then some 0x06
  else if !s.keysAllowed then some 0x0D
  else none

/-- The lowest image index not in use. -/
def State.freeIndex (s : State) : Nat := ((List.range 64).find? (fun i => (aget i s.nv.images).isNone)).getD 0

/-- Forward stream bytes to the ring successor (R293). -/
def State.forwardPass (s : State) (b : Bytes) : State :=
  match s.vault.pass with
  | some p =>
    if s.dict.settings.position + 1 < p.head.positions && s.dict.settings.passLink < 8 then s.deckSend s.dict.settings.passLink 3 b else s
  | none => s

/-- PASS: only the position-0 device takes it (R293, Table 10.5). -/
def execPass (c : CmdSlot) (s : State) : Out :=
  .next <| s.hostCommand 0x40 c true none fun s t =>
    if c.arg2 ≠ 0 then s.complete t 0xE0
    else if s.vault.pass.isSome || s.vault.passCmd.isSome then s.complete t 0x0B
    else if s.dict.settings.position ≠ 0 then s.complete t 0x0C
    else if !s.keysAllowed then s.complete t 0x0D
    else { s with vault := { s.vault with passCmd := some t } }

/-- The stream's bytes are accepted: the credits withheld for their flits are owed to the link they came in on (R293). -/
def State.creditPass (s : State) : State :=
  match s.vault.passFrom with
  | none => s
  | some k =>
    let l := s.deckLink k
    State.setLink { s with vault := { s.vault with passHeld := 0 } } k { l with owed := [l.owed.getD 0 0, l.owed.getD 1 0, l.owed.getD 2 0 + s.vault.passHeld] }

/-- PASS_HEADER: the header arrives, from the host at position 0 and over the pass link elsewhere; the entry is created or the device is refused, and the stream goes on (R291, R294). A BUSY device forwards nothing and posts VAULT with that status (R295). -/
def execPassHeader (value : Bytes) (s : State) : Out :=
  .next <|
    let s := s.creditPass
    if s.vault.pass.isSome then
      let h := parsePassHead value
      State.post { s with vault := { s.vault with lastStatus := 0x0B } } { ev 0x0F 0 s.curDeal with w1 := 0x0B + 256 * 0x0B, w2 := h.id, w3 := h.gen }
    else if s.dict.settings.position = 0 && s.vault.passCmd.isNone then s
    else
      let h := parsePassHead value
      let start := fun (s : State) (entry : Option Nat) (status : Nat) =>
        State.forwardPass { s with vault := { s.vault with
          pass := some { head := h, entry, nextIdx := [], status, ticket := s.vault.passCmd, ended := false }, passCmd := none } } value
      match s.passRefusal value with
      | some st => start s none st
      | none =>
        if h.mend then start s ((s.mendTarget h).map (·.1)) 0
        else
          let i := s.freeIndex
          let e : ImageEntry := { id := h.id, keyId := h.keyId, gen := h.gen, state := 1, pos := s.keptPos h, replicate := h.replicate
                                  extents := (s.allocate h).getD [], digest := h.digest, damaged := [] }
          start { s with nv := { s.nv with images := aset i e s.nv.images } } (some i) 0

def State.setPass (s : State) (p : PassRun) : State := { s with vault := { s.vault with pass := some p } }

/-- The pass fails here: the WRITING entry is deleted (R294); the stream still goes on to the others. -/
def State.failPass (s : State) (p : PassRun) (status : Nat) : State :=
  let s := s.setPass { p with status, entry := none }
  match p.entry with
  | some i => if p.head.mend then s else { s with nv := { s.nv with images := adel i s.nv.images } }
  | none => s

/-- BAD_STREAM as far as one record shows it (R292). -/
def recordBad (p : PassRun) (b : Bytes) : Bool :=
  let pos := byteAt b 0 % 16
  let die := byteAt b 0 / 16 % 8
  let idx := le b 4 4
  let next := (aget (8 * pos + die) p.nextIdx).getD 0
  b.length ≠ 4128 || 128 ≤ byteAt b 0 || nonzero b 1 3 || nonzero b 8 8 || p.head.counts.getD (8 * pos + die) 0 ≤ idx
    || (if p.head.mend then decide (idx < next) else idx ≠ next)

/-- A vault read failure outside a deal's weight stream: counted, and logged with its detail code under the vault-read-failure cause (R301, Table 10.8). -/
def State.vaultFailure (s : State) (detail die : Nat) : State :=
  State.post { s with vault := { s.vault with failures := s.vault.failures + 1 } } (logItem 7 detail s.curDeal (placeDie die))

/-- A kept record is written and authenticated (R285, R294, R297). -/
def State.keepRecord (s : State) (p : PassRun) (i : Nat) (b : Bytes) (media : Media) : State :=
  let die := byteAt b 0 / 16 % 8
  let idx := le b 4 4
  match aget i s.nv.images with
  | none => s
  | some e =>
    let blk := (e.extents.getD die (0, 0)).1 + idx
    let spare := p.head.mend || media = .corrected
    if media = .failed || (spare && s.sparesLeft die = 0) then s.failPass p 0x09 else
    let old := s.nv.blocks
    let ct := (b.drop 16).take 4096
    let tag := BitVec.ofNat 128 (leAll (b.drop 4112).reverse)
    let s : State := { s with nv := { s.nv with
      blocks := aset (blockKey die blk) (ct, tag) s.nv.blocks
      written := aset die ((aget die s.nv.written).getD 0 + 4096) s.nv.written
      sparesUsed := if spare then aset die ((aget die s.nv.sparesUsed).getD 0 + 1) s.nv.sparesUsed else s.nv.sparesUsed } }
    match s.readBlock e die idx with
    | .error d =>
      let s := s.vaultFailure d die
      let s : State := if p.head.mend then { s with nv := { s.nv with blocks := old } } else s
      s.failPass p 0x08
    | .ok (_, above) =>
      let left := e.damaged.filter (fun x => x ≠ (die, blk))
      -- a DAMAGED entry with no damaged block left becomes READY (R297)
      let e := { e with damaged := left, state := if p.head.mend && left = [] then 2 else e.state }
      { s with vault := { s.vault with aboveLowest := s.vault.aboveLowest + boolNat above }
               nv := { s.nv with images := aset i e s.nv.images } }

/-- PASS_RECORD: one record of the stream is accepted, a kept one because its die's write queue has room (R292, R293). A write that the media needed a spare for is remapped. A record of no bytes at position 0 stands for the host's abort of the pass (Table 10.5; DESIGN CHOICE, log entry 101). -/
def execPassRecord (value : Bytes) (media : Media) (s : State) : Out :=
  .next <|
    match s.vault.pass with
    | none => s
    | some p =>
      if p.ended then s
      else if value = [] && p.ticket.isSome then (if p.status = 0 then s.failPass p 0x0E else s)
      else
      let s := s.creditPass.forwardPass value
      if recordBad p value then (if p.status = 0 then s.failPass p 0x07 else s) else
      let pos := byteAt value 0 % 16
      let die := byteAt value 0 / 16 % 8
      let p := { p with nextIdx := aset (8 * pos + die) (le value 4 4 + 1) p.nextIdx }
      let s := s.setPass p
      match p.entry with
      | some i => if pos = s.keptPos p.head then s.keepRecord p i value media else s
      | none => s

/-- Every counted record has arrived; a MEND stream carries any subset (R292). -/
def PassRun.whole (p : PassRun) : Bool :=
  p.head.mend || (List.range 128).all (fun k => (aget k p.nextIdx).getD 0 = p.head.counts.getD k 0)

/-- At the end of the stream a new entry is READY and its predecessor gone (R294). -/
def State.endStream (s : State) (p : PassRun) : State :=
  match p.entry.bind (fun i => (aget i s.nv.images).map (fun e => (i, e))) with
  | none => s
  | some (i, e) =>
    if p.head.mend then s else
      let rest := s.nv.images.filter (fun x => x.1 = i || x.2.id ≠ e.id)
      { s with nv := { s.nv with images := aset i { e with state := 2 } rest } }

/-- PASS_STREAM_END: the last record has come, or the source of the stream failed (R292, R294, Table 10.5). -/
def execPassStreamEnd (linkLost : Bool) (s : State) : Out :=
  .next <|
    match s.vault.pass with
    | none => s
    | some p =>
      if p.ended then s else
      let s := if p.status ≠ 0 then s else if linkLost then s.failPass p 0x0A else if !p.whole then s.failPass p 0x07 else s.endStream p
      match s.vault.pass with
      | some p => State.setPass { s with vault := { s.vault with lastStatus := p.status } } { p with ended := true }
      | none => s

/-- PASS_END_REPORT: the report comes back; each device posts VAULT, sends the report on to its predecessor over the link the stream came in on, and position 0 completes PASS (R295). The highest status stands in VALUE0 (log entry 28); the report is one byte, that status (log entry 101). -/
def execPassEndReport (highest : Nat) (s : State) : Out :=
  .next <|
    match s.vault.pass with
    | none => s
    | some p =>
      if !p.ended then s else
      let top := max p.status highest
      let s := s.post { ev 0x0F 0 s.curDeal with w1 := p.status + 256 * top, w2 := p.head.id, w3 := p.head.gen }
      let s := match s.vault.passFrom with
        | some k => if p.ticket.isNone then s.deckSend k 3 (toLe top 1) else s
        | none => s
      let s : State := { s with vault := { s.vault with pass := none, passFrom := none } }
      match p.ticket with
      | some t => s.completeWith t p.status top
      | none => s

/-! ## Scrub (R298) -/

/-- The entry that holds a block, and the block's index in its shard. -/
def State.blockOwner (s : State) (die block : Nat) : Option (Nat × ImageEntry × Nat) :=
  (s.nv.images.find? (fun e => (e.2.state = 2 || e.2.state = 3) && (let x := e.2.extents.getD die (0, 0); decide (x.1 ≤ block) && decide (block < x.1 + x.2)))).map
    (fun e => (e.1, e.2, block - (e.2.extents.getD die (0, 0)).1))

/-- VAULT_SCRUB: a block of an image is read; corrected errors are rewritten, a failure damages it (R298). With no slot of its key the scrub has no authentication to judge (log entry 29). -/
def execVaultScrub (die block : Nat) (media : Media) (s : State) : Out :=
  .next <|
    match s.blockOwner die block with
    | none => s
    | some (_, e, idx) =>
      match media with
      | .failed => (s.vaultFailure 0x50 die).damageBlock e.id die block 0x50
      | m =>
        let s : State := if m = .corrected then { s with
            vault := { s.vault with corrected := s.vault.corrected + 1 }
            nv := { s.nv with written := aset die ((aget die s.nv.written).getD 0 + 4096) s.nv.written } } else s
        if s.keysOf e.keyId = [] then s else
        match s.readBlock e die idx with
        | .ok (_, above) => { s with vault := { s.vault with aboveLowest := s.vault.aboveLowest + boolNat above } }
        | .error d => (s.vaultFailure d die).damageBlock e.id die block d

end Sys2Proof.Machine
end

