-- ==== Sys2Proof/Machine/Cascade.lean ====
section
/-!
DEFINITION. Machine/Cascade.lean: Deck links, group notices and bindings, and who is the Banker (R361 to R396).
-/
namespace Sys2Proof.Machine

/-! ## Groups: what is dealt for them (R382, R387) -/

/-- The plan's form is a Widen or Deepen form. -/
def Plan.grouped (p : Plan) (s : State) : Bool := match p.form s with | some f => decide (f.mode ≠ 0) | none => false

/-- The plan, if any, is of a Widen or Deepen form. -/
def State.groupedPlan (s : State) (p : Option Plan) : Bool := match p with | some p => p.grouped s | none => false

/-! ## Links (R361, R364, R367, R395) -/

/-- Something was lost with a bound link: in a deal of a Widen or Deepen form it is a misdeal cause of overrun, detail DECK (R395). -/
def State.boundLost (s : State) (k : Nat) : State :=
  if s.boundLinks.contains k && s.dealing && s.groupedPlan s.dealer.running then s.overrun 0x23 0xFFF 8 (placeLink k) s.cad.trick else s

/-- The link carries nothing any more: what it held is lost, its far end is no longer known (Table 13.9). -/
def DeckLink.fallen (l : DeckLink) (st : Nat) : DeckLink :=
  { st, replayed := l.replayed, losses := l.losses }

/-- A link that was UP or training goes DOWN, and its loss is counted (R364). -/
def State.dropLink (s : State) (k : Nat) : State :=
  let l := s.deckLink k
  (s.boundLost k).setLink k { l.fallen 0 with losses := l.losses + 1 }

/-- LINK_TRAINED: a link that trains comes UP in Run, with fresh sequence numbers and full credits (R361). -/
def execLinkTrained (link : Nat) (s : State) : Out :=
  .next <|
    let l := s.deckLink link
    if s.start.stage = 2 && s.power.phase = 0 && (l.st = 0 || l.st = 1) then s.setLink link { l.fallen 2 with st := 2 } else s

/-- LINK_DOWN: 32 NAKs without progress, or lane lock lost for 1 µs (R364). -/
def execLinkDown (link : Nat) (s : State) : Out :=
  .next <| if (s.deckLink link).st = 2 then s.dropLink link else s

/-- DECK_IDENT: the far end's ring address and link index; a link to another ring is held DOWN (R361, R367). The serial it carries has no other use. -/
def execDeckIdent (link : Nat) (_serial : Word64) (addr far : Nat) (sameRing : Bool) (s : State) : Out :=
  .next <|
    let l := s.deckLink link
    if l.st ≠ 2 then s
    else if !sameRing then (s.boundLost link).setLink link (l.fallen 3)
    else s.setLink link { l with farValid := true, farAddr := addr % 256, farLink := far % 8 }

/-! ## Flits (R362 to R366) -/

/-- A flit SEQ `q` lies among those that an ACK of `a` covers, counted from the oldest unacknowledged. -/
def ackCovers (first q a : Nat) : Bool := decide ((q + 4096 - first) % 4096 ≤ (a + 4096 - first) % 4096)

/-- What an ACK leaves unacknowledged; an ACK that names no flit in the window leaves all. -/
def DeckLink.acked (l : DeckLink) (a : Nat) : List SentFlit :=
  match l.sent with
  | [] => []
  | f :: _ => if l.sent.any (·.seq = a) then l.sent.filter (fun x => !ackCovers f.seq x.seq a) else l.sent

/-- ACK and credits of a header: flits acknowledged, credits returned, and what now may be sent goes out (R363). -/
def DeckLink.credit (l : DeckLink) (ack d n p : Nat) : DeckLink :=
  let sent := l.acked ack
  let add := fun (c v : Nat) => min (chanCap c) (l.credits.getD (c - 1) 0 + v)
  let l := { l with nakRun := if sent.length < l.sent.length then 0 else l.nakRun, sent, credits := [add 1 d, add 2 n, add 3 p] }
  DeckLink.drain l.waiting.length l

/-- A NAK: flits up to its ACK are done, the others are sent again; the 32nd in a row without progress takes the link DOWN (R364). -/
def State.nak (s : State) (k ack : Nat) : State :=
  let l := s.deckLink k
  let sent := l.acked ack
  if sent.length < l.sent.length then s.setLink k { l with sent, replayed := l.replayed + sent.length, nakRun := 0 }
  else if l.nakRun = 31 then s.dropLink k
  else s.setLink k { l with replayed := l.replayed + sent.length, nakRun := l.nakRun + 1 }

/-- DECK_NAK (R364). -/
def execDeckNak (link ack : Nat) (s : State) : Out :=
  .next <| if (s.deckLink link).st = 2 then s.nak link ack else s

/-- The transfer header of R365, or its rsvd bits (R3). -/
def parseXfer (b : Bytes) : DeckXfer :=
  let v := le b 2 14
  { deal := le b 0 2, die := bits v 0 3, row := bits v 3 6, col := bits v 9 5, dcore := bits v 14 6, doff := bits v 20 12, count := bits v 32 12
    rpe := bit v 44, rchip := bits v 45 5, rsvd := v / 2 ^ 50 ≠ 0, data := b.drop 16 }

/-- A whole transfer lands in the cluster store it names, for the deal it names; one of another deal, or with a rsvd bit set, lands nothing (log entry 37). -/
def State.landXfer (s : State) (x : DeckXfer) : State :=
  if x.rsvd || !s.dealing || x.deal ≠ s.cad.deal % 65536 || !s.groupedPlan s.dealer.running then s else
  let c := cstoreKey x.die x.row x.col
  let dst : StoreRef := .cluster c
  let cycle := 64 * s.cad.trick
  let i : Item :=
    { id := s.svis.nextItem, core := c * 64 + x.dcore, die := x.die, stream := 0, owner := .deal 0xFFF, queue := 4, seq := 0, plane := .memory, issue := cycle
      done := cycle, lateDetail := 0x23, latePlace := 0, accs := [], incoming := dst.acc (64 * x.doff) (64 * x.count) true
      writes := [{ dsts := [dst], addr := 64 * x.doff, data := x.data.take (64 * x.count), mark := false }], hbm := [], reg := none, post := none
      remote := if x.rpe then [(c * 64 + x.dcore, x.rchip)] else [], vault := none, held := false }
  -- an incoming access outside its store or region, or one that meets an access in flight there, is a renege no slot owns (R158, R160)
  let s : State := if i.incoming.any s.badAccess || s.incomingBlocked i then s.renege 0x10 0xFFF x.die else s
  State.land { s with svis := { s.svis with nextItem := s.svis.nextItem + 1 } } i

/-- DATA payload: a transfer begins, goes on, and lands when whole (R365). -/
def State.dataPayload (s : State) (k : Nat) (first : Bool) (b : Bytes) : State :=
  let l := s.deckLink k
  let x := if first then some (parseXfer b) else l.xfer.map (fun x => { x with data := x.data ++ b })
  match x with
  | none => s
  | some x =>
    if 64 * x.count ≤ x.data.length then (s.setLink k { l with xfer := none }).landXfer x
    else s.setLink k { l with xfer := some x }

/-- The flit is one to discard: CRC, TYPE, rsvd, or a SEQ out of order (R364). -/
def flitBad (l : DeckLink) (f : Flit) : Bool :=
  let sequenced := 1 ≤ f.type && f.type ≤ 3
  !f.ok || f.rsvd || 5 < f.type || (sequenced && f.seq ≠ l.rxNext) || (l.discarding && !sequenced)

/-- One-hot credits for the channel of a flit just taken; a PASS flit's is withheld until its record is accepted (R293). -/
def owedFor (t : Nat) : List Nat := [boolNat (t = 1), boolNat (t = 2), 0]

/-- DECK_DATA_FLIT: a flit is received in order, its ACK and credits taken, its payload delivered; or it is discarded until the expected SEQ comes (R362 to R365).
NOTICE records reach the group by the notice commands, PASS bytes by the pass commands. -/
def execDeckDataFlit (link : Nat) (f : Flit) (s : State) : Out :=
  .next <|
    let l := s.deckLink link
    if l.st ≠ 2 then s
    else if flitBad l f then s.setLink link { l with discarding := true }
    else
      let sequenced := 1 ≤ f.type && f.type ≤ 3
      let l := l.credit f.ack f.crData f.crNotice f.crPass
      let l := if sequenced then { l with rxNext := (l.rxNext + 1) % 4096, discarding := false, owed := owedFor f.type } else l
      let s := s.setLink link l
      let s : State := if f.type = 3 then { s with vault := { s.vault with passFrom := some link, passHeld := s.vault.passHeld + 1 } } else s
      if f.type = 1 then s.dataPayload link f.first (f.payload.take f.len)
      else if f.type = 4 then s.nak link f.ack
      else s

/-! ## Notices (Table 13.6, R386 to R396) -/

/-- The link is UP and in the group, and the record names the group. -/
def State.hears (s : State) (k : Nat) (n : Notice) : Bool :=
  (s.deckLink k).st = 2 && s.boundLinks.contains k && (match s.group.binding with | some b => b.groupId = n.groupId && b.member ≠ n.member | none => false)

/-- A record received for the first time is held and forwarded on every other bound link (R386); what it does follows. -/
def State.hear (s : State) (k kind : Nat) (n : Notice) (effect : State → State) : State :=
  let r : GroupRec := { kind, note := n }
  if !s.hears k n || s.group.records.contains r then s else
  effect ((s.boundLinks.filter (· ≠ k)).foldl (fun s j => s.deckSend j 2 (noticeBytes r))
    { s with group := { s.group with records := s.group.records ++ [r] } })

/-- SELECT: a member's selection and outcome for a deal (R391). -/
def execSelectNotice (link : Nat) (n : Notice) (s : State) : Out := .next (s.hear link 1 n (fun s => s))

/-- The group has diverged: nothing is dealt or re-dealt until the bindings are written again (R396). -/
def State.diverge (s : State) : State :=
  State.dropRedeal { s with group := { s.group with diverged := true } } 0x0D

/-- CAUSE: a member's misdeal cause counts for its deal here too; GROUP_DIVERGE brings the divergence with it (R388, R396). -/
def execCauseNotice (link : Nat) (n : Notice) (s : State) : Out :=
  .next <| s.hear link 2 n fun s =>
    let a := n.arg.toNat
    let c : Cause := { deal := n.deal, rank := bits a 0 8, detail := bits a 8 8, member := n.member, remote := true, slot := 0xFFF, die := 0, place := 0, repair := bit a 16 }
    let s : State := if s.dealing && decide (s.cad.deal ≤ n.deal) then { s with dealer := { s.dealer with causes := s.dealer.causes ++ [c] } } else s
    if bits a 8 8 = 0x74 then s.diverge else s

/-- FOLD: a seat fold, a slot fold or a void of a member, taken at the commit (R388). -/
def execFoldNotice (link : Nat) (n : Notice) (s : State) : Out := .next (s.hear link 3 n (fun s => s))

/-- NO_REDEAL: no member re-deals the sheet; where an image is damaged the deal that would have is idle (R300, R390). -/
def execNoRedealNotice (link : Nat) (n : Notice) (s : State) : Out :=
  .next <| s.hear link 4 n fun s =>
    match s.dealer.redeal with
    | none => s
    | some _ =>
      let s := (if bits n.arg.toNat 0 8 = 2 then s.idleRedeal else s).dropRedeal 0x06
      { s with dealer := { s.dealer with selected := s.dealer.selected.filter (fun p => p.redealOf.isNone) } }

/-- LEAVE: the member is off the table (Table 13.6, R392). -/
def execLeaveNotice (link : Nat) (n : Notice) (s : State) : Out := .next (s.hear link 5 n (fun s => s))

/-- SELECT records held for deal `d`. -/
def State.selects (s : State) (d : Nat) : List Notice := (s.group.records.filter (fun r => r.kind = 1 && r.note.deal = d)).map (·.note)

/-- The SELECT records carry differing outcomes (R396). -/
def outcomesDiffer (ns : List Notice) : Bool := ns.any (fun n => bit n.arg.toNat 19) && ns.any (fun n => !bit n.arg.toNat 19)

/-- Every member's SELECT is there, all name one form, and all or none name one re-deal (R391, R392). -/
def State.selectsAgree (s : State) (d : Nat) : Bool :=
  let ns := s.selects d
  match s.group.binding, ns with
  | some b, n :: _ =>
    let key := fun (x : Notice) => (bits x.arg.toNat 0 16, bits x.arg.toNat 20 28)
    (List.range b.size).all (fun m => ns.any (·.member = m)) && ns.all (fun x => key x = key n) && bits n.arg.toNat 0 16 ≠ 0
      && !s.group.records.any (fun r => r.kind = 5 && decide (d ≤ r.note.deal + 1))
  | _, _ => false

/-- The selected sheet receives GROUP_SPLIT and the next deal is idle (R391); a re-deal stays held. -/
def State.splitGroup (s : State) : State :=
  let s : State := match s.dealer.selected with
    | some p => if p.redealOf.isSome then s else s.finishSheet p 0x0D
    | none => s
  { s with group := { s.group with idleNext := true }, dealer := { s.dealer with selected := none } }

/-- GROUP_COMPARE: at D−1:T(L−128) the members' SELECT records for D are compared (R391, R392, R396). -/
def execGroupCompare (s : State) : Out :=
  .next <|
    if !s.inGroup || s.cad.compared || !(s.dealing || (s.cad.st = .ready && s.cad.joinMark = some (s.cad.deal + 1))) || !s.atLeft 128 then s else
    let d := s.cad.deal + 1
    let s := { s with cad := { s.cad with compared := true } }
    if outcomesDiffer (s.selects d) then State.splitGroup (State.diverge (s.addCause 6 0x74 0xFFF 0 0))
    else if s.selectsAgree d then s else s.splitGroup

/-! ## Bindings (R381, R382) -/

/-- BAD_RECORD of a record that binds (Table 13.4). -/
def bindingBad (b : Bytes) (own : Nat) : Bool :=
  let size := byteAt b 3
  let member := byteAt b 4
  let ring := fun m => le b (8 + m) 1
  byteAt b 2 < 1 || 2 < byteAt b 2 || size < 2 || 16 < size || size ≤ member
    || (List.range 16).any (fun m => if m < size then decide (31 < ring m) else ring m ≠ 0xFF)
    || ring member ≠ own
    || !decide (((List.range size).map ring).Nodup)
    || (List.range 8).any (fun k => let p := byteAt b (0x18 + k); p = member || (size ≤ p && p ≠ 0xFF))

def parseBinding (b : Bytes) : Binding :=
  { groupId := le b 0 2, mode := byteAt b 2, size := byteAt b 3, member := byteAt b 4
    ring := (List.range 16).map (fun m => byteAt b (8 + m)), peer := (List.range 8).map (fun k => byteAt b (0x18 + k)), image := b }

/-- The status of Table 13.4. -/
def State.bindingStatus (s : State) (v : Bytes) : Nat :=
  if crc32cSkip 0x3C v ≠ le v 0x3C 4 then 1
  else if le v 0 2 = 0 then 0
  else if bindingBad v s.hb.addr then 1
  else
    let b := parseBinding v
    let split := (List.range 8).any (fun k => let p := b.peer.getD k 0xFF
      p ≠ 0xFF && ((s.deckLink k).st ≠ 2 || !(s.deckLink k).farValid || (s.deckLink k).farAddr ≠ b.ring.getD p 0xFF))
    if split then 2
    else if (List.range b.size).any (fun m => !s.hb.present.getLsbD (b.ring.getD m 0xFF)) then 3
    else 0

/-- GROUP_BINDING's record is checked and stored, or refused whole (R381). -/
def State.bindWrite (s : State) (v : Bytes) : WriteRes :=
  if v.length ≠ 64 then wRange s
  else if nonzero v 5 3 || nonzero v 0x20 28 then wRsvd s
  else match s.bindingStatus v with
    | 0 => wOk { s with group := { s.group with stored := some (if le v 0 2 = 0 then none else some (parseBinding v)) } }
    | n => wRefused n s

/-- BINDING_EFFECT: no deal of a Widen or Deepen form is running, selected or awaiting re-deal (R382). -/
def execBindingEffect (s : State) : Out :=
  .next <|
    match s.group.stored with
    | none => s
    | some b =>
      if (s.dealing && s.groupedPlan s.dealer.running) || s.groupedPlan s.dealer.selected || s.groupedPlan s.dealer.redeal then s
      else { s with group := { s.group with binding := b, stored := none, records := [], diverged := false, idleNext := false } }

/-! ## The Banker (R369 to R379, R393) -/

/-- Become the Banker: its generator starts with the given deal, its rounds now (R373, R377, R378). -/
def State.becomeBanker (s : State) (deal len period nextLen nextPeriod : Nat) (lead : Bool) : State :=
  { s with
    board := { s.board with beatOut := true }
    hb := { s.hb with round := 0, roundPs := none, dr := 0, lag := 0, lost := 0, known := 0, missing := [], broken := false, closure := 0, closureBad := false,
                      sent := [], voided := [], lap1 := [], admitted := [], join := 0, floor := 0, stretch := 0 }
    cascade := { s.cascade with isBanker := true, genDeal := deal, genLen := len, genPeriod := period, genPs := s.now, leadIn := lead
                                nextLen, nextPeriod, planLen := s.dict.settings.lenPlan, lenPlan := [], handoverTo := none } }

/-- Stop being the Banker: the driver is disabled and what only the Banker measures is cleared (R372, Table 14.11). -/
def State.stopBanker (s : State) : State :=
  { s with
    board := { s.board with beatOut := false }
    hb := { s.hb with roundPs := none, dr := 0, lag := 0, lost := 0, known := 0, missing := [], broken := false, closure := 0, closureBad := false, sent := [], voided := [], admitted := [] }
    cascade := { s.cascade with isBanker := false, handoverTo := none, syncWait := false, refState := 0, leadIn := false } }

/-- BANKER_ELECTION_TIMEOUT: a start candidate has listened for 100 µs from Hatband-ready (R373, R393). -/
def execBankerElectionTimeout (s : State) : Out :=
  .next <|
    if s.start.stage = 0 || s.cascade.elected || s.cascade.isBanker || s.sec.lifeCycle = 4 || !(s.board.bankerEn || s.dict.settings.candidate = 1) then s else
    let s := s.advanceTo (s.start.readyPs + 100000000)
    let s := { s with cascade := { s.cascade with elected := true } }
    if s.hb.lastHdr.isSome then s.post (logItem 0 0x72 0 0)
    else
      let g := s.dict.settings
      let s := s.becomeBanker 0 g.lenPlan g.periodPlan g.lenPlan g.periodPlan false
      { s with cascade := { s.cascade with syncWait := bit g.refSync 0 && bit g.refSync 1 } }

/-- Rank of this device among the eligible ones, counted round the ring from the entry after ORDER[0], the lost Banker's skipped (R377). -/
def State.bankerRank (s : State) (lost : Nat) : Nat :=
  match (((s.hb.order.drop 1 ++ s.hb.order.take 1).filter (fun e => e.elig && e.addr ≠ lost)).map (·.addr)).idxOf? s.hb.addr with
  | some i => i + 1
  | none => 32

/-- BANKER_TAKEOVER: this device's ranked wait is over, or the Banker handed over to it, and no wait is needed (R376, R377, R378). How a target learns of a handover the spec does not say: it is the command's operand. -/
def execBankerTakeover (handover : Bool) (s : State) : Out :=
  .next <|
    match s.hb.lastHdr with
    | none => s
    | some h =>
      if s.start.stage = 0 || s.cascade.isBanker || s.sec.lifeCycle = 4 || s.dict.settings.eligible = 0 || s.hb.dup then s else
      let wait := if handover then 0 else 24000000 + (s.bankerRank h.bankerId - 1) * 16000000
      let s := s.advanceTo (s.hb.headerPs + wait)
      s.becomeBanker (h.curDeal + 1) 2048 h.nextPeriod h.nextLen h.nextPeriod true

/-- HANDOVER's target is written (R376). -/
def State.handoverWrite (s : State) (target : Nat) : WriteRes :=
  if 31 < target then wRange s
  else if !s.cascade.isBanker then wState s
  else if !s.hb.order.any (fun e => e.addr = target && e.elig) then wRefused 0x01 s
  else if target = s.hb.addr then wRefused 0x02 s
  else if s.cascade.handoverTo.isSome then wRefused 0x03 s
  else wOk { s with cascade := { s.cascade with handoverTo := some target } }

/-- JOIN_MARK: the deal at whose mark the device may enter DEALING (R371); bits above [47:0] are discarded (R429). -/
def State.joinWrite (s : State) (deal : Nat) : WriteRes :=
  wOk { s with cad := { s.cad with joinMark := some (deal % 2 ^ 48), joinPs := s.now } }

/-- REF_IN_LOSS: 10 ms without REF_IN put a Banker that locks to it in holdover, and STRETCH_REQ with period 0 says so (R393). -/
def execRefInLoss (s : State) : Out :=
  .next <|
    if s.cascade.isBanker && bit s.dict.settings.refSync 0 && s.cascade.refState ≠ 2 then
      State.post { s with cascade := { s.cascade with refState := 2 } } (ev 0x09 0 s.curDeal)
    else s

/-- REF_IN_LOCK (R393). -/
def execRefInLock (s : State) : Out :=
  .next <|
    if s.cascade.isBanker && bit s.dict.settings.refSync 0 then { s with cascade := { s.cascade with refState := 1 } } else s

/-- SYNC_IN: the Banker's first deal mark falls on the first BEAT edge after the pulse (R393). -/
def execSyncIn (s : State) : Out :=
  .next <|
    if s.cascade.isBanker && s.cascade.syncWait then
      let p := 1000 * s.cascade.genPeriod
      { s with cascade := { s.cascade with syncWait := false, genPs := s.cascade.genPs + ((s.now - s.cascade.genPs) / p + 1) * p } }
    else s

end Sys2Proof.Machine
end

