-- ==== Sys2Proof/Machine/Defects.lean ====
section
/-!
DEFINITION. Machine/Defects.lean: the kibitzer, defect sources and self-test (R188, R189, R240, R301, R336 to R348, R356 to R359, R590).
-/
namespace Sys2Proof.Machine

/-! ## Where a defect falls -/

/-- Deal tricks of a deal the device deals (R24). -/
def State.inDealTricks (s : State) : Bool := s.dealing && (match s.left with | some n => decide (257 ≤ n) | none => false)

/-- The defect's die lies in the open window in progress. -/
def State.inOpenWindow (s : State) (die : Nat) : Bool :=
  match s.svis.openWin with | some w => w.dieMask.getLsbD die | none => false

/-- Register a check: it runs at the decision of its deal, or at once when nothing is dealt (R348). -/
def State.addCheck (s : State) (u : UnitRef) (rank detail : Nat) : State :=
  { s with dealer := { s.dealer with checks := s.dealer.checks ++ [{ unit := u, rank, detail, deal := s.causeDeal, running := !s.dealing }] } }

/-- The logical column of a physical one. -/
def State.logCol (s : State) (d col : Nat) : Nat := ((s.liveCols d).idxOf? col).getD 0

/-- A program owns a physical cluster: a stream of it runs on the cluster's logical place (R125). -/
def State.ownsCluster (s : State) (p : Program) (d row col : Nat) : Bool :=
  (s.liveCols d).contains col && p.info.streams.any (fun t => t.dieMask.getLsbD d && decide (t.rowLo ≤ row) && decide (row ≤ t.rowHi) && decide (t.colLo ≤ s.logCol d col) && decide (s.logCol d col ≤ t.colHi))

/-- The running program that owns a cluster stops with DEFECT (0x05), the instruction at fault being none in particular (R188, R348). -/
def State.stopDefect (s : State) (d row col : Nat) : State :=
  (s.svis.programs.filter (fun p => p.start.isSome && s.ownsCluster p d row col)).foldl (fun s p => s.stopAt p.id 0x05) s

/-- A defect of Table 12.5 at a cluster: in an open window it stops the program that owns the cluster, in deal tricks it misdeals the deal, and its check follows either way. -/
def State.defect (s : State) (u : UnitRef) (detail die row col : Nat) : State :=
  if s.inOpenWindow die then (s.stopDefect die row col).addCheck u 3 detail
  else if s.inDealTricks then (s.addCheck u 3 detail).addCause 3 detail 0xFFF die (placeCluster die row col)
  else s.addCheck u 3 detail

def State.corrected (s : State) : State := { s with svis := { s.svis with corrected := s.svis.corrected + 1 } }

/-- STORE_ECC: a single-bit error is corrected and counted; an uncorrectable one in a store is a core defect (R188). -/
def execStoreEcc (u : UnitRef) (_line : Nat) (uncorrectable : Bool) (s : State) : Out :=
  .next <|
    if !uncorrectable then s.corrected
    else match u with
      | .coreStore d r c k => s.defect (.coreStore d r c k) 0x30 d r c
      | .clusterStore d r c => s.defect (.clusterStore d r c) 0x30 d r c
      | _ => s

/-! ## The Felt (R174, R175, R189) -/

/-- Numbers from one to another, both ends in. -/
def upTo (a b : Nat) : List Nat := (List.range (max a b + 1 - min a b)).map (· + min a b)

/-- Routers a tile-plane transfer crosses between two clusters, by physical column: along the source row, then along the column; to another die along both rows to and from their gateways (R174). -/
def State.tileRoute (s : State) (a b : Nat) : List (Nat × Nat × Nat) :=
  let pa := (s.liveCols (ckDie a)).getD (ckCol a) 0
  let pb := (s.liveCols (ckDie b)).getD (ckCol b) 0
  if a = b then []
  else if ckDie a = ckDie b then
    (upTo pa pb).map (fun c => (ckDie a, ckRow a, c)) ++ (upTo (ckRow a) (ckRow b)).map (fun r => (ckDie a, r, pb))
  else (upTo pa 33).map (fun c => (ckDie a, ckRow a, c)) ++ (upTo pb 33).map (fun c => (ckDie b, ckRow b, c))

/-- Hub gateways it crosses. -/
def tileGateways (a b : Nat) : List (Nat × Nat) := if ckDie a = ckDie b then [] else [(ckDie a, ckRow a), (ckDie b, ckRow b)]

/-- Clusters whose stores an item's transfer lands in. -/
def Item.targets (i : Item) : List Nat :=
  (i.incoming.map (fun a => match a.ref with | .core k => k / 64 | .cluster k => k)).dedup

/-- An item in flight crosses a router. A memory-plane item goes along its row between its cluster and the memory-side port at the west edge (DESIGN CHOICE, log entry 100). -/
def State.crossesRouter (s : State) (i : Item) (die row col : Nat) : Bool :=
  let a := i.core / 64
  match i.plane with
  | .tile => i.targets.any (fun b => (s.tileRoute a b).contains (die, row, col))
  | .memory => ckDie a = die && ckRow a = row && decide (col ≤ (s.liveCols die).getD (ckCol a) 0)
  | .local => false

/-- An item in flight crosses a hub gateway: a memory-plane one where it may leave its die by its row. -/
def State.crossesGateway (i : Item) (die row : Nat) : Bool :=
  let a := i.core / 64
  match i.plane with
  | .tile => i.targets.any (fun b => (tileGateways a b).contains (die, row))
  | .memory => ckDie a = die && ckRow a = row
  | .local => false

/-- A landing without its line `j`. -/
def StoreWrite.without (w : StoreWrite) (j : Nat) : List StoreWrite :=
  [{ w with data := w.data.take (64 * j) }, { w with addr := w.addr + 64 * (j + 1), data := w.data.drop (64 * (j + 1)) }].filter (fun x => x.data ≠ [])

/-- An item without one of the lines it moves, counted through its landings and then its lines to HBM. -/
def Item.dropLine (i : Item) (n : Nat) : Item :=
  let r := i.writes.foldl (fun (acc : List StoreWrite × Option Nat) w =>
    match acc.2 with
    | none => (acc.1 ++ [w], none)
    | some k => if k < (w.data.length + 63) / 64 then (acc.1 ++ w.without k, none) else (acc.1 ++ [w], some (k - (w.data.length + 63) / 64))) (([] : List StoreWrite), some n)
  { i with writes := r.1, hbm := match r.2 with | some k => i.hbm.eraseIdx k | none => i.hbm }

/-- Lines an item moves. -/
def Item.lineCount (i : Item) : Nat := (i.writes.map (fun w => (w.data.length + 63) / 64)).sum + i.hbm.length

def State.parityCount (s : State) : State := { s with svis := { s.svis with parity := s.svis.parity + 1 } }

/-- A parity error on a link or gateway in an open window: of a program's transfers that cross it one loses a line, which transfer and which line being free values, and the program that sent it stops with DEFECT (R189). -/
def State.dropOnLink (s : State) (l : List Item) : State :=
  if l = [] then s else
  let (a, s) := s.takeFree
  let (b, s) := s.takeFree
  match l[a.toNat % l.length]? with
  | none => s
  | some i =>
    let i' := i.dropLine (b.toNat % max 1 i.lineCount)
    let s : State := { s with svis := { s.svis with items := s.svis.items.map (fun j => if j.id = i.id then i' else j) } }
    match i.owner with
    | .program id _ => s.stopProgram id 0x05 i.seq
    | .deal _ => s

/-- A Felt link or gateway parity error (R189): in an open window it drops a line of a program's transfer, in deal tricks it misdeals the deal; it is counted, and its check follows either way. -/
def State.felt (s : State) (u : UnitRef) (detail die place : Nat) (crosses : Item → Bool) : State :=
  let s := s.parityCount
  if s.inOpenWindow die then
    (s.dropOnLink (s.svis.items.filter (fun i => crosses i && (match i.owner with | .program _ _ => true | .deal _ => false)))).addCheck u 3 detail
  else if s.inDealTricks then (s.addCheck u 3 detail).addCause 3 detail 0xFFF die place
  else s.addCheck u 3 detail

/-- LINK_PARITY (R189): attributed to the router. -/
def execLinkParity (die row col : Nat) (s : State) : Out :=
  .next (s.felt (.router die row col) 0x31 die (placeCluster die row col) (fun i => s.crossesRouter i die row col))

/-- GATEWAY_PARITY (R189): attributed to the gateway. -/
def execGatewayParity (die row : Nat) (s : State) : Out :=
  .next (s.felt (.gateway die row) 0x32 die (placeCluster die row 0) (fun i => State.crossesGateway i die row))

/-- TABLE_ECC (R240): a cluster's function-table copy. -/
def execTableEcc (die row col : Nat) (uncorrectable : Bool) (s : State) : Out :=
  .next <| if uncorrectable then s.defect (.table die row col) 0x33 die row col else s.corrected

/-- SFU_PARITY (Table 12.5). -/
def execSfuParity (die row col : Nat) (s : State) : Out := .next (s.defect (.sfu die row col) 0x36 die row col)

/-- VAULT_PORT (R301, Table 10.7): a vault read failure of the running form's image at a block, and the port's check. -/
def execVaultPort (die block : Nat) (s : State) : Out :=
  .next <|
    if !s.inDealTricks then (s.vaultFailure 0x52 die).addCheck (.vaultPort die) 7 0x52 else
    let image := match s.codeForm with | some f => f.weightImage | none => 0
    let s : State := { s with
      vault := { s.vault with failures := s.vault.failures + 1 }
      dealer := { s.dealer with vaultFails := s.dealer.vaultFails ++ (if image = 0 then [] else [{ deal := s.causeDeal, image, die, block, detail := 0x52 }]) } }
    (s.addCheck (.vaultPort die) 7 0x52).addCause 7 0x52 0xFFF die (placeDie die)

/-- HUB_DEFECT (Table 12.5, R359): no check and no repair; one that recurs within the transient window takes the device from the table. -/
def execHubDefect (s : State) : Out :=
  let again := match s.repair.hubDefectDeal with
    | some d => decide (s.cad.deal - d ≤ s.repair.transientWindow)
    | none => false
  let s := { s with repair := { s.repair with hubDefectDeal := some s.cad.deal } }
  .next <|
    if again then
      let s := { s with repair := { s.repair with hubHold := true }, cad := { s.cad with holdHub := true } }
      if s.dealing then s.leaveTable 3 0x37 .left else s.toLeft 0
    else s.addCause 3 0x37 0xFFF 8 (placeDie 8)

/-- DROOP: more than 20 ns in deal tricks misdeals the deal; no check, no repair (R590). A lost die runs nothing. -/
def execDroop (die ns : Nat) (s : State) : Out :=
  .next <| if 20 < ns && s.inDealTricks && s.deck die ≠ 2 then s.addCause 3 0x38 0xFFF die (placeDie die) else s

/-- HBM_UNCORRECTABLE: the line becomes poisoned, in usable HBM or in a die's reserved part (R258, Table 9.1). -/
def execHbmUncorrectable (pa : Nat) (s : State) : Out :=
  .next <| if pa < 8 * dieStride then s.markPoison pa else s

/-! ## The kibitzer (R336 to R347) -/

/-- Clusters that run deal code: every row of every live column of every die, with the physical column. -/
def State.liveClusters (s : State) : List (Nat × Nat × Nat) :=
  (List.range 8).flatMap (fun d => (s.liveCols d).flatMap (fun c => (List.range 64).map (fun r => (d, r, c))))

/-- Cores a cluster's rotation can use: those of R338, without the two that the double audit of this deal holds (R344). -/
def State.rotation (s : State) (d row col : Nat) : List (Nat × Nat) :=
  (s.shadowCores d row col).filter (fun x => !s.repair.suspects.any (fun y => y.die = d && y.row = row && !y.awaitBist && decide (y.deal < s.cad.deal) && y.shadowCol = x.1 && y.shadow = x.2))

/-- The rotation pointers as the window leaves them (R337). -/
def State.turn (s : State) : List (Nat × Nat) :=
  ((s.liveClusters.map (fun x =>
    let k := clusterKey x.1 x.2.1 x.2.2
    (k, ((aget k s.repair.rp).getD 0 + (s.rotation x.1 x.2.1 x.2.2).length) % 64))).filter (fun x => x.2 ≠ 0)).foldl (fun l x => aset x.1 x.2 l) []

/-- AUDIT_WINDOW_START: at T(256w) free cores take up their shadows, and RP moves on past them (R336, R337, R339); the pairs are fixed here. -/
def execAuditWindowStart (s : State) : Out :=
  .next <|
    if !s.inDealTricks || s.cad.trick % 256 ≠ 0 || s.repair.windows.any (fun w => w.deal = s.cad.deal && w.index = s.cad.trick / 256) then s else
    { s with repair := { s.repair with rp := s.turn, windows := s.repair.windows.filter (·.deal = s.cad.deal) ++ [{ deal := s.cad.deal, index := s.cad.trick / 256, rp := s.repair.rp, suspects := s.repair.suspects }] } }

/-- First trick after a window: 256 tricks on, cut off at T(L−257) (R336). -/
def State.windowEnd (s : State) (w : Nat) : Nat :=
  match s.cad.len with | some l => min (256 * (w + 1)) (l - 256) | none => 256 * (w + 1)

/-- The audited core issued deal code in the window (R347). -/
def State.dealtIn (s : State) (a : AuditCmp) (w : Nat) : Bool :=
  (s.core (coreKey a.die a.row (s.logCol a.die a.col) a.logical)).dealWins.contains w

/-- The CRC that comparison `cs` gives for a physical core, as the shadowed or the shadowing one, beside the core that carries the role: p = a and s0 = a, p = s0. -/
def doubleResult (x : Suspect) (cs : List AuditCmp) : Option (Bool × Bool × Bool) :=
  let mine := cs.filter (fun a => a.die = x.die && a.row = x.row && a.col = x.col && a.logical = x.logical)
  match mine.find? (fun a => a.shadowCol = x.col && a.shadow = x.core) with
  | none => none
  | some p =>
    if x.single then some (p.crcCore = p.crcShadow, false, false) else
    match mine.find? (fun a => a.shadowCol = x.shadowCol && a.shadow = x.shadow) with
    | none => none
    | some s0 => some (decide (p.crcCore = p.crcShadow), decide (s0.crcCore = s0.crcShadow), decide (p.crcShadow = s0.crcShadow))

/-- The verdict of a double audit misdeals the deal (Table 12.4). -/
def doubleMisdeals (x : Suspect) (r : Bool × Bool × Bool) : Bool := if x.single then !r.1 else !r.1 && !r.2.1

/-- The double audit of suspect `x` runs in window `w` of the deal in progress (R344, R347). -/
def State.audits (s : State) (x : Suspect) (w : Nat) : Bool :=
  !x.fresh && !x.awaitBist && x.result.isNone && decide (x.deal < s.cad.deal)
    && (if x.anyWindow then (s.core (coreKey x.die x.row (s.logCol x.die x.col) x.logical)).dealWins.contains w else x.window = w)

/-- Record the result of each double audit the window holds (R344). -/
def State.doubleAudits (s : State) (w : Nat) (cs : List AuditCmp) : State :=
  (s.repair.suspects.filter (fun x => s.audits x w)).foldl (fun s x =>
    match doubleResult x cs with
    | none => s
    | some r =>
      let s : State := { s with repair := { s.repair with suspects := s.repair.suspects.map (fun y => if y = x then { y with result := some r } else y) } }
      if doubleMisdeals x r then s.addCause 4 0x35 0xFFF x.die (placeCore x.die x.row x.col (s.carrier x)) else s) s

/-- The comparison is of a double audit, which judges it: p or s0 shadows logical core c (R344). -/
def State.ofDouble (s : State) (w : Nat) (a : AuditCmp) : Bool :=
  s.repair.suspects.any (fun x => s.audits x w && x.die = a.die && x.row = a.row && x.col = a.col && x.logical = a.logical
    && ((a.shadowCol = x.col && a.shadow = x.core) || (a.shadowCol = x.shadowCol && a.shadow = x.shadow)))

/-- The comparison is of the pair that R337 makes in the window: free core f_j shadows logical core (RP + j) mod 64. -/
def State.shadows (s : State) (w : AuditWin) (a : AuditCmp) : Bool :=
  let at' : State := { s with repair := { s.repair with suspects := w.suspects } }
  match (at'.rotation a.die a.row a.col).idxOf? (a.shadowCol, a.shadow) with
  | some j => (s.liveCols a.die).contains a.col && decide (a.row < 64) && decide (((aget (clusterKey a.die a.row a.col) w.rp).getD 0 + j) % 64 = a.logical)
  | none => false

/-- One mismatch of an ordinary shadow: physical core p is suspect, and the deal misdeals unless the core issued no deal code in the window (R343, R347). -/
def State.mismatch (s : State) (w : Nat) (a : AuditCmp) : State :=
  let p := (s.effCluster (clusterKey a.die a.row a.col)).physCore a.logical
  let dealt := s.dealtIn a w
  let x : Suspect := { die := a.die, row := a.row, col := a.col, core := p, shadowCol := a.shadowCol, shadow := a.shadow, logical := a.logical, window := w
                       deal := s.cad.deal, single := false, awaitBist := false, anyWindow := !dealt, fresh := true, result := none }
  let s : State := { s with repair := { s.repair with suspects := s.repair.suspects ++ [x] } }
  if dealt then s.addCause 4 0x34 0xFFF a.die (placeCore a.die a.row a.col p) else s.stopDefect a.die a.row a.col

/-- AUDIT_COMPARE: the CRCs of a window are compared within 64 tricks of its end (R341); the operands list the pairs that took records, and only pairs that exist are compared. -/
def execAuditCompare (window : Nat) (cmps : List AuditCmp) (s : State) : Out :=
  .next <|
    let stop := s.windowEnd window
    match s.repair.windows.find? (fun w => w.deal = s.cad.deal && w.index = window) with
    | none => s
    | some w =>
      if !s.dealing || s.cad.trick < stop || stop + 64 < s.cad.trick then s else
      let double := cmps.filter (s.ofDouble window)
      let own := cmps.filter (fun a => !s.ofDouble window a && s.shadows w a)
      let wrong := own.filter (fun a => a.crcCore ≠ a.crcShadow)
      let bad := ((double.filter (fun a => a.crcCore ≠ a.crcShadow)) ++ wrong).length
      let fresh := wrong.filter (fun a => !s.isSuspect a.die a.row a.col ((s.effCluster (clusterKey a.die a.row a.col)).physCore a.logical))
      let s' : State := { s with repair := { s.repair with
        windows := s.repair.windows.filter (fun w => w.index ≠ window), compared := s.repair.compared + 1, mismatches := s.repair.mismatches + bad } }
      fresh.foldl (fun s a => s.mismatch window a) (s'.doubleAudits window double)

/-! ## Self-test (R356, R357) -/

/-- AUDIT: a run of n audit deals in which BIST runs; SHORT_RUN when they are too short for it, and OD 0x2000.18 says so; one taken during a run lengthens it, and all complete at its end (R357). -/
def execAudit (c : CmdSlot) (s : State) : Out :=
  .next <| s.hostCommand 0x31 c true none fun s t =>
    let n := c.arg0.toNat
    if n < 1 || 64 < n || c.arg1 ≠ 0 || c.arg2 ≠ 0 then s.complete t 0xE0
    else if n * (s.cad.len.getD 0 - 256) * s.cad.period < 1200000 then State.complete { s with repair := { s.repair with bistResult := 4 } } t 0x12
    else { s with dealer := { s.dealer with auditLeft := s.dealer.auditLeft + n, auditTickets := s.dealer.auditTickets ++ [t] } }

/-- A BIST is under way: after four misdeals, in an audit run whose deals have begun, or at start. -/
def State.bistActive (s : State) : Bool :=
  s.dealer.bistRunning || (s.dealer.auditTickets ≠ [] && s.dealer.auditLeft = 0) || (s.start.stage = 1 && !s.start.bist)

/-- A unit's suspicion is settled by the BIST that tested it (R346, R357). -/
def State.bistSuspect (s : State) (failed : List UnitRef) (x : Suspect) : State :=
  let place := placeCore x.die x.row x.col x.core
  if failed.contains (.core x.die x.row x.col x.core) then s else (s.clearSuspect x).repairEvent 3 4 0x34 place 0

/-- Everything a BIST finds: each failed unit is condemned or retired, each suspect of R346 cleared (R357). OD 0x2000.18 reads the worst it brought. -/
def State.bist (s : State) (failed : List UnitRef) : State :=
  let short := s.shortDies
  let lost := s.lostDies
  let s := (s.repair.suspects.filter (·.awaitBist)).foldl (fun s x => s.bistSuspect failed x) s
  let s := failed.foldl (fun s u => s.repairUnit u 3 0x30) s
  let s := s.watch
  { s with repair := { s.repair with bistResult := if s.lostDies ≠ lost then 3 else if s.shortDies ≠ short then 2 else if failed ≠ [] then 1 else 0 } }

/-- BIST_DONE: the self-test completes; what it held back goes on (R356, R357). -/
def execBistDone (failed : List UnitRef) (s : State) : Out :=
  .next <|
    if !s.bistActive then s else
    let audit : Bool := s.dealer.auditTickets ≠ [] && s.dealer.auditLeft = 0
    let s := s.bist failed
    let s : State := if s.start.stage = 1 then { s with start := { s.start with bist := true } } else s
    let s : State := if s.dealer.bistRunning then
        (State.judgeRedeal { s with dealer := { s.dealer with bistRunning := false, bistHold := false } }).repairEvent 5 3 0 0 0
      else s
    if audit then s.dealer.auditTickets.foldl (fun s t => s.complete t 0) { s with dealer := { s.dealer with auditTickets := [] } } else s

end Sys2Proof.Machine
end

