-- ==== Sys2Proof/Machine/Motion.lean ====
section
/-!
DEFINITION. Machine/Motion.lean: pixel frames (R312, R323), the encoder's references (R320), its motion search (R321), and the bits a session's coding fixes (R313).
What the codecs' own standards fix and the spec does not repeat is a free value of `Config` (log entry 32).
-/
namespace Sys2Proof.Machine

def hevc (d : SessDesc) : Bool := d.codec = 1 || d.codec = 2

/-- Bytes of a sample. -/
def sampleBytes (d : SessDesc) : Nat := if d.depth = 10 then 2 else 1

/-! ## Pixel frames (R312) -/

/-- Bytes of one row of luma, and of one row of interleaved chroma, of a picture `w` samples wide. -/
def lumaRow (d : SessDesc) (w : Nat) : Nat := w * sampleBytes d
def chromaRow (d : SessDesc) (w : Nat) : Nat := (w + 1) / 2 * 2 * sampleBytes d

/-- Offsets, from the start of a frame, of the bytes of luma rows `y` to `y + n - 1`; and of the chroma rows, which follow HEIGHT rows of luma (R312). -/
def lumaOffsets (d : SessDesc) (w y n : Nat) : List Nat :=
  (List.range n).flatMap (fun j => (List.range (lumaRow d w)).map (fun i => (y + j) * d.pitch + i))
def chromaOffsets (d : SessDesc) (w y n : Nat) : List Nat :=
  (List.range n).flatMap (fun j => (List.range (chromaRow d w)).map (fun i => (d.height + y + j) * d.pitch + i))

/-- The offsets of a picture of w × h luma samples, luma first. -/
def frameOffsets (d : SessDesc) (w h : Nat) : List Nat := lumaOffsets d w 0 h ++ chromaOffsets d w 0 ((h + 1) / 2)

/-- The offsets a slice's rows take in its frame. -/
def sliceOffsets (d : SessDesc) (slice : Nat) : List Nat :=
  let y := 64 * d.sliceRows * slice
  let n := min (64 * d.sliceRows) (d.height - y)
  lumaOffsets d d.width y n ++ chromaOffsets d d.width (y / 2) (n / 2)

/-- A sample as it is stored: one byte, or a word with the value in [15:6] and [5:0] zero (R312). -/
def putSample (d : SessDesc) (v : Nat) : Bytes := if d.depth = 10 then toLe (v % 1024 * 64) 2 else toLe (v % 256) 1

/-- The samples of stored bytes: at depth 10 bits [15:6] of each word (R312). -/
def getSamples (d : SessDesc) : Bytes → List Nat
  | [] => []
  | [b] => [b.toNat]
  | a :: b :: t => if d.depth = 10 then (a.toNat + 256 * b.toNat) / 64 :: getSamples d t else a.toNat :: getSamples d (b :: t)

/-- The mid value of chroma that a monochrome stream takes (R323). -/
def midChroma (d : SessDesc) : Nat := if d.depth = 10 then 512 else 128

/-- A decoded sample at the session's DEPTH: 8-bit samples in a DEPTH 10 session become 4v (R323). -/
def scaled (d : SessDesc) (depth v : Nat) : Nat := if d.depth = 10 && depth = 8 then 4 * (v % 256) else v % 2 ^ depth

/-- The bytes of a decoded picture in the order of `frameOffsets`: luma, then Cb and Cr in turn (R312, R323). -/
def pictureBytes (d : SessDesc) (p : Picture) (sample : Nat → Nat → Nat) : Bytes :=
  let cn := (p.width + 1) / 2 * ((p.height + 1) / 2)
  let chroma (plane i : Nat) : Bytes := putSample d (if p.mono then midChroma d else scaled d p.depth (sample plane i))
  (List.range (p.width * p.height)).flatMap (fun i => putSample d (scaled d p.depth (sample 0 i)))
    ++ (List.range cn).flatMap (fun i => chroma 1 i ++ chroma 2 i)

/-! ## References (R320) -/

def Engine.entry (x : Engine) (b : Nat) : PoolEntry := (aget b x.pool).getD {}

/-- Buffers of a session's range, rising. -/
def poolRange (d : SessDesc) : List Nat := (List.range d.poolCount).map (· + d.poolFirst)

/-- Put a buffer among others, the one that became SHORT last in front. -/
def Engine.insertNewest (x : Engine) (b : Nat) : List Nat → List Nat
  | [] => [b]
  | c :: t => if (x.entry c).age < (x.entry b).age then b :: c :: t else c :: x.insertNewest b t

/-- The references of an inter frame: the first NREF of SHORT buffers from most recent to oldest, then LONG buffers in ascending index (R320). -/
def Engine.references (x : Engine) (d : SessDesc) : List Nat :=
  let short := (poolRange d).filter (fun b => (x.entry b).mark = 1)
  (short.foldl (fun l b => x.insertNewest b l) [] ++ (poolRange d).filter (fun b => (x.entry b).mark = 2)).take d.nref

/-! ## What fixes the bitstream (R313) -/

/-- The descriptor's part of it. -/
def SessDesc.coding (d : SessDesc) : List Nat :=
  [d.codec, d.depth, d.level, boolNat d.hostMark, boolNat d.aud, d.width, d.height, d.fpsNum, d.fpsDen, d.poolFirst, d.poolCount, d.maxShort, d.nref,
   d.sliceRows, d.tileCols, d.intraPeriod, d.rc, d.qp, d.kbps, d.maxKbps, d.searchX, d.searchY]

/-- One coded frame's part: its number, whether it is a key frame and was restarted, its rate, its references and marks, and its samples so far. -/
def CodedFrame.coding (f : CodedFrame) : List Nat :=
  [f.frame, boolNat f.key, boolNat f.restarted, f.kbps, f.maxKbps, f.qp, f.buf, f.refs.length] ++ f.refs ++ f.marks ++ f.slices.flatten

/-- Every frame the session has coded, the one in progress first. -/
def codingOf (l : List CodedFrame) : List (List Nat) := l.map CodedFrame.coding

/-! ## Motion search (R321). Vectors are in eighths of a sample. -/

structure Block where
  x : Nat
  y : Nat
  w : Nat
  h : Nat
deriving DecidableEq, Repr

/-- What a search works on: descriptor, frames coded (the one in progress first) and slice. -/
structure SearchIn where
  d : SessDesc
  coded : List CodedFrame
  slice : Nat
deriving DecidableEq, Repr

def SearchIn.frame (q : SearchIn) : CodedFrame := q.coded.headD {}

/-- λ: a function of the frame's quantiser alone. -/
def SearchIn.lam (q : SearchIn) : Rat := Config.motionLambda (hevc q.d) q.frame.qp

/-- Luma sample (x, y) of the slice in progress. -/
def SearchIn.cur (q : SearchIn) (x y : Nat) : Nat :=
  (q.frame.slices.getLastD []).getD ((y - 64 * q.d.sliceRows * q.slice) * q.d.width + x) 0

/-- The frame whose reconstruction a buffer holds is the latest one coded into it. -/
def holding (b : Nat) : List CodedFrame → List CodedFrame
  | [] => []
  | f :: t => if f.buf = b then f :: t else holding b t

/-- Whole luma samples of a reference. -/
def SearchIn.ref (q : SearchIn) (b : Nat) : Int → Int → Nat :=
  Config.reconLuma q.d.coding (codingOf (holding b q.coded.tail))

def Block.key (b : Block) : List Nat := [b.x, b.y, b.w, b.h]

/-- Differences of a block and its prediction by a vector, row by row. -/
def SearchIn.diffs (q : SearchIn) (b : Block) (sample : Int → Int → Nat) (v : Int × Int) : List Int :=
  (List.range b.h).flatMap (fun j => (List.range b.w).map (fun i =>
    (q.cur (b.x + i) (b.y + j) : Int) - (sample (8 * ((b.x + i : Nat) : Int) + v.1) (8 * ((b.y + j : Nat) : Int) + v.2) : Int)))

/-- λ times the vector's coded bits. -/
def SearchIn.rateCost (q : SearchIn) (b : Block) (r : Nat) (v : Int × Int) : Rat :=
  q.lam * (Config.vectorBits q.d.coding (codingOf q.coded) b.key r v.1 v.2 : Rat)

/-- Cost of an integer vector: SAD plus λ times bits; of a refined one: SATD plus λ times bits. -/
def SearchIn.intCost (q : SearchIn) (b : Block) (r : Nat) (v : Int × Int) : Rat :=
  (((q.diffs b (fun x y => q.ref r (x / 8) (y / 8)) v).foldl (fun a d => a + d.natAbs) 0 : Nat) : Rat) + q.rateCost b r v
def SearchIn.fineCost (q : SearchIn) (b : Block) (r : Nat) (v : Int × Int) : Rat :=
  (Config.satd b.w (q.diffs b (Config.fracSample (hevc q.d) q.d.depth (q.ref r)) v) : Rat) + q.rateCost b r v

/-- Among equal costs the smaller |dx| + |dy| wins, then the smaller |dy|, then the smaller dy, then the smaller dx (R321). -/
def vectorBefore (v u : Int × Int) : Bool :=
  let n (p : Int × Int) := p.1.natAbs + p.2.natAbs
  if n v ≠ n u then n v < n u else if v.2.natAbs ≠ u.2.natAbs then v.2.natAbs < u.2.natAbs else if v.2 ≠ u.2 then decide (v.2 < u.2) else decide (v.1 < u.1)

/-- The better of two costed vectors. -/
def betterVector (a b : Rat × Int × Int) : Rat × Int × Int :=
  if b.1 < a.1 || (b.1 = a.1 && vectorBefore b.2 a.2) then b else a

/-- The best of a list of vectors by a cost, those the standard forbids skipped. -/
def SearchIn.best (q : SearchIn) (b : Block) (cost : Int × Int → Rat) (l : List (Int × Int)) : Option (Rat × Int × Int) :=
  (l.filter (fun v => !Config.vectorForbidden q.d.coding b.key v.1 v.2)).foldl
    (fun acc v => match acc with | none => some (cost v, v) | some a => some (betterVector a (cost v, v))) none

/-- Every vector whose parts lie within ±nx and ±ny steps of `step` around a centre. -/
def around (c : Int × Int) (step nx ny : Nat) : List (Int × Int) :=
  (List.range (2 * ny + 1)).flatMap (fun j => (List.range (2 * nx + 1)).map (fun i =>
    (c.1 + (step : Int) * ((i : Int) - nx), c.2 + (step : Int) * ((j : Int) - ny))))

/-- Refinement steps: half and quarter sample, and eighth sample for AV1. -/
def refineSteps (d : SessDesc) : List Nat := if hevc d then [4, 2] else [4, 2, 1]

/-- The search of one block in one reference: integer vectors, then the neighbours of the best at each finer step. -/
def SearchIn.searchRef (q : SearchIn) (b : Block) (r : Nat) : Option (Rat × Int × Int) :=
  match q.best b (q.intCost b r) (around (0, 0) 8 q.d.searchX q.d.searchY) with
  | none => none
  | some v => (refineSteps q.d).foldl (fun a step => match a with
      | none => none
      | some u => q.best b (q.fineCost b r) (around u.2 step 1 1)) (some (q.fineCost b r v.2, v.2))

/-- The reference and vector of a block: the least cost, and of equal ones the lower buffer index (R320). -/
def SearchIn.search (q : SearchIn) (b : Block) : Option (Nat × Int × Int) :=
  (q.frame.refs.foldl (fun (acc : Option (Nat × Rat × Int × Int)) r =>
    match q.searchRef b r, acc with
    | none, _ => acc
    | some v, none => some (r, v)
    | some v, some a => if v.1 < a.2.1 || (v.1 = a.2.1 && r < a.1) then some (r, v) else acc) none).map (fun a => (a.1, a.2.2))

/-- The motion of a slice's inter blocks, which mode decision chooses; a key frame has none. -/
def SearchIn.motion (q : SearchIn) : List (Nat × Int × Int) :=
  if q.frame.key then [] else
  (Config.interBlocks q.d.coding (codingOf q.coded) q.slice).filterMap (fun b => q.search { x := b.getD 0 0, y := b.getD 1 0, w := b.getD 2 0, h := b.getD 3 0 })

/-- The bytes of a slice (R313): a function of the descriptor, of every frame handed and coded, and of nothing else. At least one byte, and fewer than 2^28 (log entry 32). -/
def SearchIn.bits (q : SearchIn) : Bytes :=
  (List.range (Config.codedLength q.d.coding (codingOf q.coded) q.slice q.motion % 2 ^ 28 + 1)).map
    (Config.codedByte q.d.coding (codingOf q.coded) q.slice q.motion)

/-- The bytes of a frame's reconstruction, `n` of them. -/
def reconBytes (d : SessDesc) (coded : List CodedFrame) (n : Nat) : Bytes :=
  (List.range n).map (Config.reconByte d.coding (codingOf coded))

end Sys2Proof.Machine
end

