-- ==== Sys2Proof/Machine/Traffic.lean ====
section
/-!
DEFINITION. Machine/Traffic.lean: PCIe windows, loose DMA and the host aperture (R257, R262 to R267, R549, R550, R554).
-/
namespace Sys2Proof.Machine

/-! ## PCIe windows (R262) -/

def windowSpan (w : PcieWindow) : Nat := 2 ^ w.sizeLog

/-- DEV_BASE, HOST_BASE, SIZE_LOG and FUNC of an enabled window are in range (Table 9.5). -/
def windowInRange (w : PcieWindow) : Bool :=
  16 ≤ w.sizeLog && w.sizeLog ≤ 46 && w.func ≤ 63 && w.devBase.toNat % windowSpan w = 0 && w.hostBase.toNat % windowSpan w = 0
    && 0x800000000000 ≤ w.devBase.toNat && w.devBase.toNat + windowSpan w ≤ 0xC00000000000

/-- Pinned pages lie in the window. -/
def State.windowPinned (s : State) (w : PcieWindow) : Bool := w.enable && s.pinnedRange w.devBase.toNat (windowSpan w)

/-- A write of the whole entry of window `w`. -/
def State.windowWrite (s : State) (w : Nat) (b : Bytes) : WriteRes :=
  let new := parseWindow b
  let old := s.pcieWindow w
  if b.length = 32 && windowRsvd b then wRsvd s
  else if b.length ≠ 32 || (new.enable && !windowInRange new) then wRange s
  else if new.enable && s.mem.windows.any (fun x => x.1 ≠ w && x.2.enable && overlaps x.2.devBase.toNat (windowSpan x.2) new.devBase.toNat (windowSpan new)) then wRefused 0x01 s
  else if s.windowPinned old && (!new.enable || new.devBase ≠ old.devBase || new.sizeLog ≠ old.sizeLog || new.hostBase ≠ old.hostBase) then
    wOk { s with mem := { s.mem with windowPending := aset w new s.mem.windowPending } }
  else wOk { s with mem := { s.mem with windows := aset w new s.mem.windows, windowPending := adel w s.mem.windowPending } }

/-- WINDOW_CHANGE_EFFECT: the last pinned page of the window is released (R262). -/
def execWindowChangeEffect (w : Nat) (s : State) : Out :=
  .next <|
    match aget w s.mem.windowPending with
    | none => s
    | some new =>
      if s.windowPinned (s.pcieWindow w) then s
      else { s with mem := { s.mem with windows := aset w new s.mem.windows, windowPending := adel w s.mem.windowPending } }

/-! ## Loose DMA (R263 to R266, R549) -/

def State.queue (s : State) (q : Nat) : LdmaQueue := (aget q s.ldma).getD {}
def State.setQueue (s : State) (q : Nat) (x : LdmaQueue) : State := { s with ldma := aset q x s.ldma }

/-- Descriptors the ring holds. -/
def LdmaQueue.held (x : LdmaQueue) : Nat := ringCount 256 x.tail x.head

/-- The queue is visible to the function (R550). -/
def State.seesQueue (s : State) (f q : Nat) : Bool :=
  f = 0 || (match (s.queue q).account with | some a => s.boundFn a = f | none => false)

/-- The function the queue's requests are of: that bound to its account (R465). -/
def State.queueFn (s : State) (x : LdmaQueue) : Nat := match x.account with | some a => s.boundFn a | none => 0

/-- Loose DMA moves: in an open window with LOOSE_DMA, or in Run while nothing is dealt (R266). -/
def State.ldmaMoves (s : State) : Bool :=
  s.start.stage = 2 && s.power.phase = 0 && !s.sec.preparing
    && (!s.dealing || (match s.svis.openWin with | some w => w.looseDma | none => false))

/-- The descriptor at the queue's head. -/
def LdmaQueue.desc (x : LdmaQueue) : LdmaDesc := (aget x.head x.ring).getD (parseLdma [])

/-- BAD_DESC (R263). -/
def descBad (d : LdmaDesc) : Bool := d.rsvd || (d.srcHost && d.dstHost) || d.len % 64 ≠ 0 || d.src % 64 ≠ 0 || d.dst % 64 ≠ 0

/-- The loose DMA completion record, and the queue's vector (R549, Table 19.6). -/
def State.ldmaCpl (s : State) (q : Nat) (x : LdmaQueue) (status bytes addr : Nat) : State :=
  let f := s.queueFn x
  let s := s.postCpl f { kind := 3, status, opcode := 0, tag := x.desc.tag, v0 := bytes, v1 := addr % 2 ^ 48 + 2 ^ 48 * x.head, index := q } false
  s.setFn f ((s.fn f).callVector f x.vec)

/-- Table 9.7, by the fault of a walk. -/
def ldmaCode : WalkFault → Nat
  | .translation => 0x02
  | .permission => 0x03
  | .walk => 0x04
  | .deviceRegion => 0x05

/-- One line read from the source: its bytes, or the fault. Host data stands at `host`; a line of a PCIe window is a free value; `fails` says that a read of either ends in a completion error (Table 9.7). -/
def State.ldmaRead (s : State) (acct : Nat) (d : LdmaDesc) (va : Nat) (host : Bytes) (fails : Bool) : Except Nat Bytes × State :=
  if d.srcHost then (if fails then .error 0x08 else .ok (padTo 64 host), s) else
  match translateFor s acct va false with
  | (.error x, s') => (.error (ldmaCode x), s')
  | (.ok x, s') =>
    if !usableHbm x.pa 64 then (if fails then (.error 0x08, s') else let (b, s'') := s'.takeBytes 8; (.ok b, s''))
    else
      let t := s'.memLine .hub false x.pa
      if s'.poisonedAt x.pa then (.error 0x07, t) else (.ok (s'.hbmRead x.pa 64), t)

/-- One line written to the destination; a write into a guarded page is PINNED (R257). -/
def State.ldmaWrite (s : State) (acct : Nat) (d : LdmaDesc) (va : Nat) (b : Bytes) : Option Nat × State :=
  if d.dstHost then (none, s) else
  match translateFor s acct va true with
  | (.error x, s') => (some (ldmaCode x), s')
  | (.ok x, s') =>
    if s'.guardPins.any (fun p => overlaps p.base p.size x.pa 64) then (some 0x06, s')
    else if usableHbm x.pa 64 then (none, (s'.memLine .hub true x.pa).writeLine x.pa b) else (none, s')

/-- PCIe bytes of an account, charged at the next settle window (R84). -/
def State.notePcie (s : State) (acct n : Nat) : State :=
  if n = 0 then s else s.setAcct acct { s.acct acct with pciePending := (s.acct acct).pciePending + n }

/-- The queue's descriptor in hand has more to move, or to finish: it holds an account and has met no fault. -/
def LdmaQueue.moving (x : LdmaQueue) : Bool := x.hand.isSome && x.account.isSome && x.hit.isNone && !x.stopped

/-- The queue whose turn it is: the first one moving from `turn` on, cyclically (R266). -/
def State.nextQueue (s : State) : Option Nat :=
  let l := (s.ldma.filter (fun x => x.2.moving)).map (·.1)
  match l.find? (fun q => decide (s.mem.turn ≤ q)) with
  | some q => some q
  | none => l.head?

/-- A descriptor whose bytes have all moved: its completion record where IRQ asks for one, and the head advances (R264, R549). -/
def State.descDone (s : State) (q : Nat) : State :=
  let x := s.queue q
  let s := if x.desc.irq then s.ldmaCpl q x 0x00 x.desc.len 0 else s
  s.setQueue q { x with head := (x.head + 1) % 256, bytesDone := 0, status := 0, hand := none }

/-- A fault of the descriptor in hand: it keeps its precise BYTES_DONE (R264). -/
def State.descHit (s : State) (q code addr : Nat) : State := s.setQueue q { s.queue q with hit := some (code, addr), hand := none }

/-- Loose DMA bytes counted against the open window in progress (R118). -/
def State.noteMoved (s : State) : State := if s.svis.openWin.isSome then { s with svis := { s.svis with winMoved := s.svis.winMoved + 64 } } else s

/-- One turn of a queue: the next line of its descriptor in hand, read and then written; the last one ends the descriptor (R263 to R266). -/
def State.moveLine (s : State) (q : Nat) : State :=
  let x := s.queue q
  let d := x.desc
  match x.account, x.hand with
  | some acct, some (host, fails) =>
    if d.len ≤ x.bytesDone then s.descDone q
    else
    match s.ldmaRead acct d (d.src + x.bytesDone) (host.take 64) (match fails with | some f => decide (f ≤ x.bytesDone) | none => false) with
    | (.error c, s') => s'.descHit q c (d.src + x.bytesDone)
    | (.ok b, s') =>
      match s'.ldmaWrite acct d (d.dst + x.bytesDone) b with
      | (some c, s'') => s''.descHit q c (d.dst + x.bytesDone)
      | (none, s'') =>
        let s := if d.srcHost || d.dstHost then s''.notePcie acct 64 else s''
        let s := (s.setQueue q { x with bytesDone := x.bytesDone + 64, hand := some (host.drop 64, fails) }).noteMoved
        if d.len ≤ x.bytesDone + 64 then s.descDone q else s
  | _, _ => s

/-- Turns of the queues with work in hand, one line each, at most `n` (R266). -/
def State.moveTurns : Nat → State → State
  | 0, s => s
  | n + 1, s =>
    match s.nextQueue with
    | none => s
    | some q =>
      let s := s.moveLine q
      State.moveTurns n { s with mem := { s.mem with turn := q + 1 } }

/-- Lines the descriptors in hand still have to move, and one turn more for each. -/
def State.linesLeft (s : State) : Nat :=
  ((s.ldma.filter (fun x => x.2.moving)).map (fun x => (x.2.desc.len - x.2.bytesDone) / 64 + 1)).sum

/-- Lines loose DMA may still move at DMA_GBPS to the end of the window in progress, device-wide; no bound where nothing is dealt (R118, R266). 1 GB/s moves one byte per nanosecond. -/
def State.ldmaBudget (s : State) : Nat :=
  if !s.dealing then s.linesLeft else
  match s.svis.openWin with
  | some w =>
    let rate := w.gbps.getD 400 * s.cad.period
    min s.linesLeft (min (rate * (w.stop - w.start) - s.svis.winMoved) (rate * (w.stop - s.cad.trick)) / 64)
  | none => 0

/-- Every queue with a descriptor in hand moves for as long as it may: the queues take turns, one line each, to the end of their descriptors, to a fault, or to a pause at the end of what the window lets move (R118, R264, R266). -/
def State.moveLoose (s : State) : State := if s.ldmaMoves then State.moveTurns s.ldmaBudget s else s

/-- LOOSE_DMA_DESCRIPTOR: the queue takes its next descriptor where it holds none, and the queues move (R263, R264, R266). `hostData` are the bytes the host side gives from BYTES_DONE up; `hostFails` the offset of the first line of a failed host read. A LENGTH of 0 is done at once. -/
def execLooseDmaDescriptor (queue : Nat) (hostData : Bytes) (hostFails : Option Nat) (s : State) : Out :=
  .next <|
    let x := s.queue queue
    if x.account.isNone || x.stopped || x.hit.isSome || x.held = 0 || !s.ldmaMoves then s
    else if x.hand.isSome then s.moveLoose
    else if descBad x.desc then s.setQueue queue { x with hit := some (0x01, 0), bytesDone := 0 }
    else if x.desc.len = 0 then s.descDone queue
    else (s.setQueue queue { x with hand := some (hostData, hostFails) }).moveLoose

/-- Stop a queue with a status: STATUS, STOP_INDEX, BYTES_DONE and FAULT_ADDR, and the completion record (R265, R549). -/
def State.stopQueue (s : State) (q status addr : Nat) : State :=
  let x := s.queue q
  let s := if status = 0x05 then s.security 0xAB 0 0 0 0 else s
  (s.ldmaCpl q x status x.bytesDone addr).setQueue q { x with stopped := true, hit := none, hand := none, status, stopIndex := x.head, faultAddr := addr }

/-- LOOSE_DMA_STOP: the queue stops at the fault it met (R264, R265). -/
def execLooseDmaStop (queue : Nat) (s : State) : Out :=
  .next <| match (s.queue queue).hit with
    | some (st, addr) => s.stopQueue queue st addr
    | none => s

/-- RESUME: the stopped descriptor, read again as it now stands, goes on from BYTES_DONE (R265). -/
def execResume (fn queue : Nat) (desc : Bytes) (s : State) : Out :=
  let x := s.queue queue
  .next <|
    if !s.seesQueue fn queue || !x.stopped then s
    else s.setQueue queue { x with stopped := false, status := 0, ring := aset x.head (parseLdma (padTo 32 desc)) x.ring }

/-- SKIP: the queue goes on from the next descriptor (R265); on a queue stopped with none the head stays. -/
def execSkip (fn queue : Nat) (s : State) : Out :=
  let x := s.queue queue
  .next <|
    if !s.seesQueue fn queue || !x.stopped then s
    else s.setQueue queue { x with stopped := false, status := 0, bytesDone := 0, head := if x.held = 0 then x.head else (x.head + 1) % 256 }

/-- HALT: the queue stops at a line boundary with HALTED (Table 9.7). -/
def execHalt (fn queue : Nat) (s : State) : Out :=
  .next <| if !s.seesQueue fn queue || (s.queue queue).stopped then s else s.stopQueue queue 0x09 0

/-- LDMA_DB: the new tail, with the descriptors the host has written; one that would overfill the ring is discarded with ERR [1] (R542). -/
def execLdmaDb (fn queue tail : Nat) (ring : List Bytes) (s : State) : Out :=
  .next <|
    if s.devStage ≠ 2 then s.doorbellEarly fn
    else if !s.seesQueue fn queue then s
    else
      let x := s.queue queue
      let add := ringCount 256 tail x.tail
      if 255 < x.held + add then s.setFn fn { s.fn fn with err := (s.fn fn).err ||| 2 }
      else
        let new := (List.range add).map (fun i => ((x.tail + i) % 256, parseLdma (padTo 32 (ring.getD i []))))
        s.setQueue queue { x with tail := tail % 256, ring := new.foldl (fun l e => aset e.1 e.2 l) x.ring }

/-- QBIND: bind a queue that is empty or stopped to an account (R550). -/
def execQbind (c : CmdSlot) (s : State) : Out :=
  .next <| s.hostCommand 0x22 c true none fun s t =>
    if argHigh c.arg0 6 || argHigh c.arg1 12 || c.arg2 ≠ 0 then s.complete t 0xE0 else
    let q := c.arg0.toNat
    let x := s.queue q
    if x.held ≠ 0 && !x.stopped then s.complete t 0x13
    else (s.setQueue q { x with account := some c.arg1.toNat }).complete t 0

/-! ## Open windows and loose DMA -/

/-- OPEN_WINDOW_START: the first trick of an open window of the running form, or T0 of an idle deal; every marked line on its dies is zeroed (R290), and loose DMA that paused goes on (R118). -/
def execOpenWindowStart (s : State) : Out :=
  .next <|
    if !s.dealing then s else
    match s.windowNow with
    | none => s
    | some w =>
      if s.svis.openWin = some w then s else
      let s : State := { s.closeWindow with svis := { s.closeWindow.svis with openWin := some w, winMoved := 0 } }
      (s.onDies w.dieMask Core.zeroMarks Cluster.zeroMarks).moveLoose

/-! ## The host aperture (R267, R554) -/

/-- BAR2's default size, 16 GiB (Table 19.1). -/
def bar2Size : Nat := 2 ^ 34

/-- The aperture lets the function through: VALID, an account it may act for, in Run (R493, R554). -/
def State.apertureOpen (s : State) (f : Nat) : Bool := (s.fn f).apValid && s.acts f (s.fn f).apAcct && s.power.phase = 0

/-- A fault of the aperture is logged (R267); a walk into the device region also raises SECURITY. -/
def State.apertureFault (s : State) (f : WalkFault) : State :=
  let s := s.post (logItem 0 (foldCode f) s.curDeal 0)
  if f = .deviceRegion then s.security 0xAB 0 0 0 0 else s

/-- Bytes of a range read one by one through the translation; poison and lines outside HBM end the read. -/
def State.apertureRead (ctx : Nat) : Nat → Nat → State → Except WalkFault Bytes × State
  | 0, _, s => (.ok [], s)
  | n + 1, va, s =>
    match translateFor s ctx va false with
    | (.error f, s') => (.error f, s')
    | (.ok x, s') =>
      if !usableHbm x.pa 1 then (.error .permission, s')
      else if s'.poisonedAt x.pa then (.error .walk, s')
      else match State.apertureRead ctx n (va + 1) (if n = 0 || (va + 1) % 64 = 0 then s'.memLine .hub false (x.pa / 64 * 64) else s') with
        | (.error f, s'') => (.error f, s'')
        | (.ok b, s'') => (.ok (s'.hbmByte x.pa :: b), s'')

/-- BAR2_READ: the data, or Completer Abort on a fault, on poison, or while the aperture is shut (R267, R493, R554). -/
def execBar2Read (fn offset len : Nat) (s : State) : Out :=
  let answer := fun (s : State) (r : Option Bytes) => ({ s with host := { s.host with bar2 := some r } } : State)
  .next <|
    if s.power.phase = 2 then answer (s.post (logItem 0 0 s.curDeal 0)) none
    else if !s.apertureOpen fn || bar2Size < offset + len then answer s none
    else match State.apertureRead (s.fn fn).apAcct len ((s.fn fn).apBase + offset) s with
      | (.ok b, s') => answer s' (some b)
      | (.error f, s') => answer (s'.apertureFault f) none

/-- Physical addresses of a range for writing, or the fault. -/
def State.apertureMap (ctx : Nat) : Nat → Nat → State → Except WalkFault (List Nat) × State
  | 0, _, s => (.ok [], s)
  | n + 1, va, s =>
    match translateFor s ctx va true with
    | (.error f, s') => (.error f, s')
    | (.ok x, s') =>
      if !usableHbm x.pa 1 then (.error .permission, s') else
      match State.apertureMap ctx n (va + 1) s' with
      | (.error f, s'') => (.error f, s'')
      | (.ok l, s'') => (.ok (x.pa :: l), s'')

/-- A line all of whose 64 bytes are written loses its poison; a partial write leaves it (R258). -/
def fullLines (pas : List Nat) : List Nat :=
  ((pas.map (· / 64)).dedup).filter (fun l => (List.range 64).all (fun i => pas.contains (64 * l + i)))

/-- A foreign write into guarded pages is judged at the seam (R257). -/
def State.noteForeign (s : State) (pas : List Nat) : State :=
  let hit := ((pas.map (fun a => a / 64 * 64)).dedup).filter (fun a => s.foreignPins.any (fun p => overlaps p.base p.size a 64))
  -- a foreign write stands, also where a misdeal undoes the deal's own
  let s : State := { s with dealer := { s.dealer with undo := s.dealer.undo.filter (fun x => !pas.any (fun a => a / 64 = x.1)) } }
  let s : State := { s with dealer := { s.dealer with foreignWrites := s.dealer.foreignWrites ++ hit.map (fun pa => { deal := s.causeDeal, pa }) } }
  if s.cad.drained then s.judgeRunning else s

/-- BAR2_WRITE: the bytes land, or the write is dropped on a fault or while the aperture is shut (R257, R267, R554). -/
def execBar2Write (fn offset : Nat) (data : Bytes) (s : State) : Out :=
  .next <|
    if s.power.phase = 2 then s.post (logItem 0 0 s.curDeal 0)
    else if !s.apertureOpen fn || bar2Size < offset + data.length then s
    else match State.apertureMap (s.fn fn).apAcct data.length ((s.fn fn).apBase + offset) s with
      | (.error f, s') => s'.apertureFault f
      | (.ok pas, s') =>
        let cells := (pas.zip data).foldl (fun c x => cellSet x.1 x.2 c) s'.mem.bytes
        let s' := ((pas.map (fun a => a / 64 * 64)).dedup).foldl (fun s a => s.memLine .hub true a) s'
        let s' : State := { s' with mem := { s'.mem with bytes := cells, poison := s'.mem.poison.filter (fun l => !(fullLines pas).contains l) } }
        s'.noteForeign pas

end Sys2Proof.Machine
end

