-- ==== Sys2Proof/Machine/Video.lean ====
section
/-!
DEFINITION. Machine/Video.lean: the video engines: sessions, hand-offs, slices, pools and decode (R305 to R328, R551).
An engine's reads and writes are made and translated here (R304); which reference bytes it looks at and where a frame of a bitstream ends are its answer (`SliceOut`, `DecOutcome`; log entry 102).
-/
namespace Sys2Proof.Machine

def vkey (e n : Nat) : Nat := 64 * e + n
def State.vsession (s : State) (k : Nat) : Session := (aget k s.video.sessions).getD {}
def State.setSession (s : State) (k : Nat) (x : Session) : State := { s with video := { s.video with sessions := aset k x s.video.sessions } }
def State.engine (s : State) (e : Nat) : Engine := (aget e s.video.engines).getD {}
def State.setEngine (s : State) (e : Nat) (x : Engine) : State := { s with video := { s.video with engines := aset e x s.video.engines } }

/-! ## The descriptor (Table 11.4) -/

/-- Fields of a 128-byte descriptor, with its ACCOUNT, FRAMES and FRAME_STRIDE. -/
def parseDesc (b : Bytes) : SessDesc × Nat × Nat × Nat :=
  let fl := byteAt b 7
  ({ codec := byteAt b 4, depth := byteAt b 5, level := byteAt b 6, hostMark := bit fl 0, aud := bit fl 1, sliceIrq := bit fl 2
     width := le b 8 2, height := le b 0xA 2, fpsNum := le b 0xC 2, fpsDen := le b 0xE 2, poolFirst := byteAt b 0x12, poolCount := byteAt b 0x13
     maxShort := byteAt b 0x14, nref := byteAt b 0x15, sliceRows := byteAt b 0x16, tileCols := byteAt b 0x17
     intraPeriod := le b 0x1A 2, rc := byteAt b 0x1C, qp := byteAt b 0x1D, kbps := le b 0x20 4, maxKbps := le b 0x24 4
     searchX := le b 0x28 2, searchY := le b 0x2A 2, pitch := le b 0x2C 4
     bsBase := le b 0x38 8 % 2 ^ 48, bsLog := byteAt b 0x40, srLog := byteAt b 0x41, srBase := le b 0x48 8 % 2 ^ 48, stateVa := le b 0x50 8 % 2 ^ 48
     rsvd := fl / 8 ≠ 0 || le b 0x10 2 / 4096 ≠ 0 || nonzero b 0x1E 2 || le b 0x38 8 / 2 ^ 48 ≠ 0 || nonzero b 0x42 6 || le b 0x48 8 / 2 ^ 48 ≠ 0
       || le b 0x50 8 / 2 ^ 48 ≠ 0 || nonzero b 0x58 40 || le b 0 4 ≠ 0x53455356 || b.length < 128 },
   le b 0x10 2 % 4096, le b 0x18 2, le b 0x30 8)

def encodes (d : SessDesc) : Bool := d.codec = 1 || d.codec = 3

/-- BAD_DESC (R306). -/
def descOut (d : SessDesc) (frames stride : Nat) : Bool :=
  let poolMax := if hevc d then 16 else 9
  let common := 1 ≤ d.codec && d.codec ≤ 4 && (d.depth = 8 || d.depth = 10) && d.level ≤ (if hevc d then 183 else 17)
    && 64 ≤ d.width && d.width ≤ 7680 && d.width % 8 = 0 && 64 ≤ d.height && d.height ≤ 4320 && d.height % 8 = 0
    && d.poolFirst ≤ 63 && 2 ≤ d.poolCount && d.poolCount ≤ poolMax && d.poolFirst + d.poolCount ≤ 64
    && d.pitch % 64 = 0 && d.width * sampleBytes d ≤ d.pitch && stride % 64 = 0 && d.pitch * d.height * 3 ≤ 2 * stride
    && 6 ≤ d.srLog && d.srLog ≤ 16 && d.srBase % 64 = 0 && d.stateVa % 65536 = 0 && (!d.aud || d.codec = 1)
  let enc := 1 ≤ d.fpsNum && 1 ≤ d.fpsDen && 1 ≤ d.maxShort && d.maxShort < d.poolCount && 1 ≤ d.nref && d.nref ≤ 4 && d.nref < d.poolCount
    && 1 ≤ d.sliceRows && d.sliceRows ≤ 68
    && (if hevc d then d.tileCols = 1 else decide ((d.width + 4095) / 4096 ≤ d.tileCols) && d.tileCols ≤ 8)
    && 1 ≤ frames && frames ≤ 64 && d.rc ≤ 2 && d.qp ≤ (if hevc d then 51 else 255) && d.kbps ≤ 4000000 && (d.rc = 0 || d.kbps ≠ 0)
    && (d.rc ≠ 2 || (d.kbps ≤ d.maxKbps && d.maxKbps ≤ 4000000)) && d.searchX ≤ 256 && d.searchY ≤ 128
    && 16 ≤ d.bsLog && d.bsLog ≤ 30 && d.bsBase % 2 ^ d.bsLog = 0
  let dec := [d.fpsNum, d.fpsDen, d.maxShort, d.nref, d.sliceRows, d.tileCols, frames, d.intraPeriod, d.rc, d.qp, d.kbps, d.maxKbps, d.searchX, d.searchY, d.bsLog, d.bsBase].all (· = 0)
  d.rsvd || !common || (if encodes d then !enc else !dec)

/-- Largest picture of a level, in luma samples: HEVC by general_level_idc, AV1 by seq_level_idx (their standards; log entry 32). -/
def maxPicture (d : SessDesc) : Nat :=
  let l := d.level
  if hevc d then
    if l < 60 then 36864 else if l < 63 then 122880 else if l < 90 then 245760 else if l < 93 then 552960 else if l < 120 then 983040
    else if l < 150 then 2228224 else if l < 180 then 8912896 else 35651584
  else if l < 1 then 147456 else if l < 4 then 278784 else if l < 5 then 665856 else if l < 8 then 1065024 else if l < 12 then 2359296
  else if l < 16 then 8912896 else 35651584

/-- Largest DPB of an HEVC level at a picture size (A.4.2 of H.265; log entry 32). -/
def maxDpb (d : SessDesc) : Nat :=
  let n := d.width * d.height
  let m := maxPicture d
  if 4 * n ≤ m then 16 else if 2 * n ≤ m then 12 else if 4 * n ≤ 3 * m then 8 else 6

/-- Bytes a pool buffer of the session needs (R317). -/
def poolBytes (d : SessDesc) : Nat :=
  let n := d.width * d.height * 3 / 2 * sampleBytes d + (d.width + 15) / 16 * ((d.height + 15) / 16) * 16
  (n + 63) / 64 * 64

/-! ## Session commands (Tables 11.5, 11.6) -/

/-- Bits of ARG0 that Table 19.5 names: engine, session, sub-command. -/
def vArgBad (c : CmdSlot) : Bool := bits c.arg0.toNat 2 6 ≠ 0 || bits c.arg0.toNat 14 2 ≠ 0 || argHigh c.arg0 20
def vEngine (c : CmdSlot) : Nat := bits c.arg0.toNat 0 2
def vSession (c : CmdSlot) : Nat := bits c.arg0.toNat 8 6
def vKeyOf (c : CmdSlot) : Nat := vkey (vEngine c) (vSession c)

/-- A command on an existing session: ACCESS for a function that may not act for its account (Table 11.5; log entry 33), BAD_STATE outside the states Table 11.6 allows. -/
def State.videoCommand (s : State) (c : CmdSlot) (allowed : Session → Bool) (k : State → Ticket → Session → State) : State :=
  s.hostCommand 0x50 c false none fun s t =>
    if vArgBad c || c.arg2 ≠ 0 then s.complete t 0xE0 else
    let x := s.vsession (vKeyOf c)
    if !allowed x then s.complete t 0x02
    else if !s.acts c.fn x.account then s.complete t 0x05
    else k s t x

/-- Pool entries of a range become UNUSED, held by the session or by none. -/
def Engine.freeRange (x : Engine) (first count session : Nat) : Engine :=
  { x with pool := (List.range count).foldl (fun l i => aset (first + i) { (aget (first + i) l).getD {} with mark := 0, session } l) x.pool }

/-- Another open session of the engine has a range that meets this one. -/
def State.poolMeets (s : State) (e key : Nat) (d : SessDesc) : Bool :=
  s.video.sessions.any (fun x => x.1 / 64 = e && x.1 ≠ key && x.2.state ≠ 0 && overlaps x.2.desc.poolFirst x.2.desc.poolCount d.poolFirst d.poolCount)

/-- OPEN (R306, R307): the first status of Table 11.5 that applies, in table order; else the session is OPEN, its frame counter 0 and its buffers UNUSED. -/
def execOpenSession (c : CmdSlot) (s : State) : Out :=
  .next <| s.hostCommand 0x50 c false none fun s t =>
    if vArgBad c || c.arg1 ≠ 0 || c.arg2 ≠ 0 then s.complete t 0xE0 else
    let (d, acct, frames, stride) := parseDesc c.payload
    let e := vEngine c
    let k := vKeyOf c
    let eng := s.engine e
    if descOut d frames stride then s.complete t 0x01
    else if (s.vsession k).state ≠ 0 then s.complete t 0x02
    else if maxPicture d < d.width * d.height || (hevc d && decide (maxDpb d < d.poolCount)) then s.complete t 0x03
    else if s.poolMeets e k d then s.complete t 0x04
    else if !s.acts c.fn acct then s.complete t 0x05
    else if (List.range d.poolCount).any (fun i => decide (((aget (d.poolFirst + i) eng.pool).getD {}).bytes < poolBytes d)) then s.complete t 0x06
    else if eng.disabled || eng.resetting then s.complete t 0x07
    else
      let x : Session := { state := 1, account := acct, frames, frameStride := stride, desc := d, vec := (s.vsession k).vec }
      ((s.setSession k x).setEngine e (eng.freeRange d.poolFirst d.poolCount (vSession c))).complete t 0

/-- Work of the session is queued. -/
def Session.busy (x : Session) : Bool := x.handoffs ≠ [] || x.decodes ≠ []

/-- To CLOSED: hand-offs released, pool buffers UNUSED, queued DECODEs end BAD_STATE (log entry 34), and waiting CLOSE and ABANDON commands complete OK. -/
def State.shutSession (s : State) (k : Nat) : State :=
  let x := s.vsession k
  let s := x.decodes.foldl (fun s r => s.completeWith r.ticket 0x02 r.consumed) s
  let s := (s.setSession k { vec := x.vec }).setEngine (k / 64) ((s.engine (k / 64)).freeRange x.desc.poolFirst x.desc.poolCount 0)
  x.closing.foldl (fun s t => s.complete t 0) s

/-- CLOSE: to DRAINING; SESSION_DRAINED closes it (Table 11.6). -/
def execCloseSession (c : CmdSlot) (s : State) : Out :=
  .next <| s.videoCommand c (fun x => x.state = 1 || x.state = 3) fun s t x =>
    s.setSession (vKeyOf c) { x with state := 2, closing := x.closing ++ [t] }

/-- SESSION_DRAINED: nothing of a DRAINING session is queued any more. -/
def execSessionDrained (engine session : Nat) (s : State) : Out :=
  let x := s.vsession (vkey engine session)
  .next <| if x.state = 2 && !x.busy then s.shutSession (vkey engine session) else s

/-- ABANDON: to CLOSED at the next slice or frame boundary, or at once when none is in service (R326, Table 11.6). -/
def execAbandon (c : CmdSlot) (s : State) : Out :=
  .next <| s.videoCommand c (fun x => x.state ≠ 0) fun s t x =>
    let k := vKeyOf c
    let s := s.setSession k { x with abandon := true, closing := x.closing ++ [t] }
    if x.state ≠ 3 && x.busy && !x.full then s else s.shutSession k

/-- FORCE_KEY: the next frame to begin is a key frame (R311). -/
def execForceKey (c : CmdSlot) (s : State) : Out :=
  .next <| s.videoCommand c (fun x => x.state = 1 && encodes x.desc) fun s t x =>
    (s.setSession (vKeyOf c) { x with forceKey := true }).complete t 0

/-- RATE: new KBPS, MAX_KBPS and QP from the next frame (R311), in ARG1 [21:0], [43:22] and [51:44] (log entry 35); BAD_DESC outside Table 11.4. -/
def execRate (c : CmdSlot) (s : State) : Out :=
  let kbps := bits c.arg1.toNat 0 22
  let maxKbps := bits c.arg1.toNat 22 22
  let qp := bits c.arg1.toNat 44 8
  .next <| s.videoCommand c (fun x => x.state = 1 && encodes x.desc) fun s t x =>
    if argHigh c.arg1 52 then s.complete t 0xE0
    else if 4000000 < kbps || (x.desc.rc ≠ 0 && kbps = 0) || (x.desc.rc = 2 && (maxKbps < kbps || 4000000 < maxKbps)) || (if hevc x.desc then 51 else 255) < qp then s.complete t 0x01
    else (s.setSession (vKeyOf c) { x with rate := some (kbps, maxKbps, qp) }).complete t 0

/-- Set a buffer's mark; a buffer that becomes SHORT is the newest, and one that stays as it is keeps its place. -/
def Engine.setMark (x : Engine) (b m : Nat) : Engine :=
  { x with pool := aset b { x.entry b with mark := m, age := if (x.entry b).mark = m then (x.entry b).age else x.clock } x.pool, clock := x.clock + 1 }

/-- MARK: one buffer of the range to UNUSED, SHORT or LONG (R319), in ARG1 [5:0] and [9:8] (log entry 35); LEVEL when an HEVC session has no LONG slot left. -/
def execPoolMark (c : CmdSlot) (s : State) : Out :=
  let b := bits c.arg1.toNat 0 6
  let m := bits c.arg1.toNat 8 2
  .next <| s.videoCommand c (fun x => x.state = 1 && x.desc.hostMark) fun s t x =>
    let e := vEngine c
    let eng := s.engine e
    if argHigh c.arg1 10 || bits c.arg1.toNat 6 2 ≠ 0 then s.complete t 0xE0
    else if m = 3 || !(poolRange x.desc).contains b then s.complete t 0x01
    else if m = 2 && hevc x.desc && decide (x.desc.poolCount - 1 ≤ ((poolRange x.desc).filter (fun i => i ≠ b && (eng.entry i).mark = 2)).length) then s.complete t 0x03
    else if x.recon = some b then (s.setSession (vKeyOf c) { x with markLater := some m }).complete t 0
    else (s.setEngine e (eng.setMark b m)).complete t 0

/-- DECODE: a bitstream buffer and an output area (R322); the payload holds VA, length, output VA and capacity as 64-bit words (log entry 35). [63:48] of the two addresses are rsvd (R242). -/
def execDecodeCmd (c : CmdSlot) (s : State) : Out :=
  .next <| s.videoCommand c (fun x => x.state = 1 && !encodes x.desc) fun s t x =>
    if c.arg1 ≠ 0 then s.complete t 0xE0 else
    let p := c.payload
    if le p 0 8 / 2 ^ 48 ≠ 0 || le p 0x10 8 / 2 ^ 48 ≠ 0 then s.complete t 0xE0 else
    let r : DecodeRun := { va := le p 0 8, len := le p 8 8, outVa := le p 0x10 8, frames := le p 0x18 8, tag := c.tag.toNat, ticket := t, consumed := 0, written := 0 }
    if r.len = 0 then s.complete t 0
    else if r.frames = 0 then s.complete t 0x08
    else s.setSession (vKeyOf c) { x with decodes := x.decodes ++ [r] }

/-! ## Failures (R327) -/

/-- One VIDEO event. -/
def State.videoEvent (s : State) (k detail frame tag : Nat) : State :=
  let x := s.vsession k
  s.post { ev 0x10 detail s.curDeal with subject := 0, place := placeEngine (k / 64), w0 := k % 64, w1 := placeEngine (k / 64), w2 := frame, w3 := tag, acct := some x.account }

/-- The session is FAULTED: its hand-offs are released, its DECODEs end (log entry 34), and an ABANDON that waited closes it. -/
def State.faultSession (s : State) (k detail tag : Nat) : State :=
  let x := s.vsession k
  let s := s.videoEvent k detail x.frame tag
  let s := if detail = 0x65 then s.securityFor (some x.account) 0xAB 0 (placeEngine (k / 64)) 0 0 else s
  let s := x.decodes.foldl (fun s r => s.completeWith r.ticket 0x02 r.consumed) s
  let y := s.vsession k
  let s := s.setSession k { y with state := if y.state = 2 then 2 else 3, handoffs := [], decodes := [], recon := none, waiting := none, full := false, fault := detail }
  if x.abandon then s.shutSession k else s

/-- Table 11.9, by the fault of a walk. -/
def videoCode : WalkFault → Nat
  | .translation => 0x63
  | .walk => 0x63
  | .permission => 0x64
  | .deviceRegion => 0x65

/-- Bytes written through an account's context, one address after another; the address may wrap in a ring by `at'`. Only the host aperture writes part of a line, so a line written loses its poison (R258). -/
def State.vWrite (ctx : Nat) (at' : Nat → Nat) : Nat → Bytes → State → Option Nat × State
  | _, [], s => (none, s)
  | i, b :: t, s =>
    match translateFor s ctx (at' i) true with
    | (.error f, s') => (some (videoCode f), s')
    | (.ok x, s') =>
      if usableHbm x.pa 1 then
        State.vWrite ctx at' (i + 1) t { s' with mem := { s'.mem with bytes := cellSet x.pa b s'.mem.bytes, poison := sdel (x.pa / 64) s'.mem.poison } }
      else (some 0x64, s')

/-- Bytes read through an account's context (R304): the code of the first fault, or the bytes, those of a poisoned line as zero, and whether there was one (R258, Table 11.9). -/
def State.vRead (ctx : Nat) : List Nat → State → Except Nat (Bytes × Bool) × State
  | [], s => (.ok ([], false), s)
  | va :: t, s =>
    match translateFor s ctx va false with
    | (.error f, s') => (.error (videoCode f), s')
    | (.ok x, s') =>
      if !usableHbm x.pa 1 then (.error 0x64, s') else
      match State.vRead ctx t s' with
      | (.error c, s'') => (.error c, s'')
      | (.ok (l, bad), s'') =>
        if s''.poisonedAt x.pa then (.ok (0 :: l, true), s'') else (.ok (s''.hbmRead x.pa 1 ++ l, bad), s'')

/-- The session's state at STATE_VA is read and written (Table 11.4): the code of a fault. What the engine keeps there is its own (log entry 102). -/
def State.stateTouched (s : State) (x : Session) : Option Nat × State :=
  match State.vRead x.account [x.desc.stateVa] s with
  | (.error c, s') => (some c, s')
  | (.ok _, s') => match translateFor s' x.account x.desc.stateVa true with
    | (.error f, s'') => (some (videoCode f), s'')
    | (.ok _, s'') => (none, s'')

/-- Addresses of the bytes of reference buffers that an engine read, those of `bufs` alone. -/
def Engine.refAddresses (x : Engine) (bufs : List Nat) (l : List (Nat × Nat)) : List Nat :=
  (l.filter (fun r => bufs.contains r.1 && decide (r.2 < (x.entry r.1).bytes))).map (fun r => (x.entry r.1).va + r.2)

/-- The record's 32 bytes (Table 11.7). -/
def recordBytes (deal frame slice flags offset n tag seq : Nat) : Bytes :=
  toLe (deal % 2 ^ 48) 8 ++ toLe frame 4 ++ toLe slice 2 ++ toLe flags 2 ++ toLe offset 4 ++ toLe n 4 ++ toLe tag 4 ++ toLe seq 4

/-- Write the next record at entry SEQ mod 2^SR_LOG (R316), and raise the session's vector when SLICE_IRQ is set. -/
def State.writeRecord (s : State) (k deal frame slice flags offset n tag : Nat) : Option Nat × State :=
  let x := s.vsession k
  let seq := (x.seq + 1) % 2 ^ 32
  let at0 := x.desc.srBase + 32 * (seq % 2 ^ x.desc.srLog)
  match State.vWrite x.account (fun i => at0 + i) 0 (recordBytes deal frame slice flags offset n tag seq) s with
  | (some c, s') => (some c, s')
  | (none, s') =>
    let s' := s'.setSession k { s'.vsession k with seq }
    let f := s'.boundFn x.account
    (none, if x.desc.sliceIrq then s'.setFn f ((s'.fn f).callVector f x.vec) else s')

/-! ## Encode (R311, R314 to R320) -/

/-- The session an engine serves next: in ascending order after the last, among those with frames handed by now that do not wait on a full ring (R308, R314). -/
def State.nextSession (s : State) (e : Nat) : Option Nat :=
  let order := (List.range 64).map (fun i => ((s.engine e).last + 1 + i) % 64)
  order.find? (fun n => let x := s.vsession (vkey e n); (x.state = 1 || x.state = 2) && encodes x.desc && x.handoffs.head?.any (fun h => h.ps ≤ s.now) && !x.full)

/-- Frame `frame` of the session is a key frame (R311). -/
def Session.keyNow (x : Session) : Bool :=
  x.frame = 0 || (x.desc.intraPeriod ≠ 0 && x.frame % x.desc.intraPeriod = 0) || x.forceKey || x.restarted

/-- Slices of a frame: one per SLICE_ROWS rows of 64. -/
def frameSlices (d : SessDesc) : Nat := ((d.height + 63) / 64 + d.sliceRows - 1) / max d.sliceRows 1

/-- The oldest SHORT buffer of a range. -/
def Engine.oldest (x : Engine) (r : List Nat) : Option Nat :=
  r.foldl (fun best b => if (x.entry b).mark ≠ 1 then best else match best with
    | none => some b
    | some o => if (x.entry b).age < (x.entry o).age then some b else some o) none

/-- The pool before a frame begins, and the buffer its reconstruction takes (R318). -/
def Engine.begin (x : Engine) (d : SessDesc) (session : Nat) (key : Bool) : Engine × Option Nat :=
  let r := poolRange d
  let x := if key then x.freeRange d.poolFirst d.poolCount session else x
  let short := (r.filter (fun b => (x.entry b).mark = 1)).length
  let x := if !d.hostMark && (!r.any (fun b => (x.entry b).mark = 0) || d.maxShort ≤ short) then
      (match x.oldest r with | some b => x.setMark b 0 | none => x) else x
  (x, r.find? (fun b => (x.entry b).mark = 0))

/-- The frame begins: RATE and FORCE_KEY apply, its buffer and its references are chosen; none when the pool is exhausted (R311, R318, R320). -/
def State.beginFrame (s : State) (e n : Nat) : Option State :=
  let k := vkey e n
  let x := s.vsession k
  if x.recon.isSome then some s else
  let key := x.keyNow
  let (eng, buf) := (s.engine e).begin x.desc n key
  match buf with
  | none => none
  | some b =>
    let d : SessDesc := match x.rate with
      | some r => { x.desc with kbps := r.1, maxKbps := r.2.1, qp := r.2.2 }
      | none => x.desc
    let f : CodedFrame := { frame := x.frame, key, restarted := x.restarted, kbps := d.kbps, maxKbps := d.maxKbps, qp := d.qp, buf := b
                            refs := if key then [] else eng.references d, marks := (poolRange d).map (fun b => (eng.entry b).mark) }
    some ((s.setEngine e eng).setSession k { x with desc := d, rate := none, key, forceKey := false, recon := some b, coded := f :: x.coded })

/-- The samples of the slice just read join the frame in progress (R313). -/
def Session.addSlice (x : Session) (l : List Nat) : Session :=
  match x.coded with
  | [] => { x with coded := [{ slices := [l] }] }
  | f :: t => { x with coded := { f with slices := f.slices ++ [l] } :: t }

/-- The bytes of the slice in progress (R313). -/
def Session.sliceBits (x : Session) : Bytes := SearchIn.bits { d := x.desc, coded := x.coded, slice := x.slice }

/-- The frame is complete: its reconstruction is written, its buffer becomes SHORT, or what a MARK asked meanwhile; the hand-off is released with its last frame (R310, R318, R319). -/
def State.endFrame (s : State) (e n : Nat) (h : Handoff) (rest : List Handoff) : State :=
  let k := vkey e n
  let x := s.vsession k
  let base := (((s.engine e).entry (x.recon.getD 0))).va
  match State.vWrite x.account (fun i => base + i) 0 (reconBytes x.desc x.coded (poolBytes x.desc)) s with
  | (some c, s) => s.faultSession k c h.tag
  | (none, s) =>
  let eng := s.engine e
  let eng := match x.recon with
    | some b => eng.setMark b (x.markLater.getD 1)
    | none => eng
  let hs := if h.read + 1 = x.frames then rest else { h with read := h.read + 1 } :: rest
  (s.setEngine e { eng with encoded := eng.encoded + 1 }).setSession k
    { x with handoffs := hs, frame := (x.frame + 1) % 2 ^ 32, slice := 0, restarted := false, recon := none, markLater := none }

/-- A slice's bytes: the ring, the record, what follows; with no room for all of them they wait (R315, R316). -/
def State.emitSlice (s : State) (e n : Nat) (h : Handoff) (rest : List Handoff) (b : Bytes) : State :=
  let k := vkey e n
  let x := s.vsession k
  let size := 2 ^ x.desc.bsLog
  if size < b.length then s.faultSession k 0x67 h.tag
  else if size < (x.written - x.hostRead) + b.length then
    (s.videoEvent k 0x60 x.frame h.tag).setSession k { x with full := true, waiting := some b }
  else
    match State.vWrite x.account (fun i => x.desc.bsBase + (x.written + i) % size) 0 b s with
    | (some c, s') => s'.faultSession k c h.tag
    | (none, s') =>
      let lastSlice := x.slice + 1 = frameSlices x.desc
      let lastFrame := lastSlice && h.read + 1 = x.frames
      let flags := boolNat (x.slice = 0) + 2 * boolNat lastSlice + 4 * boolNat x.key + 8 * boolNat lastFrame + 16 * boolNat x.restarted
      match s'.writeRecord k h.deal x.frame x.slice flags (x.written % size) b.length h.tag with
      | (some c, s'') => s''.faultSession k c h.tag
      | (none, s'') =>
        let y := s''.vsession k
        let s'' := s''.setSession k { y with written := y.written + b.length, slice := y.slice + 1, waiting := none }
        let s'' : State := if h.read = 0 && x.slice = 0 then { s'' with video := { s''.video with longest := max s''.video.longest ((s''.now - h.ps + 999999) / 1000000) } } else s''
        if lastSlice then s''.endFrame e n h rest else s''

/-- An ABANDON that waited for the slice closes the session (R326). -/
def State.afterSlice (s : State) (k : Nat) : State :=
  let x := s.vsession k
  if x.abandon && x.state ≠ 0 then s.shutSession k else s

/-- The slice in progress is read and coded (R304, R312, R313): the rows of the handed frame, then the reference bytes the search looked at. A poisoned frame line is read as zero; a poisoned reference line restarts the frame as a key frame (Table 11.9). -/
def State.codeSlice (s : State) (e n : Nat) (h : Handoff) (rest : List Handoff) (refs : List (Nat × Nat)) : State :=
  let k := vkey e n
  let x := s.vsession k
  match s.stateTouched x with
  | (some c, s) => s.faultSession k c h.tag
  | (none, s) =>
  match State.vRead x.account ((sliceOffsets x.desc x.slice).map (fun o => h.va + h.read * x.frameStride + o)) s with
  | (.error c, s) => s.faultSession k c h.tag
  | (.ok (src, bad), s) =>
  let s := if bad then s.videoEvent k 0x61 x.frame h.tag else s
  match State.vRead x.account ((s.engine e).refAddresses (x.coded.headD {}).refs refs) s with
  | (.error c, s) => s.faultSession k c h.tag
  | (.ok (_, true), s) => (s.videoEvent k 0x62 x.frame h.tag).setSession k { x with slice := 0, restarted := true, recon := none, coded := x.coded.tail }
  | (.ok (_, false), s) =>
    let y := x.addSlice (getSamples x.desc src)
    (s.setSession k y).emitSlice e n h rest y.sliceBits

/-- SLICE_DONE: the engine has served one slice of the next session in its order (R314); a slice that waited for room goes to the ring as it was coded. -/
def execSliceDone (engine : Nat) (out : SliceOut) (s : State) : Out :=
  .next <|
    if (s.engine engine).resetting then s else
    match s.nextSession engine with
    | none => s
    | some n =>
      let k := vkey engine n
      let s := s.setEngine engine { s.engine engine with last := n }
      match (s.vsession k).handoffs with
      | [] => s
      | h :: rest =>
        match (s.vsession k).waiting with
        | some b => (s.emitSlice engine n h rest b).afterSlice k
        | none =>
          match s.beginFrame engine n with
          | none => (s.faultSession k 0x68 h.tag).afterSlice k
          | some s => (s.codeSlice engine n h rest out.refs).afterSlice k

/-- A session that waits still has no room for its slice once the host has read up to `hostRead` (R315). -/
def Session.stillFull (x : Session) (hostRead : Nat) : Bool :=
  x.full && decide (2 ^ x.desc.bsLog < (x.written - hostRead) + (x.waiting.getD []).length)

/-- BS_READ: the host's read offset; one past the engine's write offset is discarded (R315, R551). -/
def execBsRead (fn engine session offset : Nat) (s : State) : Out :=
  let k := vkey engine session
  let x := s.vsession k
  let size := 2 ^ x.desc.bsLog
  let add := (offset + size - x.hostRead % size) % size
  .next <|
    if x.state = 0 || !encodes x.desc || !s.acts fn x.account || size ≤ offset || x.written - x.hostRead < add then s
    else s.setSession k { x with hostRead := x.hostRead + add, full := x.stillFull (x.hostRead + add) }

/-! ## Decode (R322 to R325) -/

/-- A write of the output area would meet a guarded page (R324). -/
def State.outGuarded (s : State) (ctx va n : Nat) : Bool :=
  (List.range (n / 65536 + 2)).any (fun i =>
    let a := min (va + 65536 * i) (va + n - 1)
    match translate s ctx a with
    | (.ok x, _) => s.guardPins.any (fun p => overlaps p.base p.size x.pagePa x.size)
    | (.error _, _) => false)

/-- A DECODE ends with a status, reporting the bytes consumed. -/
def State.endDecode (s : State) (k : Nat) (r : DecodeRun) (rest : List DecodeRun) (status : Nat) : State :=
  (s.setSession k { s.vsession k with decodes := rest }).completeWith r.ticket status r.consumed

/-- The head command after a frame: at its end, at its capacity, or going on. -/
def State.decodeOn (s : State) (k : Nat) (r : DecodeRun) (rest : List DecodeRun) (last : Bool) : State :=
  if last || r.len ≤ r.consumed then s.endDecode k r rest 0x00
  else if r.frames ≤ r.written then s.endDecode k r rest 0x08
  else s.setSession k { s.vsession k with decodes := r :: rest }

/-- Count a decoded frame. -/
def State.countDecoded (s : State) (e : Nat) : State := s.setEngine e { s.engine e with decoded := (s.engine e).decoded + 1 }

/-- A frame that Table 11.3 refuses, or whose DPB is larger than the session's range of buffers (R323, R324). -/
def picRefused (d : SessDesc) (p : Picture) : Bool :=
  p.refused || decide (d.width < p.width) || decide (d.height < p.height) || decide (d.depth < p.depth)
    || decide ((if hevc d then 183 else 17) < p.level) || decide (d.poolCount < p.dpb) || (p.mono && hevc d)

/-- The next `n` bytes of the head command's bitstream, never past its end; what is read joins the decoder's stream (R322). -/
def State.takeStream (s : State) (k : Nat) (r : DecodeRun) (n : Nat) : Option Nat × State :=
  let x := s.vsession k
  match State.vRead x.account ((List.range (min n (r.len - r.consumed))).map (r.va + r.consumed + ·)) s with
  | (.error c, s') => (some c, s')
  | (.ok (l, _), s') => (none, s'.setSession k { s'.vsession k with stream := x.stream ++ l })

/-- The head command after one more frame that used `n` bytes. -/
def DecodeRun.next (r : DecodeRun) (n : Nat) : DecodeRun := { r with consumed := r.consumed + min n (r.len - r.consumed), written := r.written + 1, waiting := false }

/-- A frame that is not written: its record has BYTES 0, and frames are skipped from here on (R325). -/
def State.dropFrame (s : State) (k flags : Nat) (r : DecodeRun) (rest : List DecodeRun) (n : Nat) (last : Bool) : State :=
  let x := s.vsession k
  match s.writeRecord k 0 x.outFrame 0 flags (r.written * x.frameStride) 0 r.tag with
  | (some c, s') => s'.faultSession k c r.tag
  | (none, s') =>
    let y := s'.vsession k
    ((s'.setSession k { y with skipping := true, outFrame := (y.outFrame + 1) % 2 ^ 32 }).decodeOn k (r.next n) rest last).afterSlice k

/-- Bytes of a frame in the layout of R312: the luma and the chroma rows at PITCH. -/
def frameSize (d : SessDesc) : Nat := d.pitch * d.height * 3 / 2

/-- A decoded frame is written at its place in the output area, recorded and counted (R322, R323). -/
def State.putFrame (s : State) (e k : Nat) (r : DecodeRun) (rest : List DecodeRun) (p : Picture) : State :=
  let x := s.vsession k
  let va := r.outVa + r.written * x.frameStride
  let offs := frameOffsets x.desc p.width p.height
  match State.vWrite x.account (fun i => va + offs.getD i 0) 0 (pictureBytes x.desc p (Config.decodedSample x.desc.codec x.stream x.outFrame)) s with
  | (some c, s') => s'.faultSession k c r.tag
  | (none, s') =>
    match s'.writeRecord k 0 x.outFrame 0 (4 * boolNat p.key + 32 * boolNat p.grain + 3) (r.written * x.frameStride) (frameSize x.desc) r.tag with
    | (some c, s'') => s''.faultSession k c r.tag
    | (none, s'') =>
      let y := s''.vsession k
      ((((s''.setSession k { y with outFrame := (y.outFrame + 1) % 2 ^ 32, skipping := false }).countDecoded e).decodeOn k (r.next p.consumed) rest p.last).afterSlice k)

/-- One frame of a session's head DECODE whose stream the engine has read. -/
def State.decodeFrame (s : State) (e k : Nat) (r : DecodeRun) (rest : List DecodeRun) (p : Picture) : State :=
  let x := s.vsession k
  match State.vRead x.account ((s.engine e).refAddresses (poolRange x.desc) p.refs) s with
  | (.error c, s) => s.faultSession k c r.tag
  | (.ok (_, bad), s) =>
    let s := if bad then s.videoEvent k 0x62 x.outFrame r.tag else s
    if x.skipping && !p.key then s.dropFrame k 0x83 r rest p.consumed p.last else s.putFrame e k r rest p

/-- DECODE_FRAME_DONE: one frame of the head DECODE of the session (R322 to R325). A frame of a guarded page waits before anything of it is read. -/
def execDecodeFrameDone (engine session : Nat) (out : DecOutcome) (s : State) : Out :=
  .next <|
    let k := vkey engine session
    let x := s.vsession k
    match x.decodes with
    | [] => s
    | r :: rest =>
      if (x.state ≠ 1 && x.state ≠ 2) || (s.engine engine).resetting || s.power.phase ≠ 0 then s else
      match out with
      | .error n =>
        (match s.takeStream k r n with
          | (some c, s) => s.faultSession k c r.tag
          | (none, s) => (s.videoEvent k 0x66 x.outFrame r.tag).dropFrame k 0x43 r rest n false)
      | .frame p =>
        if picRefused x.desc p then s.faultSession k 0x66 r.tag
        else if (!x.skipping || p.key) && s.outGuarded x.account (r.outVa + r.written * x.frameStride) (frameSize x.desc) then
          if r.waiting then s else State.setSession { s with video := { s.video with held := s.video.held + 1 } } k { x with decodes := { r with waiting := true } :: rest }
        else
          match s.stateTouched x with
          | (some c, s) => s.faultSession k c r.tag
          | (none, s) =>
            match s.takeStream k r p.consumed with
            | (some c, s) => s.faultSession k c r.tag
            | (none, s) => s.decodeFrame engine k r rest p

/-! ## Engine defects (R328) -/

/-- ENGINE_DEFECT: every session of the engine is FAULTED, and the engine resets itself; a fourth defect disables it. -/
def execEngineDefect (engine : Nat) (s : State) : Out :=
  let live := (List.range 64).filter (fun n => let x := s.vsession (vkey engine n); x.state = 1 || x.state = 2)
  let s := live.foldl (fun s n => s.faultSession (vkey engine n) 0x69 0) s
  let x := s.engine engine
  .next (s.setEngine engine { x with defects := x.defects + 1, resetting := true, disabled := x.disabled || 4 ≤ x.defects + 1 })

/-- ENGINE_RESET_DONE: within 10 ms the engine accepts OPEN again, unless it is disabled (R328). -/
def execEngineResetDone (engine : Nat) (s : State) : Out :=
  .next <| if (s.engine engine).resetting then s.setEngine engine { s.engine engine with resetting := false } else s

/-! ## Pool entries (R317) -/

/-- A pool entry's 16 bytes. -/
def poolBytes16 (p : PoolEntry) : Bytes := toLe p.va 8 ++ toLe p.bytes 4 ++ toLe p.mark 1 ++ toLe p.session 1 ++ toLe 0 2

/-- A write of entry `b` of engine `e`: VA and BYTES, only while no open session holds it in range; the byte of the session is the device's (log entry 36). -/
def State.poolWrite (s : State) (e b : Nat) (v : Bytes) : WriteRes :=
  if v.length = 16 && (le v 0 8 / 2 ^ 48 ≠ 0 || nonzero v 0xE 2) then wRsvd s
  else if v.length ≠ 16 || le v 0 8 % 64 ≠ 0 || 2 < byteAt v 0xC then wRange s
  else if s.video.sessions.any (fun x => x.1 / 64 = e && x.2.state ≠ 0 && (poolRange x.2.desc).contains b) then wRefused 0 s
  else
    let eng := s.engine e
    wOk (s.setEngine e { eng with pool := aset b { eng.entry b with va := le v 0 8, bytes := le v 8 4, mark := byteAt v 0xC } eng.pool })

end Sys2Proof.Machine
end

