-- ==== Sys2Proof/Machine/Power.lean ====
section
/-!
DEFINITION. Machine/Power.lean: the thermal controller, the thermal trip, Sleep and wake (R461, R462, R469, R491 to R496, R584 to R588).
-/
namespace Sys2Proof.Machine

/-! ## Temperatures -/

/-- A reading of `t` tenths of a degree against a binary32 threshold: at or below it. -/
def tempAtMost (t : Int) (f : Word32) : Bool := !((fp32.decode f.toNat).mul (Num.ofInt 10)).lt (Num.ofInt t)

/-- At or above it. -/
def tempAtLeast (t : Int) (f : Word32) : Bool := !(Num.ofInt t).lt ((fp32.decode f.toNat).mul (Num.ofInt 10))

/-- The hottest reading (R461, R469); none when no sensor reads. -/
def hottest (l : List Temp) : Option Int :=
  (l.filterMap id).foldl (fun best t => match best with | none => some t | some b => some (max b t)) none

/-- Tj is at or above STRETCH_ON: a die whose sensors have all failed counts as STRETCH_ON + 1.0 (R469). -/
def State.hot (s : State) : Bool :=
  s.power.blind ≠ [] || (match hottest s.power.temps with | some t => tempAtLeast t s.dict.settings.stretchOn | none => false)

/-- Tj is at or below STRETCH_OFF. -/
def State.coolNow (s : State) : Bool :=
  s.power.blind = [] && (match hottest s.power.temps with | some t => tempAtMost t s.dict.settings.stretchOff | none => false)

/-- Dies whose sensors have failed, each logged once (R469). -/
def State.noteBlind (s : State) : State :=
  let bad := (List.range 9).filter (fun i => s.power.temps.getD i none = none && !s.power.blind.contains i)
  let s := { s with power := { s.power with blind := s.power.blind ++ bad } }
  bad.foldl (fun s i => s.post (logItem 0 0 s.curDeal (placeDie i))) s

/-! ## The controller (R461) -/

/-- Step 1, settle. -/
def State.thermalSettle (s : State) : State :=
  match s.power.metSince with
  | some t => if s.power.thermal = 1 && s.cad.stretchReq ≤ s.cad.period && decide (t + 10000000000 ≤ s.now) then { s with power := { s.power with thermal := 2 } } else s
  | none => s

/-- Step 2, withdraw: the condition has held at this evaluation and at every one of the preceding WITHDRAW ms. -/
def State.thermalWithdraw (s : State) : State :=
  let held := s.coolNow && decide (100 * s.power.watts ≤ 95 * s.dict.settings.powerOn)
  let n := if held then s.power.cool + 1 else 0
  let s := { s with power := { s.power with cool := n } }
  if s.dict.settings.withdraw + 1 ≤ n then { s with cad := { s.cad with stretchReq := 0, stretchRaises := [] }, power := { s.power with thermal := 0, metSince := none } } else s

/-- Step 3, raise (R41). With no position held the period counts as 40 ns, the least there is, and the raise counts from the deal number held last (DESIGN CHOICE, log entry 91). -/
def State.thermalRaise (s : State) : State :=
  if s.power.thermal = 1 || !(s.hot || s.dict.settings.powerOn < s.power.watts) || s.cad.stretchReq = 160 then s else
  let req := min 160 (max (max s.cad.stretchReq s.cad.period) 40 + s.dict.settings.step)
  let s := { s with
    cad := { s.cad with stretchReq := req, stretchRaises := s.cad.stretchRaises ++ [(s.cad.deal, req)] }
    power := { s.power with thermal := 1, metSince := if req ≤ s.cad.period then some s.now else none } }
  s.post { ev 0x09 0 s.curDeal with w2 := req }

/-- Evaluations in a row at which every reading stood at or below STRETCH_OFF, this one included (R587). -/
def State.coolRun (s : State) (temps : List Temp) : Nat :=
  if temps.all (fun t => match t with | some t => tempAtMost t s.dict.settings.stretchOff | none => false) then s.power.tripCool + 1 else 0

/-- The readings of the millisecond (R451, R469, R587, Table 20.8). -/
def State.takeReadings (s : State) (temps : List Temp) : State :=
  let cold := temps.any (fun t => match t with | some t => decide (t < 0) | none => false)
  let s := { s with power := { s.power with temps, cold := cold && (s.power.cold || s.start.stage ≠ 2), tripCool := s.coolRun temps } }
  s.noteBlind

/-- THERMAL_EVALUATION: a whole millisecond of OD 0x1000.0A; in Sleep only the energy is counted, and the trip's cool run, since a trip releases in Sleep too (R451, R460 to R462, Table 20.9). -/
def execThermalEvaluation (r : Readings) (s : State) : Out :=
  .next <|
    if s.start.stage = 0 then s else
    let ms := max (s.power.lastMs + 1) (s.now / 1000000000)
    let s := s.advanceTo (1000000000 * ms)
    let s := { s with power := { s.power with lastMs := ms, watts := r.power, energy := s.power.energy + r.power } }
    if s.power.phase ≠ 0 then { s with power := { s.power with tripCool := s.coolRun r.temps } } else
    ((((s.takeReadings r.temps).thermalSettle).thermalWithdraw).thermalRaise)

/-! ## The trip (R586 to R588) -/

/-- The trip's actions: THERM_N, compute gated and its stores lost, the table left with THERMAL_TRIP, and the departure hold. -/
def State.trip (s : State) : State :=
  if s.power.tripped then s else
  let s := { s with board := { s.board with thermN := true }, power := { s.power with tripped := true, tripCool := 0 } }
  let s := State.toLeft { s with cad := { s.cad with holdThermal := true } } 0x05
  s.loseAllStores

/-- THERMAL_TRIP: a reading at or above 110 °C (R586). -/
def execThermalTrip (reading : Int) (s : State) : Out := .next (if 1100 ≤ reading && s.start.up then s.trip else s)

/-- CRITICAL_TEMPERATURE: a reading at or above 120 °C (R588). -/
def execCriticalTemperature (reading : Int) (s : State) : Out :=
  .next <| if 1200 ≤ reading && s.start.up then State.trip { s with board := { s.board with critN := true } } else s

/-- TRIP_RELEASE: every reading at or below STRETCH_OFF at every evaluation for 100 ms (R587); LEFT_RELEASE follows. -/
def execTripRelease (s : State) : Out :=
  .next <|
    if s.power.tripped && 101 ≤ s.power.tripCool then
      { s with board := { s.board with thermN := false }, power := { s.power with tripped := false }, cad := { s.cad with holdThermal := false } }
    else s

/-! ## Deal boundaries -/

/-- A deal boundary at which no re-deal is pending is at hand: the last trick of a decided deal, or nothing dealt at all (R485, R489, R491, R531). -/
def State.atBoundary (s : State) : Bool := !s.dealing || (s.cad.decided && s.left = some 1 && s.dealer.redeal.isNone)

/-- A boundary at which the Cadence unit may move to READY: Table 2.5 lists that transition from DEALING only, so on the flywheel Sleep, Open and a life-cycle command wait for a later boundary (R47). -/
def State.mayStandDown (s : State) : Bool := s.atBoundary && s.cad.st ≠ .flywheel

/-- At that boundary the Cadence unit moves to READY and the sheet selected for the next deal receives DISPLACED. -/
def State.standDown (s : State) : State :=
  if !s.dealing then s.discardSelected else
  let s := s.discardSelected
  { s with
    cad := { s.cad with st := .ready, joinMark := none, missRun := 0 }
    dealer := { s.dealer with running := none }
    board := { s.board with loadHint := false } }

/-! ## Sleep (R459, R491 to R496) -/

/-- A power request (R459, R496). -/
def State.powerWrite (s : State) (v : Nat) : WriteRes :=
  let p := s.power
  match v, p.phase with
  | 1, 0 => wOk { s with power := { p with sleepReq := true } }
  | 1, 3 => wOk { s with power := { p with sleepReq := true } }
  | 1, _ => wOk s
  | 2, 0 => wOk { s with power := { p with sleepReq := false } }
  | 2, 1 => wOk { s with power := { p with runReq := true } }
  | 2, 2 => wOk { s with power := { p with phase := 3 } }
  | 2, _ => wOk { s with power := { p with sleepReq := false } }
  | _, _ => wRange s

/-- The base level of a life-cycle state (Table 17.1). -/
def baseLevel (lc : Nat) : Nat := if lc = 0 || lc = 3 then 1 else 0

/-- Sleep entry ends an Open session, which goes on as Observe, and drops an Open grant that still waits (R492, Table 17.9). -/
def State.sleepDebug (s : State) : State :=
  let s : State := match s.sec.openWait with
    | some (path, expiry) => { s with sec := { s.sec with openWait := none, session := s.sec.level ≠ baseLevel s.sec.lifeCycle, path, expiry } }
    | none => s
  if s.sec.level ≠ 2 then s else
  let s := s.security 0xA4 0 0 2 0
  { s with
    sec := { s.sec with level := 1, session := baseLevel s.sec.lifeCycle ≠ 1, joinLow := false }
    power := { s.power with wakeCheck := s.keysAllowed } }

/-- Changes of key slots that still waited for a mark reach the hub store (R284, R492). -/
def State.flushKeys (s : State) : State :=
  let t := s.vault.keyPending.foldl (fun s c => s.setKey c.1 c.2.1) s
  { t with vault := { t.vault with keyPending := [] } }

/-- SLEEP_ENTRY: at a deal boundary, steps 1 to 6 of R492; `failed` is what its BIST found. -/
def execSleepEntry (failed : List UnitRef) (s : State) : Out :=
  .next <|
    if !s.power.sleepReq || s.power.phase ≠ 0 || s.sec.preparing || !s.mayStandDown || s.sec.lifeCycle = 4 then s else
    let s := s.standDown.sleepDebug
    let s := { s with
      cad := { s.cad with stretchReq := 0, stretchRaises := [] }
      power := { s.power with phase := 1, sleepReq := false, thermal := 0, metSince := none, cool := 0 } }
    let s := s.closeWindow.bist failed
    let s := s.onDies 0xFF Core.zeroMarks Cluster.zeroMarks
    let s := s.loseAllStores.flushKeys
    { s with vault := { s.vault with keys := [] } }

/-- No hand-off is held and no slice is in service (R492). -/
def State.videoIdle (s : State) : Bool := s.video.sessions.all (fun x => x.2.handoffs = [] && x.2.recon.isNone)

/-- SLEEP_COMPLETE: nothing is pinned or deferred, the hand-offs are released (R271, R492); a Run request made meanwhile begins the wake (R496). The Deck links stop. -/
def execSleepComplete (s : State) : Out :=
  .next <|
    if s.power.phase ≠ 1 || s.pins ≠ [] || s.mem.deferred ≠ [] || s.mem.windowPending ≠ [] || !s.videoIdle then s else
    { s with
      power := { s.power with phase := if s.power.runReq then 3 else 2, runReq := false }
      cascade := { s.cascade with links := s.cascade.links.map (fun x => (x.1, if x.2.st = 3 then x.2 else { st := 0, replayed := x.2.replayed, losses := x.2.losses })) } }

/-- Unwrap every stored key into its slot; one that fails leaves its slot empty with SECURITY KEY_UNWRAP (R283, R284). -/
def State.unwrapKeys (s : State) : State :=
  if !s.keysAllowed || s.sec.lcBad then s else
  s.nv.wrapped.foldl (fun s w => match Config.keyUnwrap w.2.2 with
    | some k => { s with vault := { s.vault with keys := aset w.1 (w.2.1, k) s.vault.keys } }
    | none => s.security 0xA9 0 0 w.1 0) s

/-- The Deck links train at Run entry (R361). -/
def State.trainLinks (s : State) : State :=
  { s with cascade := { s.cascade with links := (List.range 8).foldl (fun l k => let x := (aget k l).getD {}; aset k (if x.st = 3 then x else { x with st := 1 }) l) s.cascade.links } }

/-- The session-end check finds what it measured changed: SECURITY CHECK_FAIL and a firmware reset (R488). -/
def State.checkFail (s : State) : State := (s.security 0xA8 0 0 0 0).reboot 3

/-- WAKE_COMPLETE: keys in their slots, after the session-end check when Sleep ended Open; join flag and links again (R494), and the events of Sleep entry's self-test (R357). -/
def execWakeComplete (measureOk : Bool) (s : State) : Out :=
  .next <|
    if s.power.phase ≠ 3 then s
    else if s.power.wakeCheck && !measureOk then s.checkFail
    else
      let s := s.unwrapKeys.trainLinks
      State.postAll { s with power := { s.power with phase := 0, wakeCheck := false, wakePs := s.now }, dealer := { s.dealer with afterWake := [] } } s.dealer.afterWake

end Sys2Proof.Machine
end

