-- ==== Sys2Proof/Machine/Tables.lean ====
section
/-!
DEFINITION. Machine/Tables.lean: loading function-table slots (R224 to R228, Table 8.5).
-/
namespace Sys2Proof.Machine

/-- The image a slot holds or will hold: an accepted one that waits for its mark, else the one in force. -/
def State.slotImage (s : State) (k : Nat) : Bytes :=
  match s.svis.tablePending.find? (·.1 = k) with
  | some x => x.2.1
  | none => (aget k s.svis.tables).getD []

/-- GROUP of an image; 0 of an empty one. -/
def imageGroup (b : Bytes) : Nat := bits (byteAt b 5) 0 5

/-- OD 0x2600.23: slots that a loaded form's native image evaluates (R227). -/
def State.slotsReferenced (s : State) : Word32 := s.forms.foldl (fun m f => m ||| f.native.tables) 0

/-- IN_USE (R227). -/
def State.slotInUse (s : State) (k : Nat) (v : Bytes) : Bool :=
  let used := (List.range 32).filter (fun j => s.slotsReferenced.getLsbD j)
  let groups := (used.map (fun j => imageGroup (s.slotImage j))).filter (· ≠ 0)
  used.contains k || groups.contains (imageGroup (s.slotImage k)) || groups.contains (imageGroup v)

/-- An FP32 pattern that is NaN or infinite. -/
def fp32Special (w : Nat) : Bool := bits w 23 8 = 255

def fp32NaN (w : Nat) : Bool := fp32Special w && bits w 0 23 ≠ 0

/-- BAD_IMAGE (Table 8.5). -/
def imageBad (v : Bytes) : Bool :=
  v.length ≠ 3136 || crc32cSkip 0x3C v ≠ le v 0x3C 4 || byteAt v 5 / 32 ≠ 0 || byteAt v 6 / 16 ≠ 0 || nonzero v 7 1 || nonzero v 0x14 40
    || bits (byteAt v 6) 0 2 = 3 || bits (byteAt v 6) 2 2 = 3

/-- DOMAIN (Table 8.5). With LO finite and WLOG in range HI rounds to a finite FP32 value, so it asks for nothing more. -/
def imageDomain (v : Bytes) : Bool :=
  let w := byteAt v 4
  fp32Special (le v 0 4) || (24 < w && w < 232)

/-- COEFF (Table 8.5). -/
def imageCoeff (v : Bytes) : Bool :=
  (chunks 4 768 (v.drop 0x40)).any (fun c => fp32Special (leAll c)) || fp32NaN (le v 8 4) || fp32NaN (le v 0xC 4)

/-- The first reason of Table 8.5 that applies; 0 none. A write of zero length empties the slot. -/
def State.tableReason (s : State) (k : Nat) (v : Bytes) : Nat :=
  if v = [] then (if s.slotInUse k v then 4 else 0)
  else if imageBad v then 1
  else if imageDomain v then 2
  else if imageCoeff v then 3
  else if s.slotInUse k v then 4
  else 0

/-- rsvd fields of an image (Table 8.1). -/
def imageRsvd (v : Bytes) : Bool := byteAt v 5 / 32 ≠ 0 || byteAt v 6 / 16 ≠ 0 || nonzero v 7 1 || nonzero v 0x14 40

/-- TABLE_SLOT_WRITE's image is accepted, to take effect at a later mark, or refused (R226). A length or a rsvd field that is wrong is answered RANGE or RSVD, and recorded as BAD_IMAGE (R434, R594). -/
def State.tableWrite (s : State) (k : Nat) (v : Bytes) : WriteRes :=
  let noted : State := { s with svis := { s.svis with tableRefusal := 1 } }
  if v.length ≠ 0 && v.length ≠ 3136 then wRange noted
  else if v ≠ [] && imageRsvd v then wRsvd noted
  else match s.tableReason k v with
  | 0 => wOk { s with svis := { s.svis with tablePending := s.svis.tablePending.filter (·.1 ≠ k) ++ [(k, v, s.now)] } }
  | r => wRefused r { s with svis := { s.svis with tableRefusal := r } }

/-- TABLE_SLOT_UPDATE: the first deal mark at least 100 µs after acceptance has come (R226). -/
def execTableSlotUpdate (k : Nat) (s : State) : Out :=
  .next <|
    match s.svis.tablePending.find? (·.1 = k) with
    | none => s
    | some (_, v, t) =>
      if s.cad.trick ≠ 0 || s.cad.len.isNone || decide (s.cad.startPs < t + 100000000) then s
      else { s with svis := { s.svis with
        tablePending := s.svis.tablePending.filter (·.1 ≠ k)
        tables := if v = [] then adel k s.svis.tables else aset k v s.svis.tables } }

end Sys2Proof.Machine
end

