-- ==== Sys2Proof/Machine/Store.lean ====
section
/-!
DEFINITION. Machine/Store.lean: the boot record, the user layer and its two copies, and the live values they give (R440 to R446, R511, Tables 15.5 to 15.7, 15.11, 18.2).
-/
namespace Sys2Proof.Machine

/-! ## The boot record (R511) -/

/-- The record in force; none when neither copy is valid. -/
def State.bootRec (s : State) : Option Boot :=
  match s.nv.bootA, s.nv.bootB with
  | some a, some b => some (if a.seq < b.seq then b else a)
  | some a, none => some a
  | none, b => b

def State.boot (s : State) : Boot := s.bootRec.getD {}

/-- Rewrite the boot record: both copies take the new bytes, SEQ one higher, or 1 where no record is in force (R511). -/
def State.writeBoot (s : State) (b : Boot) : State :=
  let b := some { b with seq := match s.bootRec with | some x => x.seq + 1 | none => 1 }
  { s with nv := { s.nv with bootA := b, bootB := b } }

/-- The 64 bytes of the record (Table 18.2). -/
def bootBytes (b : Boot) : Bytes :=
  let body := toLe 0x544F4F42 4 ++ toLe 1 2 ++ toLe 0 2 ++ toLe b.seq 4
    ++ [BitVec.ofNat 8 (boolNat b.activeB), BitVec.ofNat 8 b.slotA, BitVec.ofNat 8 b.slotB, BitVec.ofNat 8 (boolNat b.tried + 2 * boolNat b.crownCopy)]
    ++ [BitVec.ofNat 8 b.pend, BitVec.ofNat 8 b.last, BitVec.ofNat 8 (b.ringAddr % 32 + 32 * boolNat b.ringValid), 0]
    ++ toLe b.brimFloor 4 ++ toLe b.crownFloor 4 ++ List.replicate 32 0
  body ++ toLe (crc32c (body ++ List.replicate 4 0)) 4

/-- Field `off` of an image header (Table 18.4). -/
def imageField (h : Bytes) (off : Nat) : Nat := le h off 4

/-- The image of the Brim slot that runs. -/
def State.brim (s : State) : Image := if s.start.runB then s.nv.slotB else s.nv.slotA

/-- OD 0x1000.07 -/
def State.brimVersion (s : State) : Nat := imageField s.brim.header 8

/-! ## User-overridable entries (R427, R440) -/

/-- Index, sub, type and width of the fixed-type entries that are user-overridable, in ascending order of index. -/
def fixedBelow : List (Nat × Nat × Nat × Nat) :=
  [(0x1100, 0x01, 2, 1), (0x1100, 0x04, 2, 1), (0x1200, 0x07, 3, 2), (0x1300, 0x20, 7, 4), (0x1300, 0x21, 7, 4), (0x1300, 0x22, 3, 2), (0x1300, 0x23, 2, 1),
   (0x1300, 0x24, 3, 2), (0x2000, 0x13, 4, 4), (0x2300, 0x25, 2, 1), (0x2500, 0x01, 2, 1), (0x2500, 0x02, 2, 1), (0x2500, 0x05, 2, 1), (0x2500, 0x06, 2, 1),
   (0x2500, 0x07, 4, 4), (0x2500, 0x08, 2, 1), (0x2500, 0x0A, 2, 1)]

/-- An account's policy entry (Table 3.13). -/
def isPolicy (index sub : Nat) : Bool := 0x3000 ≤ index && index ≤ 0x3FFF && sub = 8

/-- A function-table slot's entry (Table 8.6). -/
def isTableSlot (index sub : Nat) : Bool := index = 0x2600 && 1 ≤ sub && sub ≤ 0x20

def policyWord (a : Acct) : Nat := boolNat a.enabled + 2 * boolNat a.loose

/-- Live value of a user-overridable fixed-type entry. -/
def State.setting (s : State) (index sub : Nat) : Nat :=
  let g := s.dict.settings
  if isPolicy index sub then policyWord (s.acct (index - 0x3000)) else
  match index, sub with
  | 0x1100, 0x01 => g.ringAddr
  | 0x1100, 0x04 => g.seg
  | 0x1200, 0x07 => s.cad.trim
  | 0x1300, 0x20 => g.stretchOn.toNat
  | 0x1300, 0x21 => g.stretchOff.toNat
  | 0x1300, 0x22 => g.powerOn
  | 0x1300, 0x23 => g.step
  | 0x1300, 0x24 => g.withdraw
  | 0x2000, 0x13 => s.repair.transientWindow
  | 0x2300, 0x25 => s.vault.scrubDays
  | 0x2500, 0x01 => g.candidate
  | 0x2500, 0x02 => g.eligible
  | 0x2500, 0x05 => g.position
  | 0x2500, 0x06 => g.passLink
  | 0x2500, 0x07 => g.lenPlan
  | 0x2500, 0x08 => g.periodPlan
  | 0x2500, 0x0A => g.refSync
  | _, _ => 0

def State.putSettings (s : State) (g : Settings) : State := { s with dict := { s.dict with settings := g } }

/-- A live value changes (R441), with what follows at once from it: a Banker's length plan joins those due (R369), and a Banker that no longer locks to REF_IN shows it (R393). -/
def State.putSetting (s : State) (index sub v : Nat) : State :=
  let g := s.dict.settings
  if isPolicy index sub then
    let a := index - 0x3000
    s.setAcct a { s.acct a with enabled := bit v 0, loose := bit v 1 }
  else
  match index, sub with
  | 0x1100, 0x01 => s.putSettings { g with ringAddr := v }
  | 0x1100, 0x04 => s.putSettings { g with seg := v }
  | 0x1200, 0x07 => { s with cad := { s.cad with trim := v } }
  | 0x1300, 0x20 => s.putSettings { g with stretchOn := BitVec.ofNat 32 v }
  | 0x1300, 0x21 => s.putSettings { g with stretchOff := BitVec.ofNat 32 v }
  | 0x1300, 0x22 => s.putSettings { g with powerOn := v }
  | 0x1300, 0x23 => s.putSettings { g with step := v }
  | 0x1300, 0x24 => s.putSettings { g with withdraw := v }
  | 0x2000, 0x13 => { s with repair := { s.repair with transientWindow := v } }
  | 0x2300, 0x25 => { s with vault := { s.vault with scrubDays := v } }
  | 0x2500, 0x01 => s.putSettings { g with candidate := v }
  | 0x2500, 0x02 => s.putSettings { g with eligible := v }
  | 0x2500, 0x05 => s.putSettings { g with position := v }
  | 0x2500, 0x06 => s.putSettings { g with passLink := v }
  | 0x2500, 0x07 =>
    let s := s.putSettings { g with lenPlan := v }
    if s.cascade.isBanker then { s with cascade := { s.cascade with lenPlan := s.cascade.lenPlan ++ [(v, s.now)] } } else s
  | 0x2500, 0x08 => s.putSettings { g with periodPlan := v }
  | 0x2500, 0x0A =>
    let s := s.putSettings { g with refSync := v }
    if bit v 0 then s else { s with cascade := { s.cascade with refState := 0 } }
  | _, _ => s

/-- `lo` ≤ a ≤ `hi` as binary32 values, for whole bounds; a NaN lies in no range. -/
def f32Within (v : Nat) (lo hi : Int) : Bool :=
  let x := fp32.decode v
  !x.isNan && !x.lt (Num.ofInt lo) && !(Num.ofInt hi).lt x

/-- STRETCH_OFF ≤ STRETCH_ON − 2.0 (R458). -/
def stretchOrder (on off : Nat) : Bool := !((fp32.decode on).add false (Num.ofInt (-2))).lt (fp32.decode off)

/-- Range of a user-overridable fixed-type entry (R427), with the rule of R458 for the thresholds. -/
def State.settingOk (s : State) (index sub v : Nat) : Bool :=
  if isPolicy index sub then v < 4 else
  match index, sub with
  | 0x1100, 0x01 => v ≤ 31
  | 0x1100, 0x04 => v ≤ 255
  | 0x1200, 0x07 => v ≤ 3750 && v % 250 = 0
  | 0x1300, 0x20 => f32Within v 70 100 && stretchOrder v s.dict.settings.stretchOff.toNat
  | 0x1300, 0x21 => f32Within v 60 100 && stretchOrder s.dict.settings.stretchOn.toNat v
  | 0x1300, 0x22 => 900 ≤ v && v ≤ 1650
  | 0x1300, 0x23 => 1 ≤ v && v ≤ 40
  | 0x1300, 0x24 => 10 ≤ v && v ≤ 10000
  | 0x2000, 0x13 => 1024 ≤ v && v ≤ 16777216
  | 0x2300, 0x25 => 1 ≤ v && v ≤ 30
  | 0x2500, 0x01 => v ≤ 1
  | 0x2500, 0x02 => v ≤ 1
  | 0x2500, 0x05 => v ≤ 15
  | 0x2500, 0x06 => v ≤ 7 || v = 0xFF
  | 0x2500, 0x07 => 1024 ≤ v && v ≤ 4194304
  | 0x2500, 0x08 => 40 ≤ v && v ≤ 160
  | 0x2500, 0x0A => v ≤ 3
  | _, _ => false

/-- Bits of a user-overridable fixed-type entry that are not rsvd (R429). -/
def settingMask (index sub : Nat) : Nat :=
  if isPolicy index sub || (index = 0x2500 && sub = 0x0A) then 4 else 2 ^ 32

/-! ## User copies (Tables 15.5 and 15.6) -/

/-- Records of the live values of every user-overridable entry, in ascending order (R444). -/
def State.liveRecs (s : State) : List UserRec :=
  fixedBelow.map (fun e => { index := e.1, sub := e.2.1, type := e.2.2.1, value := toLe (s.setting e.1 e.2.1) e.2.2.2 })
    ++ (List.range 32).map (fun k => { index := 0x2600, sub := k + 1, type := 9, value := s.slotImage k })
    ++ (List.range 4096).map (fun a => { index := 0x3000 + a, sub := 8, type := 4, value := toLe (policyWord (s.acct a)) 4 })

/-- This Brim knows the record's entry as user-overridable. -/
def knownRec (r : UserRec) : Bool :=
  isPolicy r.index r.sub || isTableSlot r.index r.sub || fixedBelow.any (fun e => e.1 = r.index && e.2.1 = r.sub)

/-- A record of an entry this Brim knows as user-overridable: its TYPE and LENGTH are the entry's, its value lies in the entry's range, and no rsvd bit of it is set (R443). -/
def State.recOk (s : State) (r : UserRec) : Bool :=
  let v := leAll r.value
  let ranged := v = v % settingMask r.index r.sub && (if r.index = 0x1300 && r.sub = 0x20 then f32Within v 70 100 else if r.index = 0x1300 && r.sub = 0x21 then f32Within v 60 100 else s.settingOk r.index r.sub v)
  if isPolicy r.index r.sub then r.type = 4 && r.value.length = 4 && ranged
  else if isTableSlot r.index r.sub then r.type = 9 && (r.value = [] || (r.value.length = 3136 && !imageRsvd r.value))
  else match fixedBelow.find? (fun e => e.1 = r.index && e.2.1 = r.sub) with
    | some e => r.type = e.2.2.1 && r.value.length = e.2.2.2 && ranged
    | none => true

/-- Records stand in strictly ascending (INDEX, SUB) order (R443). -/
def ascending : List UserRec → Bool
  | [] => true
  | [_] => true
  | a :: b :: t => (a.index < b.index || (a.index = b.index && a.sub < b.sub)) && ascending (b :: t)

/-- Place a record in ascending (INDEX, SUB) order. -/
def insertRec (r : UserRec) : List UserRec → List UserRec
  | [] => [r]
  | x :: t => if r.index < x.index || (r.index = x.index && r.sub ≤ x.sub) then r :: x :: t else x :: insertRec r t

/-- A record's bytes: header, value, padding to 8. -/
def recBytes (r : UserRec) : Bytes :=
  toLe r.index 2 ++ toLe r.sub 1 ++ toLe r.type 1 ++ toLe r.value.length 4 ++ r.value ++ List.replicate ((8 - r.value.length % 8) % 8) 0

/-- A copy's bytes. -/
def copyBytes (c : UserCopy) : Bytes :=
  let recs := c.recs.flatMap recBytes
  let head := toLe 0x47464355 4 ++ toLe 1 2 ++ toLe 0 2 ++ toLe c.seq 4 ++ toLe c.recs.length 4 ++ toLe recs.length 4 ++ toLe c.brim 4 ++ List.replicate 36 0
  head ++ toLe (crc32c (head ++ List.replicate 4 0 ++ recs)) 4 ++ recs

/-- The two thermal thresholds of a copy's records in the order of R458: each against the other, or against the factory default where the copy holds no record of the other. -/
def stretchRecs (l : List UserRec) : Bool :=
  let v := fun sub dflt => match l.find? (fun r => r.index = 0x1300 && r.sub = sub) with | some r => leAll r.value | none => dflt
  stretchOrder (v 0x20 0x42BE0000) (v 0x21 0x42B40000)

/-- A copy is valid (R443, R458): SEQ, COUNT and BYTES within Table 15.5, its records in order, and each one that is known as its entry asks. MAGIC, FORMAT, CHECK, padding and rsvd fields are those of the bytes `copyBytes` gives; a copy whose bytes fail there is held as none. -/
def State.validCopy (s : State) (c : UserCopy) : Bool :=
  1 ≤ c.seq && c.seq < 2 ^ 32 && c.recs.length ≤ 262136 && (c.recs.flatMap recBytes).length ≤ 2097088 && ascending c.recs && c.recs.all s.recOk && stretchRecs c.recs

/-- The copy in force: 0 factory, 1 A, 2 B; the detail of its event, 0 none; and whether the next store writes B first (Table 15.7). -/
def chooseCopy (a b : Option UserCopy) : Nat × Nat × Bool :=
  match a, b with
  | some x, some y =>
    if x.seq = y.seq then (1, if x = y then 0 else 0x90, true) else if y.seq < x.seq then (1, 0, true) else (2, 0, false)
  | some _, none => (1, 0x91, true)
  | none, some _ => (2, 0x91, false)
  | none, none => (0, 0x92, true)

/-- The copy that OD 0x1500.04 names. -/
def State.copyInForce (s : State) : Option UserCopy :=
  match s.dict.inForce with
  | 1 => s.nv.userA
  | 2 => s.nv.userB
  | _ => none

/-- OD 0x1500.06: each copy's validity, and whether two valid copies differ. -/
def State.copyFlags (s : State) : Nat :=
  boolNat s.nv.userA.isSome + 2 * boolNat s.nv.userB.isSome + 4 * boolNat (s.nv.userA.isSome && s.nv.userB.isSome && decide (s.nv.userA ≠ s.nv.userB))

/-- Take the choice of Table 15.7 into OD 0x1500.04 and .05, with the records that are carried forward (R443). -/
def State.takeChoice (s : State) (c : Nat × Nat × Bool) : State :=
  let s : State := { s with dict := { s.dict with inForce := c.1, firstB := c.2.2 } }
  { s with dict := { s.dict with
    seqInForce := match s.copyInForce with | some x => x.seq | none => 0
    carried := match s.copyInForce with | some x => x.recs.filter (fun r => !knownRec r) | none => [] } }

/-- CFG_DIVERGE with a detail of Table 15.11. -/
def State.cfgDiverge (s : State) (detail : Nat) : State := if detail = 0 then s else s.post { ev 0x0C detail s.curDeal with w2 := s.dict.seqInForce }

/-- The value of one record takes its entry's place (R440). -/
def State.applyRec (s : State) (r : UserRec) : State :=
  if isTableSlot r.index r.sub then
    { s with svis := { s.svis with tables := if r.value = [] then adel (r.sub - 1) s.svis.tables else aset (r.sub - 1) r.value s.svis.tables } }
  else if knownRec r then s.putSetting r.index r.sub (leAll r.value)
  else s

/-- RING_ADDR follows OD 0x1100.01 of the user copy in force; a copy that holds no value of it leaves the straps, its default (R416). -/
def State.syncRingAddr (s : State) : State :=
  match s.copyInForce with
  | none => s
  | some c =>
    let v := (c.recs.find? (fun r => r.index = 0x1100 && r.sub = 1)).map (fun r => leAll r.value)
    let b := s.boot
    match v with
    | some a => if b.ringValid && b.ringAddr = a then s else s.writeBoot { b with ringValid := true, ringAddr := a }
    | none => if b.ringValid then s.writeBoot { b with ringValid := false } else s

/-- At start: the copy in force is chosen, its event posted, its values applied (R440, R444). -/
def State.loadUser (s : State) : State :=
  let s := s.putSettings { s.dict.settings with ringAddr := s.board.hbAddr }
  let s : State := { s with nv := { s.nv with userA := s.nv.userA.filter s.validCopy, userB := s.nv.userB.filter s.validCopy } }
  let c := chooseCopy s.nv.userA s.nv.userB
  let s := (s.takeChoice c).cfgDiverge c.2.1
  let s := match s.copyInForce with | some x => x.recs.foldl State.applyRec s | none => s
  s.syncRingAddr

/-! ## Stores (R444 to R446) -/

/-- A store or restore starts with content `c`. -/
def State.startStore (s : State) (c : UserCopy) : State := { s with dict := { s.dict with storeState := 1, storing := some c } }

/-- STORE's signature (R444, R445, R446); the checks in the order of Table 15.4. -/
def State.storeWrite (s : State) (v : Nat) : WriteRes :=
  if s.dict.storing.isSome then wBusy s
  else if s.dict.seqInForce = 0xFFFFFFFF then wRefused 1 s
  else if v ≠ 0x53544F52 then (0x1B, 0, s)
  else wOk (s.startStore { seq := s.dict.seqInForce + 1, brim := s.brimVersion, recs := s.dict.carried.foldl (fun l r => insertRec r l) s.liveRecs })

/-- RESTORE's signature (R446). -/
def State.restoreWrite (s : State) (v : Nat) : WriteRes :=
  if s.dict.storing.isSome then wBusy s
  else if v ≠ 0x4C4F4144 then (0x1B, 0, s)
  else wOk (s.startStore { seq := 1, brim := s.brimVersion, recs := [] })

/-- STORE_COMPLETE: both copies are written and check, or a write or read-back failed (R444, R445); a copy whose write failed is not valid. -/
def execStoreComplete (firstOk secondOk : Bool) (s : State) : Out :=
  .next <|
    match s.dict.storing with
    | none => s
    | some c =>
      let put := fun (n : Nv) (b : Bool) (v : Option UserCopy) => (if b then { n with userB := v } else { n with userA := v } : Nv)
      let nv := put s.nv s.dict.firstB (if firstOk then some c else none)
      let nv := if firstOk then put nv (!s.dict.firstB) (if secondOk then some c else none) else nv
      let done := firstOk && secondOk
      let s : State := { s with nv := { nv with stores := nv.stores + (if done then 1 else 0) }, dict := { s.dict with storing := none, storeState := if done then 2 else 3 } }
      let choice := chooseCopy s.nv.userA s.nv.userB
      let second := if s.dict.firstB then 1 else 2
      let s := s.takeChoice (if done then (second, 0, s.dict.firstB) else choice)
      (if done then s else s.cfgDiverge 0x93).syncRingAddr

end Sys2Proof.Machine
end

