-- ==== Sys2Proof/Machine/Security.lean ====
section
/-!
DEFINITION. Machine/Security.lean: life-cycle states, debug sessions, signed records, the preparation for Open, life-cycle commands, SPDM and IDE (R470 to R490, R501 to R506, R532, R533).
-/
namespace Sys2Proof.Machine

/-! ## Measurements (OD 0x1400.08, R463, R502) -/

/-- An image as the hub store holds it: its header in the first 4,096 bytes, its body after it (R524). -/
def imageBytes (i : Image) : Bytes := padTo 4096 i.header ++ i.body

/-- Measurement `k`: 1 Crown, 2 Brim, 3 factory layer, 4 user copy in force; one with no subject is 48 zero bytes. -/
def State.measure (s : State) (k : Nat) : Bytes :=
  match k with
  | 1 => digestBytes (Config.sha384 (imageBytes s.nv.crown))
  | 2 => digestBytes (Config.sha384 (imageBytes s.brim))
  | 3 => digestBytes (Config.sha384 (Config.factoryBlob 3))
  | _ => match s.copyInForce with
    | some c => digestBytes (Config.sha384 (copyBytes c))
    | none => List.replicate 48 0

def State.measurements (s : State) : Bytes := [1, 2, 3, 4].flatMap s.measure

/-! ## Levels and sessions (R474 to R478) -/

/-- Start level of a life-cycle state (Table 17.1). -/
def startLevel (lc : Nat) : Nat := if lc = 0 then 2 else if lc = 3 then 1 else 0

/-- A session at `level` with its paths and expiry begins (R475, R478). -/
def State.setLevel (s : State) (level path : Nat) (expiry : Option Nat) : State :=
  { s with sec := { s.sec with level, path, expiry, session := level ≠ baseLevel s.sec.lifeCycle, joinLow := level = 2 && s.keysAllowed } }

/-- SESSION_END with the level that ended, where there is a session (Table 17.10). -/
def State.noteEnd (s : State) : State := if s.sec.session then s.security 0xA4 0 0 s.sec.level 0 else s

/-- The level becomes `level`; leaving Open in Provisioned or Deployed runs the session-end check first (R484, R488). -/
def State.changeLevel (s : State) (level path : Nat) (expiry : Option Nat) (measureOk : Bool) : State :=
  if s.sec.level = 2 && level ≠ 2 && s.keysAllowed then
    (if measureOk then (s.unwrapKeys.noteEnd).setLevel level path expiry else s.checkFail)
  else s.noteEnd.setLevel level path expiry

/-- The session ends: back to the base level (R475, R488). -/
def State.closeDebug (s : State) (measureOk : Bool) : State :=
  if !s.sec.session then s else s.changeLevel (baseLevel s.sec.lifeCycle) 0 none measureOk

/-- END_DEBUG_SESSION's value (R475): with no session it changes nothing; an Open grant still waiting is dropped; during a preparation the session ends once that is complete (Table 17.9). -/
def State.endSessionWrite (s : State) (v : Nat) (measureOk : Bool) : WriteRes :=
  if v ≠ 1 then wRange s
  else if s.sec.preparing then
    wOk { s with sec := { s.sec with openWait := s.sec.openWait.map (fun w => (w.1, s.now)) } }
  else wOk (State.closeDebug { s with sec := { s.sec with openWait := none } } measureOk)

/-- The whole millisecond at which an expiry is tested (R475). -/
def expiryTick (t : Nat) : Nat := (t + 999999999) / 1000000000 * 1000000000

/-- GRANT_EXPIRY: DURATION is over at the whole millisecond at which it is tested (R475). An Open grant that still waits for its boundary took the session's place at its acceptance, so its own DURATION is the one that runs out, and it is dropped (R475, R484). -/
def execGrantExpiry (measureOk : Bool) (s : State) : Out :=
  .next <|
    if s.sec.preparing then s else
    match s.sec.openWait, s.sec.expiry with
    | some w, _ =>
      let s := s.advanceTo (expiryTick w.2)
      State.closeDebug { s with sec := { s.sec with openWait := none } } measureOk
    | none, some t => if s.sec.session then (s.advanceTo (expiryTick t)).closeDebug measureOk else s
    | none, none => s

/-! ## Signed records (Tables 17.2 and 17.3) -/

def parseSigned (kind : Nat) (b : Bytes) : SignedRec :=
  { kind, action := byteAt b 6, seq := le b 0x10 4, duration := le b 0x14 4, path := byteAt b 0x18, meas := (b.drop 0x20).take 48, body := b.take 0xA0, sig := (b.drop 0xA0).take 96 }

/-- rsvd fields of a record (Table 17.2). -/
def signedRsvd (kind : Nat) (b : Bytes) : Bool :=
  nonzero b 0x19 7 || nonzero b 0x50 80 || (kind = 0 && (byteAt b 7 / 32 ≠ 0 || byteAt b 0x18 / 4 ≠ 0))

/-- MAGIC: GRNT, LCMD, CRWN. -/
def signedMagic : Nat → Nat
  | 0 => 0x544E5247
  | 1 => 0x444D434C
  | _ => 0x4E575243

/-- BAD_RECORD of a record of 256 bytes. -/
def signedBad (kind : Nat) (b : Bytes) : Bool :=
  let r := parseSigned kind b
  le b 0 4 ≠ signedMagic kind || le b 4 2 ≠ 1
    || (match kind with
        | 0 => r.action < 1 || 2 < r.action || r.duration < 1 || 86400 < r.duration || r.path = 0
        | 1 => r.action < 1 || 4 < r.action || 2 < byteAt b 7 || r.duration ≠ 0 || r.path ≠ 0
        | _ => r.action ≠ 1 || 2 < byteAt b 7 || r.duration ≠ 0 || r.path ≠ 0)

/-- Table 17.5 lets the action be taken in state `lc`. -/
def actionFrom (action lc : Nat) : Bool :=
  match action with
  | 1 => lc = 0
  | 2 => lc = 1
  | 3 => lc = 2
  | _ => lc ≤ 2

/-- LIFE_CYCLE. -/
def State.signedState (s : State) (kind : Nat) (b : Bytes) : Bool :=
  match kind with
  | 0 => !bit (byteAt b 7) s.sec.lifeCycle
  | 1 => byteAt b 7 ≠ s.sec.lifeCycle || !actionFrom (byteAt b 6) s.sec.lifeCycle
  | _ => byteAt b 7 ≠ s.sec.lifeCycle

/-- A verification, a preparation or a transition is running. -/
def State.securityBusy (s : State) : Bool := s.sec.verifying.isSome || s.sec.preparing || s.sec.command.isSome

/-- The first failing code of stage "Write"; 0 none (Tables 17.3 and 18.6). -/
def State.signedRefusal (s : State) (kind : Nat) (b : Bytes) : Nat :=
  if b.length ≠ 256 || signedBad kind b then 1
  else if le b 8 8 ≠ s.factory.serial then 2
  else if s.signedState kind b then 3
  else if s.securityBusy then 4
  else if kind = 2 && s.nv.stagingState ≠ 4 then 8
  else 0

/-- The write of a signed record is answered from its structural checks; one answered OK waits for its verification (R434, R480, R532). -/
def State.signedWrite (s : State) (kind : Nat) (b : Bytes) : WriteRes :=
  if 2048 < b.length || (kind = 2 && b.length ≠ 256) then wRange s
  else if b.length = 256 && signedRsvd kind b then (0x16, 0, s)
  else if s.power.phase ≠ 0 then wState s
  else if kind = 0 && b = [] && s.sec.lifeCycle = 0 then
    (if s.securityBusy then wRefused 4 s else wOk (s.noteEnd.setLevel 2 3 none))
  else match s.signedRefusal kind b with
    | 0 => wOk { s with sec := { s.sec with verifying := some (parseSigned kind b) } }
    | r => wRefused r s

/-- Header staged at offset 0 (Table 18.4). -/
def State.stagedHeader (s : State) : Bytes := padTo 256 (((aget 0 s.nv.staging).getD []).take 256)

/-- Grant key `k` (OD 0x1400.05, .06), factory data. -/
def grantKey (k : Nat) : Bytes := padTo 97 (Config.factoryBlob (5 + k))

/-- Keys that verify the record: key 0, key 1. -/
def SignedRec.keys (r : SignedRec) : Bool × Bool :=
  let ok := fun k => Config.ecdsaVerify (grantKey k) (Config.sha384 r.body) r.sig
  (ok 0, ok 1)

/-- The first failing code of stage "Verify"; 0 none. -/
def State.verifyRefusal (s : State) (r : SignedRec) : Nat :=
  let k := r.keys
  if !k.1 && !k.2 then 5
  else if r.seq ≤ s.nv.authSeq then 6
  else if r.kind = 2 && r.meas ≠ (s.stagedHeader.drop 0x20).take 48 then 7
  else if r.kind ≠ 2 && r.meas.any (· ≠ 0) && r.meas ≠ s.measure 2 then 7
  else if r.kind = 2 && (!k.1 || bit s.start.auths 0) && (!k.2 || bit s.start.auths 1) then 9
  else 0

/-- An UPDATE event (Table 19.7). -/
def State.update (s : State) (detail version : Nat) (slotB : Bool) : State :=
  s.post { ev 0x0D detail s.curDeal with w2 := version, w3 := boolNat slotB }

/-- A Crown authorisation is accepted; the second arms the copy (R532, R533). -/
def State.authorise (s : State) (key : Nat) : State :=
  let s : State := { s with start := { s.start with auths := if bit s.start.auths key then s.start.auths else s.start.auths + 2 ^ key } }
  if s.start.auths = 3 && s.nv.stagingState = 4 && s.sec.lifeCycle = 1 then
    (s.writeBoot { s.boot with pend := 2 }).update 0xB7 (imageField s.stagedHeader 8) false
  else s

/-- A grant is accepted: at once, or an Open one in Provisioned or Deployed below Open after its preparation (R484). -/
def State.acceptGrant (s : State) (r : SignedRec) (measureOk : Bool) : State :=
  let expiry := s.now + 1000000000000 * r.duration
  let s := State.security { s with sec := { s.sec with lastKey := if r.keys.1 then 0 else 1 } } 0xA0 0 0 r.action 0
  if r.action = 2 && s.keysAllowed && s.sec.level ≠ 2 then { s with sec := { s.sec with openWait := some (r.path, expiry) } }
  else State.changeLevel { s with sec := { s.sec with openWait := none } } r.action r.path (some expiry) measureOk

/-- RECORD_VERIFIED (R481, R482). SAME_KEY has no detail of its own in Table 17.10: the one its event carries is a free value. -/
def execRecordVerified (measureOk : Bool) (s : State) : Out :=
  .next <|
    match s.sec.verifying with
    | none => s
    | some r =>
      let s : State := { s with sec := { s.sec with verifying := none } }
      match s.verifyRefusal r with
      | 0 =>
        let s : State := { s with nv := { s.nv with authSeq := r.seq } }
        match r.kind with
        | 0 => s.acceptGrant r measureOk
        | 1 => { s with sec := { s.sec with command := some r.action } }
        | _ => s.authorise (if r.keys.1 then 0 else 1)
      | 9 =>
        let f := s.takeFree
        f.2.security (f.1.toNat % 256) 0 0 9 0
      | c => s.security (0xA1 + (c - 5)) 0 0 c 0

/-! ## The preparation for Open (R485 to R487, Table 17.4) -/

/-- Steps 4 to 6: queues halted, video sessions abandoned, seats EMPTY, contexts and windows disabled, HBM, Kittys and stores zeroed. -/
def State.scrub (s : State) : State :=
  let s := (s.ldma.filter (fun q => q.2.account.isSome && !q.2.stopped)).foldl (fun s q => s.stopQueue q.1 0x09 0) s
  let s := (s.video.sessions.filter (fun x => x.2.state ≠ 0)).foldl (fun s x => s.shutSession x.1) s
  { s with
    seats := []
    coh := {}
    kitty := { s.kitty with sets := [] }
    svis := { s.svis with
      lost := none
      cores := s.svis.cores.map (fun c => (c.1, { c.2 with store := [], marks := [] }))
      clusters := s.svis.clusters.map (fun c => (c.1, { c.2 with store := [], marks := [] })) }
    mem := { s.mem with
      bytes := s.mem.bytes.filter (fun x => !usableHbm x.1 1), poison := s.mem.poison.filter (fun l => !usableHbm (64 * l) 64), cached := [], windowPending := []
      contexts := s.mem.contexts.map (fun c => (c.1, { c.2 with valid := false }))
      windows := s.mem.windows.map (fun w => (w.1, { w.2 with enable := false })) } }

/-- Steps 1 to 3: dealing stops, the key slots empty, weight-marked lines are zero. -/
def State.prepare (s : State) : State :=
  let s := s.standDown.flushKeys
  let s := State.onDies { s with vault := { s.vault with keys := [] } } 0xFF Core.zeroMarks Cluster.zeroMarks
  { s with
    sec := { s.sec with preparing := true, joinLow := true }
    nv := { s.nv with scrubOwed := s.sec.lifeCycle = 2 } }

/-- OPEN_PREPARATION: a boundary has come for an accepted Open grant; Sleep entry waiting for the same one goes first (R485, Table 17.9). -/
def execOpenPreparation (s : State) : Out :=
  .next <| if s.sec.openWait.isNone || s.sec.preparing || s.power.sleepReq || s.power.phase ≠ 0 || !s.keysAllowed || !s.mayStandDown then s else s.prepare

/-- OPEN_PREPARATION_DONE: in Deployed the scrub is complete too; the Open level takes effect (R484, R485). -/
def execOpenPreparationDone (s : State) : Out :=
  .next <|
    match s.sec.openWait, s.sec.preparing with
    | some (path, expiry), true =>
      let s := if s.sec.lifeCycle = 2 then s.scrub.security 0xA5 0 0 0 0 else s
      let s := s.noteEnd
      State.setLevel { s with sec := { s.sec with openWait := none, preparing := false }, nv := { s.nv with scrubOwed := false } } 2 path (some expiry)
    | _, _ => s

/-! ## Life-cycle commands (R489, R490, Table 17.5) -/

/-- Forms that name an image of the vault are unloaded. -/
def State.unloadImages (s : State) : State :=
  let gone := s.forms.filter (fun f => f.weightImage ≠ 0 && s.nv.images.any (fun i => i.2.id = f.weightImage))
  gone.foldl (fun s f => f.unload.foldl (fun s t => s.complete t 0) (s.dropForm f.id)) s

/-- What RETURN destroys: slots, wrapped keys, images, and forms that name them. A pass in progress fails with LIFE_CYCLE. -/
def State.destroyKeys (s : State) : State :=
  let s := s.unloadImages
  let s := match s.vault.pass with
    | some p => if p.status = 0 && !p.ended then s.failPass p 0x0D else s
    | none => s
  { s with vault := { s.vault with keys := [], keyPending := [] }, nv := { s.nv with wrapped := [], images := [], fuse := 3 } }

/-- The arm and every Crown authorisation are cleared (R533). -/
def State.clearAuths (s : State) : State :=
  let s : State := { s with start := { s.start with auths := 0 } }
  if s.boot.pend = 2 then s.writeBoot { s.boot with pend := 0 } else s

/-- The new state is recorded, its effects follow, the session ends without a check, and the join flag rises again (R489). -/
def State.transit (s : State) (new : Nat) (effects : State → State) : State :=
  let s := s.standDown
  let old := s.sec.lifeCycle
  let refill := s.sec.level = 2 || s.sec.lcBad
  let s : State := { s with nv := { s.nv with lifeCycle := new }, sec := { s.sec with lifeCycle := new, lcBad := false, command := none } }
  let s := effects s
  let s := if refill && s.keysAllowed then s.unwrapKeys else s
  let s := if old = 1 then s.clearAuths else s
  let s := State.setLevel { s.noteEnd with sec := { s.noteEnd.sec with openWait := none, spdm := [] } } (startLevel new) 0 none
  s.security 0xA6 0 0 (old + 256 * new) 0

/-- The command that waits is `action`, and its boundary has come. -/
def State.commandDue (s : State) (action : Nat) : Bool := s.sec.command = some action && s.mayStandDown && !s.sec.preparing

/-- PROVISION: Blank to Provisioned, scrubbed. -/
def execProvision (s : State) : Out := .next (if s.commandDue 1 then s.transit 1 State.scrub else s)

/-- DEPLOY: Provisioned to Deployed. -/
def execDeploy (s : State) : Out := .next (if s.commandDue 2 then s.transit 2 (fun s => s) else s)

/-- UNDEPLOY: Deployed to Provisioned, scrubbed. -/
def execUndeploy (s : State) : Out := .next (if s.commandDue 3 then s.transit 1 State.scrub else s)

/-- RETURN: to Returned, keys and images destroyed, scrubbed. -/
def execReturnCmd (s : State) : Out := .next (if s.commandDue 4 then s.transit 3 (fun s => s.destroyKeys.scrub) else s)

/-! ## Dealer halt and step (R463, R477, R486) -/

/-- Open actions are not to be had while the device deals or prepares. -/
def State.openActionShut (s : State) : Bool := s.dealing || s.sec.preparing

def State.haltWrite (s : State) (v : Nat) : WriteRes :=
  if 1 < v then wRange s else if s.openActionShut then wState s else wOk { s with dealer := { s.dealer with halted := v = 1 } }

def State.stepWrite (s : State) (n : Nat) : WriteRes :=
  if n < 1 || 65535 < n then wRange s
  else if s.openActionShut || !s.dealer.halted then wState s
  else wOk { s with dealer := { s.dealer with stepsDone := s.dealer.stepsDone + n } }

/-! ## SPDM (R501, R502; the codes of messages and errors are those of DSP0274, log entry 13) -/

/-- The responder is served once the Brim serves the device, in Run and in Sleep. -/
def State.spdmUp (s : State) : Bool := (s.start.stage = 1 || s.start.stage = 2 || s.start.stage = 3) && s.sec.lifeCycle ≠ 4

/-- The response to the last request: its code and what follows it. -/
def State.respond (s : State) (code : Nat) (b : Bytes) : State := { s with sec := { s.sec with response := [(code, b)] } }

/-- A response whose bytes another standard fixes. -/
def State.respondMsg (s : State) (code : Nat) : State := State.respond { s with fresh := s.fresh + 1 } code (Config.message code s.fresh)

/-- ERROR with a DSP0274 code: 1 InvalidRequest, 4 UnexpectedRequest, 6 DecryptError, 7 UnsupportedRequest, 0xA SessionLimitExceeded, 2 InvalidSession. -/
def State.spdmError (s : State) (e : Nat) : State := s.respond 0x7F [BitVec.ofNat 8 e]

/-- A request in the phase it needs, else UnexpectedRequest. -/
def State.spdmIn (s : State) (phase : Nat) (f : State → State) : State :=
  if !s.spdmUp then s else if s.sec.spdmPhase < phase then s.spdmError 4 else f s

def State.setPhase (s : State) (n : Nat) : State := { s with sec := { s.sec with spdmPhase := n } }

/-- GET_VERSION: SPDM 1.3; the negotiation starts anew. -/
def execGetVersion (s : State) : Out := .next (s.spdmIn 0 (fun s => (s.setPhase 1).respond 0x04 [0x13]))

/-- GET_CAPABILITIES. -/
def execGetCapabilities (s : State) : Out :=
  .next (s.spdmIn 1 (fun s => if s.sec.spdmPhase ≠ 1 then s.spdmError 4 else (s.setPhase 2).respondMsg 0x61))

/-- NEGOTIATE_ALGORITHMS: of the sets offered, P-384, SHA-384, secp384r1 and AES-256-GCM alone are taken. -/
def execNegotiateAlgorithms (sig hash dhe aead : Nat) (s : State) : Out :=
  .next <| s.spdmIn 2 fun s =>
    if s.sec.spdmPhase ≠ 2 then s.spdmError 4 else
    (s.setPhase 3).respond 0x63 (toLe (if bit sig 7 then 0x80 else 0) 4 ++ toLe (if bit hash 1 then 2 else 0) 4 ++ toLe (if bit dhe 4 then 0x10 else 0) 2 ++ toLe (if bit aead 1 then 2 else 0) 2)

/-- GET_DIGESTS: slot 0's chain alone. -/
def execGetDigests (s : State) : Out := .next (s.spdmIn 3 (fun s => s.respond 0x01 (1 :: digestBytes (Config.sha384 Config.certChain))))

/-- GET_CERTIFICATE: a portion of slot 0's chain. -/
def execGetCertificate (slot offset len : Nat) (s : State) : Out :=
  .next (s.spdmIn 3 (fun s => if slot ≠ 0 || Config.certChain.length < offset then s.spdmError 1 else s.respond 0x02 ((Config.certChain.drop offset).take len)))

/-- CHALLENGE: an answer under the device key. -/
def execChallenge (slot : Nat) (_nonce : Bytes) (s : State) : Out :=
  .next (s.spdmIn 3 (fun s => if slot ≠ 0 then s.spdmError 1 else s.respondMsg 0x03))

/-- Measurement block `k` of R502: 1 to 4 are digests, 5 the raw state value. -/
def State.measureBlock (s : State) (k : Nat) : Bytes :=
  if k = 5 then toLe (s.sec.lifeCycle + 256 * s.sec.level) 4 else s.measure k

/-- GET_MEASUREMENTS: index 0 asks how many, 0xFF for all, 1 to 5 for one. -/
def execGetMeasurements (index : Nat) (s : State) : Out :=
  .next <| s.spdmIn 3 fun s =>
    if index = 0 then s.respond 0x60 [5]
    else if index = 0xFF then s.respond 0x60 ([1, 2, 3, 4, 5].flatMap s.measureBlock)
    else if index ≤ 5 then s.respond 0x60 (s.measureBlock index)
    else s.spdmError 1

def State.spdmSession (s : State) (n : Nat) : Option Spdm := s.sec.spdm.find? (·.id = n)

/-- KEY_EXCHANGE: a fifth session is not to be had. -/
def execKeyExchange (slot : Nat) (s : State) : Out :=
  .next <| s.spdmIn 3 fun s =>
    if slot ≠ 0 then s.spdmError 1
    else if 4 ≤ s.sec.spdm.length then s.spdmError 0x0A
    else State.respondMsg { s with sec := { s.sec with spdm := s.sec.spdm ++ [{ id := s.sec.nextSpdm, state := 1 }], nextSpdm := s.sec.nextSpdm + 1 } } 0x64

/-- A request of an established session. -/
def State.inSession (s : State) (n : Nat) (f : State → State) : State :=
  if !s.spdmUp then s else
  match s.spdmSession n with
  | some x => if x.state = 2 then f s else s.spdmError 4
  | none => s.spdmError 2

/-- FINISH: the handshake completes, or its verification fails and the session is gone. -/
def execFinish (session : Nat) (verifyOk : Bool) (s : State) : Out :=
  .next <|
    if !s.spdmUp then s else
    match s.spdmSession session with
    | some x =>
      if x.state ≠ 1 then s.spdmError 4
      else if verifyOk then
        State.respondMsg { s with sec := { s.sec with spdm := s.sec.spdm.map (fun y => if y.id = session then { y with state := 2 } else y) } } 0x65
      else State.spdmError { s with sec := { s.sec with spdm := s.sec.spdm.filter (·.id ≠ session) } } 6
    | none => s.spdmError 2

/-- KEY_UPDATE. -/
def execKeyUpdate (session : Nat) (s : State) : Out := .next (s.inSession session (fun s => s.respondMsg 0x69))

/-- HEARTBEAT. -/
def execHeartbeat (session : Nat) (s : State) : Out := .next (s.inSession session (fun s => s.respond 0x68 []))

/-- END_SESSION. -/
def execEndSession (session : Nat) (s : State) : Out :=
  .next <| s.inSession session fun s =>
    State.respond { s with sec := { s.sec with spdm := s.sec.spdm.filter (·.id ≠ session) } } 0x6C []

/-! ## PCIe IDE (R504) -/

/-- IDE_INTEGRITY_FAIL: the TLP is dropped, the stream is insecure. -/
def execIdeIntegrityFail (stream : Nat) (s : State) : Out :=
  .next <|
    if s.sec.ideStreams.contains stream then State.security { s with sec := { s.sec with ideBad := sins stream s.sec.ideBad } } 0xAA 0 0 0 0 else s

/-- IDE_KM_REQUEST: over a secured session a stream, the link stream 0 or a selective one 1 to 4, is keyed or started. -/
def execIdeKmRequest (session stream : Nat) (start : Bool) (s : State) : Out :=
  .next <| s.inSession session fun s =>
    if 4 < stream || (start && !s.sec.ideStreams.contains stream) then s.spdmError 1 else
    State.respondMsg { s with sec := { s.sec with
      ideStreams := sins stream s.sec.ideStreams, ideBad := if start then s.sec.ideBad else sdel stream s.sec.ideBad
      ide := if start then 2 else max s.sec.ide 1 } } 0x7E

end Sys2Proof.Machine
end

