-- ==== Sys2Proof/Machine/Start.lean ====
section
/-!
DEFINITION. Machine/Start.lean: the start of a device, staging, firmware update, confirmation and rollback (R507 to R536, R566 to R568, R580).
-/
namespace Sys2Proof.Machine

/-! ## Images (R507, R524) -/

/-- The staging area from offset 0: its pieces, each at its own offset. -/
def stagedBytes (p : List (Nat × Bytes)) : Bytes :=
  (List.range 16).foldl (fun b k => match aget k p with | some v => padTo (1048576 * k) b ++ v | none => b) []

/-- The staged image: header at offset 0, body from offset 4,096. -/
def State.stagedImage (s : State) : Image :=
  let b := stagedBytes s.nv.staging
  { header := padTo 256 b, body := padTo (imageField (padTo 256 b) 0x10) (b.drop 4096) }

/-- SVN of an image header. -/
def svn (h : Bytes) : Nat := imageField h 0x14

/-- Staging is emptied (R513). -/
def Nv.emptyStaging (n : Nv) : Nv := { n with staging := [], stagingState := 0, rescueStaged := false }

/-! ## ROM and Crown (R512 to R515) -/

/-- What the ROM or the Crown decided. -/
inductive BootPath where
  | brim | rescue | lamed
deriving DecidableEq, Repr

/-- The ROM's part of R513: the boot record, the hub store, and whether the device goes on. -/
def romBoot (ck : BootChecks) (b : Boot) (n : Nv) (img : Image) : Boot × Nv × Bool :=
  if b.crownCopy then
    (if ck.crownOk && ck.crownMatchesStaged then ({ b with crownCopy := false, pend := 0 }, n.emptyStaging, true) else (b, n, false))
  else if b.pend = 2 then
    if n.lifeCycle = 1 && n.fuse = 0 && ck.stagedOk && b.crownFloor ≤ svn img.header then
      if ck.copyOk then ({ b with crownCopy := false, pend := 0, crownFloor := svn img.header, last := 0xB8 }, Nv.emptyStaging { n with crown := img }, true)
      else ({ b with crownCopy := true }, n, false)
    else ({ b with pend := 0, last := 0xB2 }, n, ck.crownOk)
  else (b, n, ck.crownOk)

def Boot.slot (b : Boot) (isB : Bool) : Nat := if isB then b.slotB else b.slotA
def Boot.setSlot (b : Boot) (isB : Bool) (v : Nat) : Boot := if isB then { b with slotB := v } else { b with slotA := v }
def Nv.setSlot (n : Nv) (isB : Bool) (i : Image) : Nv := if isB then { n with slotB := i } else { n with slotA := i }

/-- The record of R512, when neither copy is valid. -/
def freshBoot (ck : BootChecks) : Boot :=
  let useB := !ck.slotAOk && ck.slotBOk
  { seq := 0, activeB := useB, slotA := if ck.slotAOk then 1 else 0, slotB := if useB then 1 else 0, last := 0xB9 }

/-- A pending Brim copy (R513, R515): the record, the store, and whether slot A and slot B verify from then on. -/
def crownCopies (ck : BootChecks) (b : Boot) (n : Nv) (img : Image) : Boot × Nv × Bool × Bool :=
  let ok := (ck.slotAOk, ck.slotBOk)
  if b.pend ≠ 1 then (b, n, ok) else
  let t := if n.rescueStaged then false else !b.activeB
  let (b, n, ok) : Boot × Nv × Bool × Bool :=
    if ck.stagedOk && b.brimFloor ≤ svn img.header then
      if ck.copyOk then (Boot.setSlot { b with activeB := t, tried := false, last := 0xB1 } t 2, n.setSlot t img, if t then (ok.1, true) else (true, ok.2))
      else (Boot.setSlot { b with last := 0xB2 } t 0, n, if t then (ok.1, false) else (false, ok.2))
    else ({ b with last := 0xB2 }, n, ok)
  ({ b with pend := 0 }, n.emptyStaging, ok)

/-- A trial already tried falls back; a first trial is marked tried (R513). -/
def crownTrial (b : Boot) : Boot :=
  if b.slot b.activeB ≠ 2 then b
  else if b.tried then Boot.setSlot { b with activeB := !b.activeB, last := 0xB5 } b.activeB 3
  else { b with tried := true }

/-- The Crown's part of R513. -/
def crownBoot (ck : BootChecks) (b : Boot) (n : Nv) (img : Image) : Boot × Nv × BootPath :=
  let (b, n, ok) := crownCopies ck b n img
  let b := crownTrial b
  let verifies := fun isB => if isB then ok.2 else ok.1
  if verifies b.activeB then (b, n, .brim)
  else if b.slot (!b.activeB) = 1 && verifies (!b.activeB) then (Boot.setSlot { b with activeB := !b.activeB, last := 0xB5 } b.activeB 3, n, .brim)
  else (b, n, .rescue)

/-- Staging states at start (R526). -/
def Nv.stagingAtStart (n : Nv) : Nv := if n.stagingState = 2 || n.stagingState = 4 || n.stagingState = 5 then { n with stagingState := 1 } else n

/-- Into Lamed: the fuse is blown and nothing more is written (R514). -/
def State.enterLamed (s : State) : State := { s with nv := { s.nv with fuse := 4 }, sec := { s.sec with lifeCycle := 4 }, start := { s.start with up := true } }

/-- Rescue: the Crown serves 0x1000 and the update entries, and deals nothing (R515). -/
def State.enterRescue (s : State) : State :=
  State.update { s with start := { s.start with up := true, stage := 4, outcome := 0 }, sec := { s.sec with lifeCycle := if s.nv.fuse = 3 then 3 else s.nv.lifeCycle } } 0xBA 0 s.boot.activeB

/-- RESET_RELEASE: straps sampled, rails checked, then the ROM and the Crown (R513, R568, R580). -/
def execResetRelease (st : Straps) (ck : BootChecks) (s : State) : Out :=
  .next <|
    if s.start.up || s.start.railFault then s else
    let s : State := { s with board := { s.board with bankerEn := st.bankerEn, hbAddr := st.hbAddr % 32 } }
    if !st.railsOk then { s with start := { s.start with railFault := true } } else
    let boot := s.bootRec
    let ringAddr := match boot with | some b => if b.ringValid then b.ringAddr else st.hbAddr % 32 | none => st.hbAddr % 32
    let s : State := { s with board := { s.board with hbAlive := true }, hb := { s.hb with addr := ringAddr } }
    if s.nv.fuse = 4 then { s with sec := { s.sec with lifeCycle := 4 }, start := { s.start with up := true } } else
    let img := s.stagedImage
    let (b, n, alive) := romBoot ck s.boot s.nv img
    if !alive then
      -- CROWN_COPY set before a copy that failed stands in the record
      State.enterLamed (if boot.isSome && b.crownCopy && !s.boot.crownCopy then s.writeBoot b else s)
    else
      let b := if boot.isSome then b else freshBoot ck
      let (b, n, path) := crownBoot ck b n img
      let s := State.writeBoot { s with nv := n.stagingAtStart } b
      if path = .rescue then s.enterRescue else
      let copy := (if boot.any (·.pend = 1) then 110000000000 else 0) + (if boot.any (fun x => x.pend = 2 || x.crownCopy) then 25000000000 else 0)
      { s with start := { s.start with up := true, runB := b.activeB, trial := b.slot b.activeB = 2, boundPs := s.start.boundPs + copy } }

/-! ## The Brim's start (R509, R510, R516 to R522, R528) -/

/-- A start check failed on a trial Brim: SELF_CHECK and a firmware reset (R528). -/
def State.selfCheckFail (s : State) : State := (s.update 0xB4 s.brimVersion s.start.runB).reboot 3

/-- The field map of the newer copy that is whole (R510); none when neither is. -/
def fieldAtStart (ck : NvChecks) (n : Nv) : Option RepairMap :=
  let newOk := if n.newerX then ck.fieldXOk else ck.fieldYOk
  let oldOk := if n.newerX then ck.fieldYOk else ck.fieldXOk
  if newOk then some n.field else if oldOk then some n.fieldOld else none

/-- The life-cycle state, level and session at start (R471, R474, R475, Table 17.8). -/
def State.startSecurity (s : State) (lifeOk : Bool) : State :=
  let lc := if s.nv.fuse = 3 then 3 else if lifeOk then s.nv.lifeCycle else 2
  let s := State.setLevel { s with sec := { s.sec with lifeCycle := lc, lcBad := !lifeOk } } (startLevel lc) (if lc = 0 then 3 else 0) none
  if lifeOk then s else s.security 0xA7 0 0 0 0

/-- Effects still outstanding are completed before the dictionary is served (R487, R490, R518); the seats and HBM a scrub empties are empty already. -/
def State.completeEffects (s : State) : State :=
  let owed := s.nv.scrubOwed || (s.sec.lifeCycle = 3 && s.nv.wrapped ≠ [])
  let s : State := if owed then { s with start := { s.start with boundPs := s.start.boundPs + 50000000000 } } else s
  let s : State := if s.nv.scrubOwed then State.security { s with nv := { s.nv with scrubOwed := false } } 0xA5 0 0 0 0 else s
  if s.sec.lifeCycle = 3 then { s with nv := { s.nv with wrapped := [] } } else s

/-- HATBAND_READY: the records are checked and the Brim takes the ring, or a factory record keeps the device unseated (R509, R516). -/
def execHatbandReady (nv : NvChecks) (s : State) : Out :=
  .next <|
    if !s.start.up || s.start.stage ≠ 0 || s.start.factoryBad || s.sec.lifeCycle = 4 then s
    else if !nv.factoryOk then
      (if s.start.trial then s.selfCheckFail else { s with start := { s.start with factoryBad := true } })
    else
      let field := fieldAtStart nv s.nv
      let s := s.startSecurity nv.lifeOk
      let s := s.completeEffects.loadUser
      let s : State := { s with nv := { s.nv with field := field.getD {} }, start := { s.start with stage := 1, readyPs := s.now } }
      if field.isSome then s else s.update 0xBB s.brimVersion s.start.runB

/-- HBM training or the vault mount failed: reset on trial, else held below Run-ready (R521, R528). -/
def State.startFailed (s : State) (cause : Nat) : State :=
  if s.start.trial then s.selfCheckFail
  else if s.start.stage = 3 then s
  else State.update { s with start := { s.start with stage := 3, heldCause := cause } } 0xBC s.brimVersion s.start.runB

/-- The Brim is starting: Hatband-ready, and not Run-ready. -/
def State.starting (s : State) : Bool := s.start.stage = 1 || s.start.stage = 3

/-- HBM_TRAINED (Table 18.3). -/
def execHbmTrained (ok : Bool) (s : State) : Out :=
  .next <|
    if !s.starting || s.start.hbm then s
    else if ok then { s with start := { s.start with hbm := true } } else s.startFailed 1

/-- VAULT_MOUNTED: keys unwrapped, WRITING entries deleted (R283, R296). -/
def execVaultMounted (ok : Bool) (s : State) : Out :=
  .next <|
    if !s.starting || s.start.vault then s
    else if ok then
      let s := s.unwrapKeys
      { s with start := { s.start with vault := true }, nv := { s.nv with images := s.nv.images.filter (fun i => i.2.state ≠ 1) } }
    else s.startFailed 2

/-- A Brim on trial has missed its Run-ready bound (R521, R528). -/
def State.boundMissed (s : State) : Bool := s.start.trial && decide (s.start.boundPs < s.now)

/-- RUN_READY: seats and sheets are accepted; the links train; the outcome LAST names is posted (R361, R516, R522). A trial Brim that is later than its bound resets instead (R521, R528); it is judged when it would become Run-ready (DESIGN CHOICE, log entry 105). -/
def execRunReady (s : State) : Out :=
  .next <|
    if s.start.stage ≠ 1 || !s.start.bist || !s.start.hbm || !s.start.vault then s
    else if s.boundMissed then s.selfCheckFail else
    let last := s.boot.last
    let s := State.trainLinks { s with start := { s.start with stage := 2, outcome := last } }
    if last = 0 then s else
    let s := s.update last (if last = 0xB8 then imageField s.nv.crown.header 8 else s.brimVersion) s.start.runB
    s.writeBoot { s.boot with last := 0 }

/-! ## Staging (R523 to R526, R529) -/

/-- What a piece write and a DISCARD share: authorisations and a PENDING copy are cleared (R523, R525). -/
def State.clearStaged (s : State) : State :=
  let s : State := { s with start := { s.start with auths := 0 }, nv := { s.nv with rescueStaged := false } }
  if s.boot.pend ≠ 0 then s.writeBoot { s.boot with pend := 0 } else s

/-- A staging piece's value (R523). -/
def State.pieceWrite (s : State) (k : Nat) (v : Bytes) : WriteRes :=
  if 1048576 < v.length then wRange s
  else wOk (State.clearStaged { s with nv := { s.nv with staging := aset k v s.nv.staging, stagingState := 1 } })

/-- CHECK (1) or DISCARD (2) (R525). -/
def State.checkWrite (s : State) (v : Nat) : WriteRes :=
  if v < 1 || 2 < v then wRange s
  else if s.nv.stagingState = 2 then wBusy s
  else if v = 1 then wOk { s with nv := { s.nv with stagingState := 2 } }
  else wOk (State.clearStaged { s with nv := { s.nv with staging := [], stagingState := 0 } })

/-- The first failing code of Table 18.5; 0 none. -/
def State.stageRefusal (s : State) (signatureOk orphan : Bool) : Nat :=
  let b := stagedBytes s.nv.staging
  let h := padTo 256 b
  let kind := byteAt h 6
  let n := imageField h 0x10
  let crown := kind = 2
  let max := if crown then 2093056 else 12578816
  if le h 0 4 ≠ 0x4D495746 || le h 4 2 ≠ 1 || kind < 1 || 2 < kind || nonzero h 7 1 || nonzero h 0x18 8 || nonzero h 0x50 80 || nonzero b 0x100 3840 then 1
  else if n % 4096 ≠ 0 || n < 4096 || max < n then 2
  else if digestBytes (Config.sha384 (padTo n (b.drop 4096))) ≠ (h.drop 0x20).take 48 then 3
  else if !signatureOk then 4
  else if svn h < (if crown then s.boot.crownFloor else s.boot.brimFloor) then 5
  else if !crown && imageField s.nv.crown.header 8 < imageField h 0xC then 6
  else if crown && s.sec.lifeCycle ≠ 1 then 7
  else if crown && orphan then 8
  else if !crown && s.start.trial then 9
  else 0

/-- CHECK_COMPLETE: BAD with its code, or READY with UPDATE STAGED; a Brim is PENDING from then on (R525). -/
def execCheckComplete (signatureOk orphan : Bool) (s : State) : Out :=
  .next <|
    if s.nv.stagingState ≠ 2 then s else
    match s.stageRefusal signatureOk orphan with
    | 0 =>
      let h := s.stagedHeader
      let crown := byteAt h 6 = 2
      let s : State := { s with nv := { s.nv with stagingState := if crown then 4 else 3, rescueStaged := !crown && s.start.stage = 4 } }
      let s := if crown then s else s.writeBoot { s.boot with pend := 1 }
      s.update 0xB0 (imageField h 8) (if crown then false else if s.nv.rescueStaged then false else !s.boot.activeB)
    | c => { s with nv := { s.nv with stagingState := 5 }, start := { s.start with refusal := c } }

/-! ## Confirmation, rollback, firmware reset (R527 to R531) -/

/-- OD 0x1500.1A: COMMIT events of deals since reset (R527). -/
def State.confirmDeals (s : State) : Nat := s.dealer.committedDeals + s.dealer.idleDeals

/-- BRIM_CONFIRM: a trial Brim that is Run-ready, has posted COMMIT for 100 deals and has run for 30 s (R527). -/
def execBrimConfirm (s : State) : Out :=
  .next <|
    if !s.start.trial || s.start.stage ≠ 2 || s.confirmDeals < 100 then s else
    let s := s.advanceTo 30000000000000
    let b := s.boot
    let s := s.writeBoot (Boot.setSlot { b with tried := false, brimFloor := max b.brimFloor (svn s.brim.header) } s.start.runB 1)
    State.update { s with start := { s.start with trial := false } } 0xB3 s.brimVersion s.start.runB

/-- ROLLBACK's signature (R530); `verifies` is the check of the other slot's image. -/
def State.rollbackWrite (s : State) (v : Nat) (verifies : Bool) : WriteRes :=
  let b := s.boot
  let other := !s.start.runB
  let img := if other then s.nv.slotB else s.nv.slotA
  if b.slot other ≠ 1 || !verifies || svn img.header < b.brimFloor then wRefused 1 s
  else if v ≠ 0x4B434252 then (0x1B, 0, s)
  else
    let b := if s.start.trial then b.setSlot s.start.runB 3 else b
    wOk (s.writeBoot { b with activeB := other, tried := false, last := 0xB6 })

/-- FIRMWARE_RESET's signature: at once, or at the first boundary with no re-deal pending (R531). -/
def State.resetWrite (s : State) (v : Nat) : WriteRes :=
  if v ≠ 0x54455352 then (0x1B, 0, s)
  else if s.atBoundary then wOk (s.reboot 3)
  else wOk { s with start := { s.start with resetReq := true } }

end Sys2Proof.Machine
end

