-- ==== Sys2Proof/Machine/Dict.lean ====
section
/-!
DEFINITION. Machine/Dict.lean: the object dictionary: its entries, who may use them, their values, and one access through the intake (R426 to R439, R451, R454 to R458, R595, Tables 15.1 to 15.4, 16.2 to 16.9, 18.11).
-/
namespace Sys2Proof.Machine

/-! ## Entries (Tables 2.7, 3.13, 4.7, 6.7, 8.6, 9.12, 10.8, 11.10, 12.8, 13.9, 14.11, 15.12, 16.4 to 16.9, 18.10, with the marks of Table 16.2) -/

/-- Table 15.2. -/
inductive OdAcc where
  | ro | rw | wo | rwn | const
deriving DecidableEq, Repr

/-- Who may write, where the default of Table 15.3 does not hold. -/
inductive OdMask where
  | all | pf0Bmc | banker | pf0 | grant | openDebug
deriving DecidableEq, Repr

/-- An entry: its type (Table 15.1), access, greatest length for STR, BLOB and DOMAIN, and marks (R455). -/
structure OdEntry where
  type : Nat
  acc : OdAcc
  max : Nat := 0
  mask : OdMask := .all
  slow : Bool := false
  debug : Bool := false
deriving DecidableEq, Repr

/-- Width of a fixed type; 0 for STR, BLOB and DOMAIN. -/
def typeWidth : Nat → Nat
  | 1 => 1
  | 2 => 1
  | 3 => 2
  | 4 => 4
  | 5 => 8
  | 6 => 4
  | 7 => 4
  | _ => 0

def odRo (t : Nat) : Option OdEntry := some { type := t, acc := .ro }
def odConst (t : Nat) : Option OdEntry := some { type := t, acc := .const }
def odRwn (t : Nat) : Option OdEntry := some { type := t, acc := .rwn }
def odBlob (acc : OdAcc) (max : Nat) : Option OdEntry := some { type := 9, acc, max }
/-- WO with a mask. -/
def odWo (t : Nat) (mask : OdMask) (max : Nat := 0) : Option OdEntry := some { type := t, acc := .wo, max, mask }

/-- Bytes of the maps at OD 0x2000.15 and .16. -/
def mapBytes : Nat := 278592

/-- Table 16.4. -/
def od1000 : Nat → Option OdEntry
  | 0x01 => some { type := 8, acc := .const, max := 16 }
  | 0x02 => some { type := 8, acc := .const, max := 16 }
  | 0x03 => odConst 5
  | 0x04 => odConst 4
  | 0x05 => odRo 2
  | 0x06 => odRo 4
  | 0x07 => odRo 4
  | 0x08 => odRo 2
  | 0x09 => some { type := 9, acc := .ro, max := 8192, slow := true }
  | 0x0A => odRo 5
  | 0x0B => odRo 2
  | _ => none

/-- Table 14.11. -/
def od1100 : Nat → Option OdEntry
  | 0x01 => odRwn 2
  | 0x02 => odRo 2
  | 0x03 => odConst 3
  | 0x04 => odRwn 2
  | 0x05 => odRo 4
  | 0x06 => odRo 2
  | 0x07 => odBlob .ro 32
  | 0x08 => odRo 4
  | 0x09 => odRo 4
  | 0x0A => odRo 4
  | 0x0B => odRo 4
  | 0x0C => odRo 4
  | 0x0D => odRo 6
  | 0x0E => odRo 4
  | _ => none

/-- Table 2.7. -/
def od1200 : Nat → Option OdEntry
  | 0x01 => odRo 5
  | 0x02 => odRo 4
  | 0x03 => odRo 3
  | 0x04 => odRo 2
  | 0x05 => odConst 2
  | 0x06 => odConst 3
  | 0x07 => some { type := 3, acc := .rwn, mask := .pf0Bmc }
  | 0x08 => odRo 4
  | 0x09 => odRo 4
  | 0x0A => odRo 3
  | 0x0B => odRo 2
  | 0x0C => odRo 4
  | _ => none

/-- Table 16.5. -/
def od1300 (sub : Nat) : Option OdEntry :=
  if 0x10 ≤ sub && sub ≤ 0x18 then odRo 7 else
  match sub with
  | 0x01 => odWo 2 .pf0Bmc
  | 0x02 => odRo 2
  | 0x03 => odConst 3
  | 0x04 => odConst 3
  | 0x05 => odConst 3
  | 0x06 => odRo 7
  | 0x07 => odRo 4
  | 0x08 => odRo 5
  | 0x09 => odRo 2
  | 0x20 => odRwn 7
  | 0x21 => odRwn 7
  | 0x22 => odRwn 3
  | 0x23 => odRwn 2
  | 0x24 => odRwn 3
  | 0x25 => odConst 7
  | 0x26 => some { type := 9, acc := .const, max := 4096, slow := true }
  | _ => none

/-- Table 16.6. -/
def od1400 : Nat → Option OdEntry
  | 0x01 => odWo 10 .pf0Bmc 2048
  | 0x02 => odWo 10 .grant 2048
  | 0x03 => odWo 2 .grant
  | 0x04 => odRo 2
  | 0x05 => odBlob .const 97
  | 0x06 => odBlob .const 97
  | 0x07 => odRo 2
  | 0x08 => odBlob .ro 192
  | 0x09 => odRo 2
  | 0x0A => odRo 4
  | 0x0B => some { type := 2, acc := .rw, debug := true }
  | 0x0C => some { type := 4, acc := .wo, debug := true }
  | _ => none

/-- Tables 15.12 and 18.10. -/
def od1500 (sub : Nat) : Option OdEntry :=
  if 0x20 ≤ sub && sub ≤ 0x2F then odWo 10 .pf0Bmc 1048576 else
  match sub with
  | 0x01 => odWo 4 .pf0Bmc
  | 0x02 => odRo 2
  | 0x03 => odWo 4 .pf0Bmc
  | 0x04 => odRo 2
  | 0x05 => odRo 4
  | 0x06 => odRo 2
  | 0x07 => odRo 4
  | 0x08 => odRo 4
  | 0x10 => odRo 2
  | 0x11 => odWo 2 .pf0Bmc
  | 0x12 => odRo 2
  | 0x13 => odBlob .ro 256
  | 0x14 => odWo 10 .pf0Bmc 256
  | 0x15 => odRo 2
  | 0x16 => odBlob .ro 64
  | 0x17 => odBlob .ro 256
  | 0x18 => odBlob .ro 256
  | 0x19 => odWo 4 .pf0Bmc
  | 0x1A => odRo 4
  | 0x1B => odRo 2
  | 0x1C => odRo 2
  | 0x1D => odRo 2
  | 0x1E => odWo 4 .pf0Bmc
  | _ => none

/-- Tables 4.7, 6.7 and 12.8. -/
def od2000 : Nat → Option OdEntry
  | 0x01 => odRo 2
  | 0x02 => odRo 4
  | 0x03 => odRo 4
  | 0x04 => odRo 2
  | 0x05 => odRo 5
  | 0x06 => odRo 5
  | 0x07 => odRo 5
  | 0x08 => odRo 5
  | 0x09 => odRo 4
  | 0x0A => odRo 4
  | 0x0B => odRo 5
  | 0x0C => odRo 4
  | 0x0D => odRo 2
  | 0x0E => odRo 5
  | 0x0F => odRo 5
  | 0x10 => odRo 5
  | 0x11 => odRo 4
  | 0x12 => odRo 4
  | 0x13 => odRwn 4
  | 0x14 => odRo 2
  | 0x15 => some { type := 9, acc := .ro, max := mapBytes, slow := true }
  | 0x16 => some { type := 9, acc := .const, max := mapBytes, slow := true }
  | 0x17 => odRo 6
  | 0x18 => odRo 2
  | _ => none

/-- Table 9.12. -/
def od2100 : Nat → Option OdEntry
  | 0x01 => odConst 4
  | 0x02 => odRo 5
  | 0x03 => odRo 5
  | 0x04 => odRo 5
  | 0x05 => odRo 4
  | 0x06 => odRo 5
  | 0x07 => odRo 4
  | _ => none

/-- Table 16.7. -/
def od2200 (sub : Nat) : Option OdEntry :=
  if 0x10 ≤ sub && sub ≤ 0x16 then odRo 5 else
  match sub with
  | 0x01 => odRo 3
  | 0x02 => odRo 2
  | 0x03 => odRo 4
  | 0x04 => odRo 4
  | 0x05 => odRo 3
  | 0x06 => odBlob .ro 2048
  | 0x07 => odRo 4
  | 0x08 => odRo 5
  | 0x09 => odRo 5
  | 0x0A => odRo 5
  | 0x0B => odRo 5
  | 0x0C => odRo 5
  | 0x0D => odConst 4
  | 0x0E => odConst 3
  | 0x17 => odWo 2 .pf0Bmc
  | _ => none

/-- Table 10.8. -/
def od2300 (sub : Nat) : Option OdEntry :=
  if 1 ≤ sub && sub ≤ 8 then odRo 4
  else if 0x10 ≤ sub && sub ≤ 0x1F then odRo 4
  else match sub with
  | 0x09 => odWo 10 .pf0 40
  | 0x0A => odWo 2 .pf0Bmc
  | 0x0B => odRo 2
  | 0x20 => odRo 5
  | 0x21 => odRo 5
  | 0x22 => odRo 5
  | 0x23 => odRo 2
  | 0x24 => odRo 2
  | 0x25 => odRwn 2
  | _ => none

/-- Table 11.10. -/
def od2400 (sub : Nat) : Option OdEntry :=
  if 3 ≤ sub && sub ≤ 6 then odRo 2
  else if 7 ≤ sub && sub ≤ 0x0E then odRo 5
  else match sub with
  | 0x01 => odConst 2
  | 0x02 => odConst 4
  | 0x0F => odRo 2
  | 0x10 => odRo 5
  | 0x11 => odRo 5
  | 0x12 => odRo 4
  | _ => none

/-- Table 13.9. -/
def od2500 (sub : Nat) : Option OdEntry :=
  if 0x20 ≤ sub && sub ≤ 0x27 then odRo 2
  else if 0x28 ≤ sub && sub ≤ 0x2F then odRo 4
  else if 0x30 ≤ sub && sub ≤ 0x37 then odRo 5
  else if 0x38 ≤ sub && sub ≤ 0x3F then odRo 4
  else match sub with
  | 0x01 => odRwn 2
  | 0x02 => odRwn 2
  | 0x03 => odWo 2 .pf0Bmc
  | 0x04 => odRo 2
  | 0x05 => odRwn 2
  | 0x06 => odRwn 2
  | 0x07 => odRwn 4
  | 0x08 => odRwn 2
  | 0x09 => odWo 5 .banker
  | 0x0A => odRwn 2
  | 0x0B => odRo 2
  | 0x10 => odWo 10 .pf0Bmc 64
  | 0x11 => odBlob .ro 64
  | _ => none

/-- Table 8.6. -/
def od2600 (sub : Nat) : Option OdEntry :=
  if 1 ≤ sub && sub ≤ 0x20 then some { type := 9, acc := .rwn, max := 3136, mask := .pf0Bmc, slow := true }
  else if 0x40 ≤ sub && sub ≤ 0x45 then odBlob .const 3136
  else match sub with
  | 0x21 => odRo 4
  | 0x22 => odRo 4
  | 0x23 => odRo 4
  | 0x24 => odRo 2
  | _ => none

/-- Table 3.13. -/
def odAcct (sub : Nat) : Option OdEntry :=
  if 1 ≤ sub && sub ≤ 7 then odRo 5
  else match sub with
  | 0x08 => some { type := 4, acc := .rwn, mask := .pf0Bmc }
  | 0x09 => odWo 2 .pf0Bmc
  | _ => none

/-- Table 16.9. -/
def od4000 : Nat → Option OdEntry
  | 0x01 => odRo 4
  | 0x02 => odRo 4
  | 0x03 => odRo 5
  | 0x04 => odBlob .ro 524288
  | 0x05 => odWo 2 .openDebug
  | 0x06 => some { type := 9, acc := .ro, max := 8192, slow := true }
  | _ => none

/-- Highest subindex of an index (Table 16.3, R536); none where the index has no entry. -/
def highSub (index : Nat) : Option Nat :=
  if 0x3000 ≤ index && index ≤ 0x3FFF then some 0x09
  else if 0x2401 ≤ index && index ≤ 0x2404 then some 0x40
  else match index with
  | 0x1000 => some 0x0B
  | 0x1100 => some 0x0E
  | 0x1200 => some 0x0C
  | 0x1300 => some 0x26
  | 0x1400 => some 0x0C
  | 0x1500 => some 0x2F
  | 0x2000 => some 0x18
  | 0x2100 => some 0x07
  | 0x2101 => some 0x80
  | 0x2200 => some 0x17
  | 0x2201 => some 0x01
  | 0x2300 => some 0x25
  | 0x2301 => some 0x40
  | 0x2400 => some 0x12
  | 0x2500 => some 0x3F
  | 0x2600 => some 0x45
  | 0x4000 => some 0x06
  | _ => none

/-- The entry at index.sub (R426, R454). -/
def odEntry (index sub : Nat) : Option OdEntry :=
  if sub = 0 then (highSub index).bind (fun _ => odRo 2)
  else if 0x3000 ≤ index && index ≤ 0x3FFF then odAcct sub
  else if 0x2401 ≤ index && index ≤ 0x2404 then (if sub ≤ 0x40 then some { type := 9, acc := .rw, max := 16, mask := .pf0Bmc } else none)
  else match index with
  | 0x1000 => od1000 sub
  | 0x1100 => od1100 sub
  | 0x1200 => od1200 sub
  | 0x1300 => od1300 sub
  | 0x1400 => od1400 sub
  | 0x1500 => od1500 sub
  | 0x2000 => od2000 sub
  | 0x2100 => od2100 sub
  | 0x2101 => if sub ≤ 0x80 then some { type := 9, acc := .rw, max := 32, mask := .pf0Bmc } else none
  | 0x2200 => od2200 sub
  | 0x2201 => if sub = 1 then some { type := 9, acc := .rw, max := 4096, mask := .pf0Bmc } else none
  | 0x2300 => od2300 sub
  | 0x2301 => if sub ≤ 0x40 then odBlob .ro 96 else none
  | 0x2400 => od2400 sub
  | 0x2500 => od2500 sub
  | 0x2600 => od2600 sub
  | 0x4000 => od4000 sub
  | _ => none

/-! ## Classes and rights (R430, R431, R476, Table 15.3) -/

/-- A requester class; a Debug class has the level of its path. -/
inductive OdClass where
  | banker | bmc | pf0
  | vf (f : Nat)
  | debug (level : Nat)
deriving DecidableEq, Repr

/-- Debug level of a path: that of the session where the grant's PATH names it (bit 0 TAP, bit 1 Hatband), else the base level (R476). -/
def State.debugLevel (s : State) (pathBit : Nat) : Nat := if bit s.sec.path pathBit then s.sec.level else baseLevel s.sec.lifeCycle

/-- The class of a path (R430); the ring's CLASS field: 0 Banker, 1 BMC, 2 Host, 3 Debug. -/
def State.classOf (s : State) : Path → OdClass
  | .ring _ cls _ => match cls with
    | 0 => .banker
    | 1 => .bmc
    | 2 => .pf0
    | _ => .debug (s.debugLevel 1)
  | .mirror fn _ => if fn = 0 then .pf0 else .vf fn
  | .secured _ => .pf0
  | .tap => .debug (s.debugLevel 0)
  | .self => .banker

/-- The requester of staging buffers and snapshots (R436). -/
def requester : Path → Requester
  | .ring _ cls caller => .ring caller cls
  | .mirror fn slot => .mirror fn slot
  | .secured n => .secured n
  | .tap => .tap
  | .self => .self

/-- Segment unit of a path (R436); a secured request is laid out as a mirror slot. -/
def segUnit : Path → Nat
  | .ring _ _ _ => 32
  | _ => 4096

/-- The class may read the entry. -/
def State.mayRead (s : State) (c : OdClass) (e : OdEntry) (index sub : Nat) : Bool :=
  match c with
  | .vf f => index = 0x1000 || (0x3000 ≤ index && index ≤ 0x3FFF && 1 ≤ sub && sub ≤ 7 && s.boundFn (index - 0x3000) = f)
  | .debug 0 => index = 0x1000
  | .debug n => !e.debug || n = 2
  | _ => !e.debug

/-- The class may write the entry. -/
def mayWrite (c : OdClass) (e : OdEntry) : Bool :=
  match c with
  | .banker => e.mask = .banker
  | .bmc => !e.debug && e.mask ≠ .banker && e.mask ≠ .pf0
  | .pf0 => !e.debug && e.mask ≠ .banker
  | .vf _ => false
  | .debug n => e.mask = .grant || (n = 2 && (e.mask = .all || e.mask = .openDebug))

def OdEntry.readable (e : OdEntry) : Bool := e.acc ≠ .wo
def OdEntry.writable (e : OdEntry) : Bool := e.acc = .rw || e.acc = .wo || e.acc = .rwn

/-- The entry's unit is served (R595, Table 18.11; in rescue R515). -/
def State.served (s : State) (index sub : Nat) : Bool :=
  let st := s.start
  if st.stage = 4 then index = 0x1000 || (index = 0x1500 && 0x10 ≤ sub)
  else if index = 0x2000 then st.bist
  else if index = 0x2100 || index = 0x2101 then st.hbm
  else if index = 0x2300 || index = 0x2301 then st.vault
  else if index = 0x2200 || (0x2400 ≤ index && index ≤ 0x2404) || index = 0x2600 then st.stage = 2
  else true

/-! ## Values -/

/-- A temperature of `t` tenths of a degree as a binary32 pattern, rounded to nearest, held in 0.0 to 125.0. -/
def f32Tenths (t : Int) : Nat :=
  let t := min t.toNat 1250
  if t = 0 then 0 else
  let k := lead (t * 2 ^ 40 / 10)
  let m := (2 * (t * 2 ^ (63 - k)) + 10) / 20
  (127 + k - 40) * 2 ^ 23 + (m - 2 ^ 23)

/-- Tj (OD 0x1300.06): the hottest reading, or STRETCH_ON + 1.0 while every sensor of a die has failed (R469). -/
def State.tj (s : State) : Nat :=
  if s.power.blind ≠ [] then fp32.encode 0 false ((fp32.decode s.dict.settings.stretchOn.toNat).add false (Num.ofInt 1))
  else match hottest s.power.temps with | some t => f32Tenths t | none => 0

def cadCode : CadState → Nat
  | .unlocked => 0
  | .acquiring => 1
  | .ready => 2
  | .dealing => 3
  | .flywheel => 4
  | .left => 5

/-- A position is held (R53). -/
def State.holdsPosition (s : State) : Bool := s.cad.st = .ready || s.dealing

/-- Condemned cores of the effective map (OD 0x2000.0B). -/
def State.condemnedCount (s : State) : Nat :=
  let keys := (s.repair.factory.clusters.map (·.1) ++ s.nv.field.clusters.map (·.1)).eraseDups
  (keys.map (fun k => (maskBits (s.effCluster k).condemned 68).length)).sum

def State.retiredTotal (s : State) : Nat := ((List.range 8).map (fun d => (s.effDie d).retiredCount)).sum

/-- A die record's 8 bytes (Table 12.2). -/
def dieRecord (m : DieMap) (deck : Nat) : Bytes := toLe (m.retired.toNat + 2 ^ 34 * deck) 8

/-- A cluster record's 16 bytes (Table 12.1). -/
def clusterRecord (m : ClusterMap) : Bytes :=
  let sub := fun k => match m.sub.getD k none with | some c => 0x80 + c % 64 | none => 0
  toLe (m.condemned.toNat + (List.range 4).foldl (fun n k => n + sub k * 2 ^ (96 + 8 * k)) 0) 16

/-- OD 0x2000.15: die records, then cluster records by die, row and physical column. -/
def State.effectiveMap (s : State) : Bytes :=
  (List.range 8).flatMap (fun d => dieRecord (s.effDie d) (s.deck d)) ++ (List.range 17408).flatMap (fun k => clusterRecord (s.effCluster k))

/-- OD 0x2000.16. -/
def State.factoryMap (s : State) : Bytes := State.effectiveMap { s with nv := { s.nv with field := {} } }

/-- An image entry's 96 bytes (Table 10.2); an ABSENT entry is zero. -/
def imageEntryBytes : Option ImageEntry → Bytes
  | none => List.replicate 96 0
  | some e =>
    toLe e.id 4 ++ toLe e.keyId 4 ++ toLe e.gen 4 ++ toLe e.state 1 ++ toLe e.pos 1 ++ toLe (boolNat e.replicate) 1 ++ [0]
      ++ toLe e.damaged.length 4 ++ List.replicate 12 0 ++ (List.range 8).flatMap (fun d => toLe (e.extents.getD d (0, 0)).1 4 ++ toLe (e.extents.getD d (0, 0)).2 4)

/-- A loaded-form record (Table 16.8). -/
def State.formRecord (s : State) (f : Form) : Bytes :=
  let d := fun i => byteAt f.cert.digest i
  toLe (f.id + 2 ^ 16 * boolNat (s.certified f) + 2 ^ 17 * boolNat f.revoked + 2 ^ 18 * boolNat (f.unload ≠ []) + 2 ^ 19 * boolNat (s.formInUse f.id)
    + 2 ^ 56 * d 0 + 2 ^ 48 * d 1 + 2 ^ 40 * d 2 + 2 ^ 32 * d 3) 8

/-- A log record's 32 bytes (Table 16.10). -/
def logBytes (r : LogRec) : Bytes :=
  toLe r.seq.toNat 4 ++ toLe r.cls 1 ++ toLe r.cause 1 ++ toLe r.detail 1 ++ toLe (boolNat r.posted + 2 * boolNat r.remote) 1
    ++ toLe (r.deal % 2 ^ 48 + 2 ^ 48 * r.member) 8 ++ toLe r.subject 4 ++ toLe r.place 4 ++ toLe r.timeUs 8

/-- ORDER's 32 entries (R409). -/
def orderBytes (o : List OrderEntry) : Bytes :=
  padTo 32 (o.map (fun e => BitVec.ofNat 8 (0x80 + 0x40 * boolNat e.bmc + 0x20 * boolNat e.elig + e.addr % 32)))

/-- Factory data of ROM table `k`: `n` bytes at `off`, as a number. -/
def romField (k off n : Nat) : Nat := leAll (padTo n ((Config.factoryBlob (0x2640 + k)).drop off))

/-- A ROM table image (Tables 8.1, 8.2): LO and WLOG as Table 8.2 gives them, the coefficients, and CHECK. GROUP, MODES, BELOW_VAL, ABOVE_VAL and TAG are factory data within the ranges of Table 8.1; the rsvd fields are zero. -/
def romImage (k : Nat) : Bytes :=
  let one := fp32.encode 0 false Num.one
  let num := fun (w : Nat) => if fp32NaN w then 0 else w
  let modes := romField k 1 1
  let head := toLe (if k = 0 || k = 1 then 0 else one) 4 ++ toLe (if k = 0 then 0xFB else 0xF8) 1
    ++ toLe (romField k 0 1 % 32) 1 ++ toLe (modes % 3 + 4 * (modes / 3 % 3)) 1 ++ toLe 0 1
    ++ toLe (num (romField k 2 4)) 4 ++ toLe (num (romField k 6 4)) 4 ++ toLe (romField k 10 4) 4 ++ List.replicate 40 0
  let coeff := fun i j => fp32.encode 0 false (romC k i j)
  let segs := (List.range 256).flatMap (fun i => toLe (coeff i 0) 4 ++ toLe (coeff i 1) 4 ++ toLe (coeff i 2) 4)
  head ++ toLe (crc32c (head ++ List.replicate 4 0 ++ segs)) 4 ++ segs

/-- A text in `n` bytes. -/
def strBytes (n : Nat) (t : String) : Bytes := padTo n (t.toList.map (fun c => BitVec.ofNat 8 c.toNat))

/-- Mask of a list of bit numbers. -/
def maskOf (l : List Nat) : Nat := (l.map (2 ^ ·)).sum

/-- Value of the Hatband, deal-clock and identity entries of fixed type. -/
def State.valueLow (s : State) (index sub : Nat) : Nat :=
  let lamed := s.sec.lifeCycle = 4
  match index, sub with
  | 0x1000, 0x03 => s.factory.serial
  | 0x1000, 0x04 => s.factory.revision
  | 0x1000, 0x05 => s.sec.lifeCycle
  | 0x1000, 0x06 => if lamed then 0 else imageField s.nv.crown.header 8
  | 0x1000, 0x07 => if lamed || s.start.stage = 4 then 0 else s.brimVersion
  | 0x1000, 0x08 => if lamed then 0 else boolNat s.start.runB
  | 0x1000, 0x0A => if lamed then 0 else s.timeUs
  | 0x1000, 0x0B => if lamed then 0 else s.start.reason
  | 0x1100, 0x02 => s.hb.addr
  | 0x1100, 0x03 => 320
  | 0x1100, 0x05 => s.hb.dr
  | 0x1100, 0x06 => s.hb.lag
  | 0x1100, 0x08 => s.hb.lost.toNat
  | 0x1100, 0x09 => s.hb.symErrs.toNat
  | 0x1100, 0x0A => s.hb.voidHeaders.toNat
  | 0x1100, 0x0B => s.hb.voidCalls.toNat
  | 0x1100, 0x0C => s.hb.collisions.toNat
  | 0x1100, 0x0D => ofSigned 32 s.hb.closure
  | 0x1100, 0x0E => s.hb.passes.toNat
  | 0x1200, 0x01 => if s.holdsPosition then s.cad.deal else 0
  | 0x1200, 0x02 => if s.holdsPosition then s.cad.trick else 0
  | 0x1200, 0x03 => if s.holdsPosition then s.cad.period else 0
  | 0x1200, 0x04 => cadCode s.cad.st
  | 0x1200, 0x05 => 16
  | 0x1200, 0x06 => 4000
  | 0x1200, 0x08 => s.cad.flyCount.toNat
  | 0x1200, 0x09 => s.cad.strayCount.toNat
  | 0x1200, 0x0A => s.cad.stretchReq
  | 0x1200, 0x0B => s.repair.agingGuard
  | 0x1200, 0x0C => s.cad.departures.toNat
  | _, _ => 0

/-- Value of the power, security and start entries of fixed type. -/
def State.valueSystem (s : State) (index sub : Nat) : Nat :=
  if index = 0x1300 && 0x10 ≤ sub && sub ≤ 0x18 then (match s.power.temps.getD (sub - 0x10) none with | some t => f32Tenths t | none => 0x7FC00000) else
  match index, sub with
  | 0x1300, 0x02 => s.power.phase
  | 0x1300, 0x03 => 1650
  | 0x1300, 0x04 => 90
  | 0x1300, 0x05 => 400
  | 0x1300, 0x06 => s.tj
  | 0x1300, 0x07 => s.power.watts
  | 0x1300, 0x08 => s.power.energy
  | 0x1300, 0x09 => s.power.thermal
  | 0x1300, 0x25 => 0x42DC0000
  | 0x1400, 0x04 => s.sec.level
  | 0x1400, 0x07 => s.sec.lastKey
  | 0x1400, 0x09 => s.sec.ide
  | 0x1400, 0x0A => s.sec.events.toNat
  | 0x1400, 0x0B => boolNat s.dealer.halted
  | 0x1500, 0x02 => s.dict.storeState
  | 0x1500, 0x04 => s.dict.inForce
  | 0x1500, 0x05 => s.dict.seqInForce
  | 0x1500, 0x06 => s.copyFlags
  | 0x1500, 0x07 => s.dict.carried.length
  | 0x1500, 0x08 => s.nv.stores.toNat
  | 0x1500, 0x10 => s.nv.stagingState
  | 0x1500, 0x12 => s.start.refusal
  | 0x1500, 0x15 => s.start.auths
  | 0x1500, 0x1A => s.confirmDeals
  | 0x1500, 0x1B => s.start.stage
  | 0x1500, 0x1C => s.start.outcome
  | 0x1500, 0x1D => s.start.heldCause
  | _, _ => 0

/-- Value of the repair, memory and serving entries of fixed type. -/
def State.valueCompute (s : State) (index sub : Nat) : Nat :=
  match index, sub with
  | 0x2000, 0x01 => s.factory.grade
  | 0x2000, 0x02 => s.factory.ctVersion
  | 0x2000, 0x03 => s.repair.generation.toNat
  | 0x2000, 0x04 => s.shortDies
  | 0x2000, 0x05 => s.svis.corrected
  | 0x2000, 0x06 => s.svis.parity
  | 0x2000, 0x07 => s.kitty.hits
  | 0x2000, 0x08 => s.kitty.misses
  | 0x2000, 0x09 => s.repair.unwatched.length
  | 0x2000, 0x0A => s.repair.suspects.length
  | 0x2000, 0x0B => s.condemnedCount
  | 0x2000, 0x0C => s.retiredTotal
  | 0x2000, 0x0D => s.lostDies
  | 0x2000, 0x0E => s.repair.compared
  | 0x2000, 0x0F => s.repair.mismatches
  | 0x2000, 0x10 => s.repair.transients
  | 0x2000, 0x11 => s.dealer.misdeals.toNat
  | 0x2000, 0x12 => s.dealer.repairIdles.toNat
  | 0x2000, 0x14 => boolNat s.repair.hubHold
  | 0x2000, 0x17 => ofSigned 32 s.repair.lastMargin
  | 0x2000, 0x18 => s.repair.bistResult
  | 0x2100, 0x01 => 256
  | 0x2100, 0x02 => s.mem.poisoned
  | 0x2100, 0x03 => s.mem.lastPoison
  | 0x2100, 0x04 => s.mem.walks
  | 0x2100, 0x05 => s.mem.deferred.length + s.mem.windowPending.length
  | 0x2100, 0x06 => s.mem.crossings
  | 0x2100, 0x07 => ((s.pins.map (fun p => (p.base, p.size))).dedup).length
  | _, _ => 0

/-- The plan whose deal is in progress. -/
def State.runningPlan (s : State) : Option Plan := if s.dealing then s.dealer.running else none

/-- Value of the serving entries of fixed type (Table 16.7). -/
def State.valueServing (s : State) (sub : Nat) : Nat :=
  let p := s.runningPlan
  if 0x10 ≤ sub && sub ≤ 0x15 then s.dealer.house.getD (sub - 0x10) 0 else
  match sub with
  | 0x01 => (p.bind (·.formId)).getD 0
  | 0x02 => match p with | some p => sourceCode p.source | none => 4
  | 0x03 => match p with | some p => (p.entries.filter (fun e => !e.void)).length | none => 0
  | 0x04 => (s.seats.filter (fun x => x.2.state ≠ 0)).length
  | 0x05 => s.forms.length
  | 0x07 => match s.dealer.standing with | some x => x.formId + 2 ^ 16 | none => 0
  | 0x08 => s.dealer.committedDeals
  | 0x09 => s.dealer.idleDeals
  | 0x0A => s.dealer.foldCount
  | 0x0B => s.dealer.voidCount
  | 0x0C => s.dealer.lateCount
  | 0x0D => 131072
  | 0x0E => 4096
  | 0x16 => s.dealer.houseDeal
  | _ => 0

/-- Value of the vault, video and cascade entries of fixed type. -/
def State.valueHigh (s : State) (index sub : Nat) : Nat :=
  if index = 0x2300 && 1 ≤ sub && sub ≤ 8 then (match aget (sub - 1) s.vault.keys with | some k => k.1 | none => 0)
  else if index = 0x2300 && 0x10 ≤ sub && sub ≤ 0x17 then (aget (sub - 0x10) s.nv.written).getD 0 * 100 / 2 ^ 34
  else if index = 0x2300 && 0x18 ≤ sub && sub ≤ 0x1F then s.sparesLeft (sub - 0x18)
  else if index = 0x2400 && 3 ≤ sub && sub ≤ 6 then (s.video.sessions.filter (fun x => x.1 / 64 = sub - 3 && x.2.state ≠ 0)).length
  else if index = 0x2400 && 7 ≤ sub && sub ≤ 0x0A then (s.engine (sub - 7)).encoded
  else if index = 0x2400 && 0x0B ≤ sub && sub ≤ 0x0E then (s.engine (sub - 0x0B)).decoded
  else if index = 0x2500 && 0x20 ≤ sub && sub ≤ 0x27 then (s.deckLink (sub - 0x20)).st
  else if index = 0x2500 && 0x28 ≤ sub && sub ≤ 0x2F then (let l := s.deckLink (sub - 0x28); if l.farValid then l.farAddr + 2 ^ 8 * l.farLink + 2 ^ 31 else 0)
  else if index = 0x2500 && 0x30 ≤ sub && sub ≤ 0x37 then (s.deckLink (sub - 0x30)).replayed
  else if index = 0x2500 && 0x38 ≤ sub && sub ≤ 0x3F then (s.deckLink (sub - 0x38)).losses.toNat
  else match index, sub with
  | 0x2300, 0x0B => maskOf (s.vault.keyPending.map (·.1)).eraseDups
  | 0x2300, 0x20 => s.vault.aboveLowest
  | 0x2300, 0x21 => s.vault.corrected
  | 0x2300, 0x22 => s.vault.failures
  | 0x2300, 0x23 => boolNat s.vault.pass.isSome
  | 0x2300, 0x24 => s.vault.lastStatus
  | 0x2400, 0x01 => 4
  | 0x2400, 0x02 => 2160000000
  | 0x2400, 0x0F => maskOf ((List.range 4).filter (fun e => (s.engine e).disabled))
  | 0x2400, 0x10 => s.video.voids
  | 0x2400, 0x11 => s.video.held
  | 0x2400, 0x12 => s.video.longest
  | 0x2500, 0x04 => boolNat s.cascade.isBanker
  | 0x2500, 0x0B => s.cascade.refState
  | 0x2600, 0x21 => maskOf (s.svis.tablePending.map (·.1)).eraseDups
  | 0x2600, 0x22 => maskOf (s.svis.tables.map (·.1))
  | 0x2600, 0x23 => s.slotsReferenced.toNat
  | 0x2600, 0x24 => s.svis.tableRefusal
  | 0x4000, 0x01 => s.log.ring.length
  | 0x4000, 0x02 => s.log.seq.toNat
  | 0x4000, 0x03 => s.log.overwritten
  | _, _ => 0

/-- Value of a readable fixed-type entry. -/
def State.odNat (s : State) (index sub : Nat) : Nat :=
  if sub = 0 then (highSub index).getD 0
  else if isPolicy index sub || fixedBelow.any (fun e => e.1 = index && e.2.1 = sub) then s.setting index sub
  else if 0x3000 ≤ index && index ≤ 0x3FFF then
    let a := s.acct (index - 0x3000)
    [a.coreTricks, a.hbm, a.vault, a.pcie, a.deck, a.energy, a.lastDeal].getD (sub - 1) 0
  else if index ≤ 0x12FF then s.valueLow index sub
  else if index ≤ 0x1FFF then s.valueSystem index sub
  else if index = 0x2200 then s.valueServing sub
  else if index ≤ 0x21FF then s.valueCompute index sub
  else s.valueHigh index sub

/-- Value of a readable STR or BLOB entry. -/
def State.odBlobValue (s : State) (index sub : Nat) : Bytes :=
  if index = 0x2101 then windowBytes (s.pcieWindow (sub - 1))
  else if index = 0x2301 then imageEntryBytes (aget (sub - 1) s.nv.images)
  else if 0x2401 ≤ index && index ≤ 0x2404 then poolBytes16 ((s.engine (index - 0x2401)).entry (sub - 1))
  else if isTableSlot index sub then s.slotImage (sub - 1)
  else if index = 0x2600 then romImage (sub - 0x40)
  else match index, sub with
  | 0x1000, 0x01 => strBytes 16 "Akeiset"
  | 0x1000, 0x02 => strBytes 16 "JV8"
  | 0x1000, 0x09 => if s.sec.lifeCycle = 4 then [] else Config.certChain.take 8192
  | 0x1100, 0x07 => orderBytes s.hb.order
  | 0x1300, 0x26 => (Config.factoryBlob 0x1326).take 4096
  | 0x1400, 0x05 => grantKey 0
  | 0x1400, 0x06 => grantKey 1
  | 0x1400, 0x08 => s.measurements
  | 0x1500, 0x13 => s.stagedHeader
  | 0x1500, 0x16 => bootBytes s.boot
  | 0x1500, 0x17 => padTo 256 s.nv.slotA.header
  | 0x1500, 0x18 => padTo 256 s.nv.slotB.header
  | 0x2000, 0x15 => s.effectiveMap
  | 0x2000, 0x16 => s.factoryMap
  | 0x2200, 0x06 => s.forms.flatMap s.formRecord
  | 0x2201, 0x01 => (List.range 4096).map (fun a => BitVec.ofNat 8 (s.boundFn a))
  | 0x2500, 0x11 => match s.group.binding with | some b => b.image | none => []
  | 0x4000, 0x04 => s.log.ring.flatMap logBytes
  | 0x4000, 0x06 => s.nv.plog.flatMap logBytes
  | _, _ => []

/-- The bytes a read of the whole entry returns. -/
def State.odValue (s : State) (e : OdEntry) (index sub : Nat) : Bytes :=
  if typeWidth e.type = 0 then s.odBlobValue index sub else toLe (s.odNat index sub) (typeWidth e.type)

/-! ## What a whole value does (R435) -/

/-- ACCOUNT_BINDING's value (R465). -/
def State.bindAccounts (s : State) (b : Bytes) : WriteRes :=
  if b.any (fun x => 64 ≤ x.toNat) then wRsvd s
  else if b.length ≠ 4096 then wRange s
  else wOk { s with host := { s.host with binding := ((List.range 4096).map (fun a => (a, byteAt b a))).filter (fun x => x.2 ≠ 0) } }

/-- ACCOUNT_COUNTER_CLEAR's value (R84). -/
def State.clearAccount (s : State) (a v : Nat) : WriteRes :=
  if v ≠ 1 then wRange s else wOk (s.setAcct a { s.acct a with clearPending := true })

/-- HOUSE_COUNTER_CLEAR's value (R85). -/
def State.clearHouse (s : State) (v : Nat) : WriteRes := if v ≠ 1 then wRange s else wOk { s with dealer := { s.dealer with houseClear := true } }

/-- LOG_CLEAR's value (R467). -/
def State.clearLog (s : State) (v : Nat) : WriteRes := if v ≠ 1 then wRange s else wOk { s with log := { s.log with ring := [] } }

/-- A user-overridable fixed-type entry's value (R429, R441). -/
def State.settingWrite (s : State) (index sub v : Nat) : WriteRes :=
  let v := v % settingMask index sub
  if s.settingOk index sub v then wOk (s.putSetting index sub v) else wRange s

/-- The whole value `b` reaches entry index.sub by a path that is `secured` or not; `ok` is the answer of the check that an entry's own rule calls for (the session-end check of R488, the other slot's of R530). -/
def State.dictWrite (s : State) (secured ok : Bool) (index sub : Nat) (b : Bytes) : WriteRes :=
  let v := leAll b
  if isPolicy index sub || fixedBelow.any (fun e => e.1 = index && e.2.1 = sub) then s.settingWrite index sub v
  else if isTableSlot index sub then s.tableWrite (sub - 1) b
  else if index = 0x2101 then s.windowWrite (sub - 1) b
  else if 0x2401 ≤ index && index ≤ 0x2404 then s.poolWrite (index - 0x2401) (sub - 1) b
  else if 0x3000 ≤ index && index ≤ 0x3FFF then s.clearAccount (index - 0x3000) v
  else if index = 0x1500 && 0x20 ≤ sub then s.pieceWrite (sub - 0x20) b
  else match index, sub with
  | 0x1300, 0x01 => s.powerWrite v
  | 0x1400, 0x01 => s.signedWrite 1 b
  | 0x1400, 0x02 => s.signedWrite 0 b
  | 0x1400, 0x03 => s.endSessionWrite v ok
  | 0x1400, 0x0B => s.haltWrite v
  | 0x1400, 0x0C => s.stepWrite v
  | 0x1500, 0x01 => s.storeWrite v
  | 0x1500, 0x03 => s.restoreWrite v
  | 0x1500, 0x11 => s.checkWrite v
  | 0x1500, 0x14 => s.signedWrite 2 b
  | 0x1500, 0x19 => s.rollbackWrite v ok
  | 0x1500, 0x1E => s.resetWrite v
  | 0x2200, 0x17 => s.clearHouse v
  | 0x2201, 0x01 => s.bindAccounts b
  | 0x2300, 0x09 => s.keyLoad secured b
  | 0x2300, 0x0A => s.keyUnload v
  | 0x2500, 0x03 => s.handoverWrite v
  | 0x2500, 0x09 => s.joinWrite v
  | 0x2500, 0x10 => s.bindWrite b
  | 0x4000, 0x05 => s.clearLog v
  | _, _ => (0x13, 0, s)

/-! ## One access (R433, R435) -/

/-- The status with which a device answers before its Brim runs, or as Lamed (R416, R417, R432); 0 when it serves the access. -/
def State.notServing (s : State) (index : Nat) (write : Bool) : Nat :=
  if s.sec.lifeCycle = 4 then (if index = 0x1000 && !write then 0 else 0x05)
  else if s.start.stage = 0 then 0x04
  else 0

/-- In rescue the Crown serves the Hatband and PF0's mirror window only (R515). -/
def State.pathServed (s : State) : Path → Bool
  | .mirror fn _ => s.start.stage ≠ 4 || fn = 0
  | .secured _ => s.start.stage ≠ 4
  | .tap => s.start.stage ≠ 4
  | _ => true

/-- The first failing check up to STATE of a unit not yet started; 0 none. -/
def State.gate (s : State) (p : Path) (index sub : Nat) (write : Bool) : Nat :=
  let c := s.classOf p
  let n := s.notServing index write
  if n ≠ 0 then n else
  match highSub index, odEntry index sub with
  | none, _ => 0x10
  | some _, none => 0x11
  | some _, some e =>
    if !(if write then mayWrite c e else s.mayRead c e index sub) then 0x12
    else if !(if write then e.writable else e.readable) then 0x13
    else if s.sec.lifeCycle ≠ 4 && !(s.served index sub && s.pathServed p) then 0x18
    else 0

def State.setStaging (s : State) (l : List Staging) : State := { s with dict := { s.dict with staging := l } }

/-- The entry of a buffer or snapshot. -/
def Staging.is (x : Staging) (w : Requester) (index sub : Nat) : Bool := x.who = w && x.index = index && x.sub = sub
def Snapshot.is (x : Snapshot) (w : Requester) (index sub : Nat) : Bool := x.who = w && x.index = index && x.sub = sub

/-- The path is a secured session. -/
def State.securedPath (s : State) : Path → Bool
  | .secured n => s.sec.spdm.any (fun x => x.id = n && x.state = 2)
  | _ => false

/-- A whole value after the gate: a fixed type's width, then its effect (R428, R435). -/
def State.wholeValue (s : State) (p : Path) (e : OdEntry) (index sub : Nat) (b : Bytes) (ok : Bool) : WriteRes :=
  if typeWidth e.type ≠ 0 && b.length ≠ typeWidth e.type then (0x14, 0, s)
  else s.dictWrite (s.securedPath p) ok index sub b

/-- A value longer than its entry may hold: RANGE, and of a table slot recorded as BAD_IMAGE (Table 8.5). -/
def State.tooLong (s : State) (index sub : Nat) : WriteRes :=
  wRange (if isTableSlot index sub then { s with svis := { s.svis with tableRefusal := 1 } } else s)

/-- One segment of a STR, BLOB or DOMAIN value (R436, R437); BUSY comes after the checks that precede it in Table 15.4 (R433). -/
def State.segment (s : State) (p : Path) (e : OdEntry) (index sub offset : Nat) (b : Bytes) (ok : Bool) : WriteRes :=
  let w := requester p
  let held := s.dict.staging.find? (fun x => x.is w index sub)
  let s := s.setStaging (s.dict.staging.filter (fun x => !x.is w index sub))
  let full := offset = 0 && 16 ≤ s.dict.staging.length
  let got : Option Bytes := if offset = 0 then some [] else held.bind (fun x => if x.bytes.length = offset then some x.bytes else none)
  match got with
  | none => (0x15, 0, s)
  | some g =>
    let v := g ++ b
    if e.max < v.length then s.tooLong index sub
    else if b.length < segUnit p || v.length = e.max then
      (let r := s.wholeValue p e index sub v ok
       if full && !(0x14 ≤ r.1 && r.1 ≤ 0x18) then wBusy s else r)
    else if full then wBusy s
    else wOk (s.setStaging (s.dict.staging ++ [{ who := w, index, sub, bytes := v }]))

/-- A write access. -/
def State.odWrite (s : State) (a : Access) (ok : Bool) : WriteRes :=
  let b := a.data.take a.len
  if segUnit a.path < a.len then (0x06, 0, s) else
  match s.gate a.path a.index a.sub true, odEntry a.index a.sub with
  | 0, some e =>
    if typeWidth e.type ≠ 0 then (if a.offset ≠ 0 then (0x14, 0, s) else s.wholeValue a.path e a.index a.sub b ok)
    else s.segment a.path e a.index a.sub a.offset b ok
  | g, _ => (g, 0, s)

/-- A write of a whole value, whatever segments brought it (the commands with a row of their own). -/
def State.wholeWrite (s : State) (p : Path) (index sub : Nat) (b : Bytes) (ok : Bool) : WriteRes :=
  match s.gate p index sub true, odEntry index sub with
  | 0, some e =>
    if typeWidth e.type = 0 && e.max < b.length then s.tooLong index sub else s.wholeValue p e index sub b ok
  | g, _ => (g, 0, s)

/-- A read access: its status, its data, and the snapshot it takes (R428, R438). -/
def State.odRead (s : State) (a : Access) : Nat × Bytes × State :=
  if segUnit a.path < a.len then (0x06, [], s) else
  match s.gate a.path a.index a.sub false, odEntry a.index a.sub with
  | 0, some e =>
    let n := typeWidth e.type
    let live := s.odValue e a.index a.sub
    if n ≠ 0 then
      if a.offset ≠ 0 || a.len < n then (0x14, [], s) else (0x01, live, s)
    else
      let w := requester a.path
      let snap := s.dict.snaps.find? (fun x => x.is w a.index a.sub)
      let v := if a.offset = 0 then live else match snap with | some x => x.bytes | none => live
      let s : State := if a.offset ≠ 0 then s else
        { s with dict := { s.dict with snaps := s.dict.snaps.filter (fun x => !x.is w a.index a.sub) ++ [{ who := w, index := a.index, sub := a.sub, bytes := v }] } }
      if v.length < a.offset then (0x17, [], s) else (0x01, (v.drop a.offset).take a.len, s)
  | g, _ => (g, [], s)

/-- One access of either kind. The check that END_DEBUG_SESSION or ROLLBACK calls for is answered by a free bit here; their own rows carry it. -/
def State.access (s : State) (a : Access) : DictAns × State :=
  if a.write then
    let asks := (a.index = 0x1400 && a.sub = 0x03) || (a.index = 0x1500 && a.sub = 0x19)
    let f := if asks then s.takeFree else (1, s)
    let r := f.2.odWrite a (f.1.getLsbD 0)
    ({ status := r.1, detail := r.2.1, data := [] }, r.2.2)
  else
    let r := s.odRead a
    ({ status := r.1, detail := 0, data := r.2.1 }, r.2.2)

/-- Keep the answer to an access. -/
def State.answered (s : State) (x : DictAns) : State := { s with dict := { s.dict with answer := some x } }

/-- The answer to a write. -/
def answerWrite (r : WriteRes) : State := r.2.2.answered { status := r.1, detail := r.2.1, data := [] }

/-- What a node adds to a broadcast read: the value of a BOOL or unsigned entry no wider than `len` that the class may read and whose unit is served (R414). -/
def State.contribution (s : State) (p : Path) (index sub len : Nat) : Option Nat :=
  match s.gate p index sub false, odEntry index sub with
  | 0, some e => if 1 ≤ e.type && e.type ≤ 5 && typeWidth e.type ≤ len && s.sec.lifeCycle ≠ 4 then some (s.odNat index sub) else none
  | _, _ => none

end Sys2Proof.Machine
end

