-- ==== Sys2Proof/Machine/DictExec.lean ====
section
/-!
DEFINITION. Machine/DictExec.lean: the dictionary writes that have commands of their own, an access by the TAP or to any other entry, and the lapse of snapshots and staging buffers (R435 to R438 and the rule of each entry).
-/
namespace Sys2Proof.Machine

/-- A whole value `b` written to index.sub through the intake; its status is the answer. -/
def State.written (s : State) (p : Path) (index sub : Nat) (b : Bytes) : Out := .next (answerWrite (s.wholeWrite p index sub b true))

/-- KEY_LOAD: OD 0x2300.09 (R283). -/
def execKeyLoad (path : Path) (value : Bytes) (s : State) : Out := s.written path 0x2300 0x09 value

/-- KEY_UNLOAD: OD 0x2300.0A (R284). -/
def execKeyUnload (path : Path) (slot : Nat) (s : State) : Out := s.written path 0x2300 0x0A (toLe slot 1)

/-- PCIE_WINDOW_WRITE: OD 0x2101.(w + 1) (R262). -/
def execPcieWindowWrite (path : Path) (w : Nat) (value : Bytes) (s : State) : Out := s.written path 0x2101 (w + 1) value

/-- POOL_ENTRY_WRITE: OD (0x2401 + engine).(entry + 1) (R317). -/
def execPoolEntryWrite (path : Path) (engine entry : Nat) (value : Bytes) (s : State) : Out := s.written path (0x2401 + engine) (entry + 1) value

/-- TABLE_SLOT_WRITE: OD 0x2600.(k + 1) (R226). -/
def execTableSlotWrite (path : Path) (k : Nat) (value : Bytes) (s : State) : Out := s.written path 0x2600 (k + 1) value

/-- STORE: OD 0x1500.01 (R444). -/
def execStoreLayer (path : Path) (value : Word32) (s : State) : Out := s.written path 0x1500 0x01 (toLe value.toNat 4)

/-- RESTORE: OD 0x1500.03 (R446). -/
def execRestoreLayer (path : Path) (value : Word32) (s : State) : Out := s.written path 0x1500 0x03 (toLe value.toNat 4)

/-- ACCOUNT_COUNTER_CLEAR: OD (0x3000 + account).09 (R84). -/
def execAccountCounterClear (path : Path) (account value : Nat) (s : State) : Out := s.written path (0x3000 + account) 0x09 (toLe value 1)

/-- HOUSE_COUNTER_CLEAR: OD 0x2200.17 (R85). -/
def execHouseCounterClear (path : Path) (value : Nat) (s : State) : Out := s.written path 0x2200 0x17 (toLe value 1)

/-- ACCOUNT_BINDING: OD 0x2201.01 (R465). -/
def execAccountBinding (path : Path) (value : Bytes) (s : State) : Out := s.written path 0x2201 0x01 value

/-- LOG_CLEAR: OD 0x4000.05 (R467). -/
def execLogClear (path : Path) (value : Nat) (s : State) : Out := s.written path 0x4000 0x05 (toLe value 1)

/-- JOIN_MARK: OD 0x2500.09 (R371). -/
def execJoinMark (path : Path) (deal : Word64) (s : State) : Out := s.written path 0x2500 0x09 (toLe deal.toNat 8)

/-- HANDOVER: OD 0x2500.03 (R376). -/
def execHandover (path : Path) (target : Nat) (s : State) : Out := s.written path 0x2500 0x03 (toLe target 1)

/-- GROUP_BINDING: OD 0x2500.10 (R381). -/
def execGroupBinding (path : Path) (value : Bytes) (s : State) : Out := s.written path 0x2500 0x10 value

/-- GRANT_OBSERVE: a signed record at OD 0x1400.02 (R480, R482). The level is a field of the record. -/
def execGrantObserve (path : Path) (rec : Bytes) (s : State) : Out := s.written path 0x1400 0x02 rec

/-- GRANT_OPEN: a signed record at OD 0x1400.02 (R480, R484). -/
def execGrantOpen (path : Path) (rec : Bytes) (s : State) : Out := s.written path 0x1400 0x02 rec

/-- BLANK_OPEN_GRANT: a zero-length value at OD 0x1400.02 (R483). -/
def execBlankOpenGrant (path : Path) (s : State) : Out := s.written path 0x1400 0x02 []

/-- END_DEBUG_SESSION: OD 0x1400.03 := 1; `measureOk` is the outcome of the session-end check (R488). -/
def execEndDebugSession (path : Path) (measureOk : Bool) (s : State) : Out := .next (answerWrite (s.wholeWrite path 0x1400 0x03 [1] measureOk))

/-- DEALER_HALT: OD 0x1400.0B (R486). -/
def execDealerHalt (path : Path) (value : Nat) (s : State) : Out := s.written path 0x1400 0x0B (toLe value 1)

/-- DEALER_STEP: OD 0x1400.0C (R487). -/
def execDealerStep (path : Path) (n : Nat) (s : State) : Out := s.written path 0x1400 0x0C (toLe n 4)

/-- SLEEP_REQUEST: OD 0x1300.01 := 1 (R491). -/
def execSleepRequest (path : Path) (s : State) : Out := s.written path 0x1300 0x01 [1]

/-- RUN_REQUEST: OD 0x1300.01 := 2 (R494). -/
def execRunRequest (path : Path) (s : State) : Out := s.written path 0x1300 0x01 [2]

/-- STAGING_PIECE_WRITE: OD 0x1500.(0x20 + k) (R523). -/
def execStagingPieceWrite (path : Path) (k : Nat) (value : Bytes) (s : State) : Out := s.written path 0x1500 (0x20 + k) value

/-- CHECK: OD 0x1500.11 := 1 (R524). -/
def execStageCheck (path : Path) (s : State) : Out := s.written path 0x1500 0x11 [1]

/-- DISCARD: OD 0x1500.11 := 2 (R525). -/
def execDiscard (path : Path) (s : State) : Out := s.written path 0x1500 0x11 [2]

/-- CROWN_AUTHORISATION: OD 0x1500.14 (R526). -/
def execCrownAuthorisation (path : Path) (rec : Bytes) (s : State) : Out := s.written path 0x1500 0x14 rec

/-- ROLLBACK: OD 0x1500.19; `verifies` says whether the other slot's image passes the checks of R517 (R530). -/
def execRollback (path : Path) (value : Word32) (verifies : Bool) (s : State) : Out :=
  .next (answerWrite (s.wholeWrite path 0x1500 0x19 (toLe value.toNat 4) verifies))

/-- FIRMWARE_RESET: OD 0x1500.1E (R531). -/
def execFirmwareReset (path : Path) (value : Word32) (s : State) : Out := s.written path 0x1500 0x1E (toLe value.toNat 4)

/-- One access, its answer kept. -/
def State.accessed (s : State) (a : Access) : State := (s.access a).2.answered (s.access a).1

/-- TAP_ACCESS: an access by the TAP, in the Debug class (R427, R435). -/
def execTapAccess (a : Access) (s : State) : Out := .next (State.accessed s { a with path := .tap })

/-- DICTIONARY_WRITE: a write to an entry that has no command of its own (R435). -/
def execDictionaryWrite (a : Access) (s : State) : Out := .next (State.accessed s { a with write := true })

/-- SNAPSHOT_LAPSE: the requester's snapshot of the entry is dropped; on the ring a prepared copy too (R415, R438). -/
def execSnapshotLapse (path : Path) (index sub : Nat) (s : State) : Out :=
  let ring := match path with | .ring _ _ _ => true | _ => false
  .next { s with dict := { s.dict with
    snaps := s.dict.snaps.filter (fun x => !x.is (requester path) index sub)
    slow := if ring then s.dict.slow.filter (fun x => !(x.index = index && x.sub = sub && x.copy.isSome)) else s.dict.slow } }

/-- STAGING_TIMEOUT: the requester's staging buffer for the entry is discarded (R437). -/
def execStagingTimeout (path : Path) (index sub : Nat) (s : State) : Out :=
  .next (s.setStaging (s.dict.staging.filter (fun x => !x.is (requester path) index sub)))

end Sys2Proof.Machine
end

