-- ==== Sys2Proof/Machine/Mirror.lean ====
section
/-!
DEFINITION. Machine/Mirror.lean: the PCIe mirror window and the secured request laid out like it (R431, R447 to R449, R503).
-/
namespace Sys2Proof.Machine

/-- A header outside Table 15.9: BAD_CALL. -/
def mirrorBad (r : MirrorReq) (kind : Nat) : Bool :=
  r.rsvd || 2 < kind || (kind ≠ 2 && (r.op ≠ 0 || (r.target ≠ 0xFF && 31 < r.target))) || 2 < r.op || 4096 < r.len
    || (kind = 2 && !decide (r.len = 1 ∨ r.len = 2 ∨ r.len = 4 ∨ r.len = 8))

/-- The request goes over the ring. -/
def mirrorRemote (r : MirrorReq) (kind : Nat) : Bool := kind = 2 || r.target ≠ 0xFF

/-- The value a write brings: LEN bytes of the data area. -/
def mirrorData (r : MirrorReq) : Bytes := (padTo r.len r.data).take r.len

/-- The completed header (Table 15.9), GO written back to 0. -/
def mirrorHeader (r : MirrorReq) (kind : Nat) (x : MirrorAns) : Bytes :=
  toLe r.index 2 ++ toLe r.sub 1 ++ toLe kind 1 ++ toLe r.target 1 ++ toLe r.op 1 ++ toLe (boolNat r.irq) 2 ++ toLe r.offset 4 ++ toLe r.len 4
    ++ toLe r.tag.toNat 4 ++ toLe 0 4 ++ toLe x.status 1 ++ toLe x.detail 1 ++ toLe x.contrib 1 ++ [0] ++ toLe x.alen 4 ++ List.replicate 32 0

/-- Complete a mirror request: the slot's fields and data, GO = 0, and vector 2 when IRQ is set (R447, R544). -/
def State.mirrorDone (s : State) (r : MirrorReq) (x : MirrorAns) : State :=
  let s : State := { s with dict := { s.dict with mirror := aset (16 * r.fn + r.slot) x s.dict.mirror } }
  if r.irq then s.setFn r.fn ((s.fn r.fn).callVector r.fn 2) else s

/-- Complete a request of either kind. -/
def State.requestDone (s : State) (secured : Option Nat) (r : MirrorReq) (kind : Nat) (x : MirrorAns) : State :=
  match secured with
  | none => s.mirrorDone r x
  | some _ => s.respond 0x7E (mirrorHeader r kind x ++ x.data)

/-- A completion without data. -/
def mirrorStatus (r : MirrorReq) (status : Nat) : MirrorAns := { tag := r.tag.toNat, status, detail := 0, contrib := 0, alen := 0, data := [] }

/-- One request whose GO has been written: checked, answered here, or put on its way to the ring (R447 to R449). -/
def State.request (s : State) (secured : Option Nat) (r : MirrorReq) (kind : Nat) : State :=
  let fn := if secured.isSome then 0 else r.fn
  if secured.isNone && s.dict.remote.any (fun x => x.secured.isNone && x.req.fn = r.fn && x.req.slot = r.slot) then s
  else if mirrorBad r kind then s.requestDone secured r kind (mirrorStatus r 0x06)
  else if mirrorRemote r kind then
    (if fn ≠ 0 then s.requestDone secured r kind (mirrorStatus r 0x12)
     else if kind ≠ 2 && r.target = s.hb.addr then s.requestDone secured r kind (mirrorStatus r 0x00)
     else { s with
       dict := { s.dict with remote := s.dict.remote ++ [{ req := r, kind, secured, tag := s.hb.nextTag }] }
       hb := { s.hb with nextTag := (s.hb.nextTag + 1) % 256 } })
  else
    let a : Access := { path := match secured with | some n => .secured n | none => .mirror r.fn r.slot
                        index := r.index, sub := r.sub, write := kind = 1, offset := r.offset, len := r.len, data := mirrorData r }
    let x := s.access a
    x.2.requestDone secured r kind { tag := r.tag.toNat, status := x.1.status, detail := x.1.detail, contrib := 0, alen := x.1.data.length, data := x.1.data }

/-- MIRROR_READ (R447). -/
def execMirrorRead (r : MirrorReq) (s : State) : Out := .next (s.request none r 0)

/-- MIRROR_WRITE (R447). -/
def execMirrorWrite (r : MirrorReq) (s : State) : Out := .next (s.request none r 1)

/-- MIRROR_BROADCAST_READ (R447, R449). -/
def execMirrorBroadcastRead (r : MirrorReq) (s : State) : Out := .next (s.request none r 2)

/-- VENDOR_DEFINED_REQUEST: one access as a Host PF0 access in a secured session; another registry or vendor is UnsupportedRequest (R503). -/
def execVendorDefinedRequest (session : Nat) (registryOk : Bool) (r : MirrorReq) (kind : Nat) (s : State) : Out :=
  .next <| s.inSession session fun s => if !registryOk then s.spdmError 7 else s.request (some session) r kind

end Sys2Proof.Machine
end

