-- ==== Sys2Proof/Machine/Hatband.lean ====
section
/-!
DEFINITION. Machine/Hatband.lean: the ring: frames on both laps, calls and their answers, the Banker's rounds (R369 to R371, R374, R398 to R424, R449, R593, R596).
-/
namespace Sys2Proof.Machine

/-! ## Ring events (Table 14.10) -/

/-- A RING event: the ring address it names, and the closure difference (Table 19.7). -/
def State.ringEvent (s : State) (detail addr : Nat) : State :=
  s.post { ev 0x11 detail s.curDeal with w2 := addr, w3 := ofSigned 32 s.hb.closure }

/-! ## Who answers -/

/-- A device whose Brim does not run yet: the hardware responder (R416). -/
def State.responder (s : State) : Bool := s.start.stage = 0 && s.sec.lifeCycle ≠ 4

/-- The device reads headers and makes calls of its own (R416, R417). -/
def State.onRing (s : State) : Bool := s.start.stage ≠ 0 && s.sec.lifeCycle ≠ 4

/-- Where the BMC stands, if the order held names it (R409). -/
def State.bmcAddr (s : State) : Option Nat := (s.hb.order.find? (·.bmc)).map (·.addr)

/-- The Banker whose header was the last valid one. -/
def State.bankerAddr (s : State) : Option Nat := if s.cascade.isBanker then some s.hb.addr else s.hb.lastHdr.map (·.bankerId)

/-- Table 14.8: slot `n` admits the call's class and its caller, as far as this node knows who they are. -/
def State.callAllowed (s : State) (n : Nat) (c : HbCall) : Bool :=
  if n < 6 then c.cls = 0 && (match s.bankerAddr with | some b => c.caller = b | none => true)
  else if n < 12 then (c.cls = 1 || c.cls = 3) && (match s.bmcAddr with | some b => c.caller = b | none => true)
  else c.cls = 2 && s.bmcAddr ≠ some c.caller

/-- Table 14.7: what no node answers but with BAD_CALL. -/
def badCall (c : HbCall) : Bool := c.kind = 3 || c.op = 3 || 32 < c.len || c.rsvd

/-- Write STATUS, DATA and ALEN; data not written stays as the caller sent it. -/
def replied (c : HbCall) (status : Nat) (b : Bytes) : HbCall := { c with status, data := b ++ c.data.drop b.length, alen := b.length }

/-! ## Slow entries (R415, R439) -/

def State.setSlow (s : State) (l : List SlowPrep) : State := { s with dict := { s.dict with slow := l } }

/-- The whole value of a prepared copy at `offset` (R438). -/
def sliceRead (v : Bytes) (offset len : Nat) : Nat × Bytes := if v.length < offset then (0x17, []) else (0x01, (v.drop offset).take len)

/-- A read of a slow entry that passed the gate: PASS until 1 ms after the first, then its copy. -/
def State.slowRead (s : State) (e : OdEntry) (c : HbCall) : Nat × Bytes × State :=
  let here := fun (x : SlowPrep) => x.index = c.index && x.sub = c.sub
  match s.dict.slow.find? here with
  | none => (0x02, [], s.setSlow (s.dict.slow ++ [{ index := c.index, sub := c.sub, firstPs := s.now, copy := none }]))
  | some x =>
    match x.copy with
    | some v => let r := sliceRead v c.offset c.len; (r.1, r.2, s)
    | none =>
      if s.now < x.firstPs + 1000000000 then (0x02, [], s) else
      let v := s.odValue e c.index c.sub
      let r := sliceRead v c.offset c.len
      (r.1, r.2, s.setSlow (s.dict.slow.map (fun x => if here x then { x with copy := some v } else x)))

/-! ## Answering a call (R411, R412, R414) -/

/-- A read call's status and data. -/
def State.callRead (s : State) (n : Nat) (c : HbCall) : Nat × Bytes × State :=
  let p : Path := .ring n c.cls c.caller
  match s.gate p c.index c.sub false, odEntry c.index c.sub with
  | 0, some e =>
    if e.slow then
      let r := s.slowRead e c
      if r.1 = 0x02 then (r.1, r.2.1, { r.2.2 with hb := { r.2.2.hb with passes := r.2.2.hb.passes + 1 } }) else r
    else
      let x := s.access { path := p, index := c.index, sub := c.sub, write := false, offset := c.offset, len := c.len, data := [] }
      (x.1.status, x.1.data, x.2)
  | g, _ => (g, [], s)

/-- The code of a REFUSED answer goes into DATA byte 0 (R434). -/
def refusedData (status detail : Nat) : Bytes := if status = 0x1A then [BitVec.ofNat 8 detail] else []

/-- A write call, entered once for its caller and TAG: a repeat is answered with the stored status, a refusal too (R412, Case 2 of chapter 15). -/
def State.callWrite (s : State) (n : Nat) (c : HbCall) : Nat × Bytes × State :=
  match s.hb.lastWrites.find? (fun w => w.caller = c.caller && w.tag = c.tag) with
  | some w => (w.status, w.data, s)
  | none =>
    let x := s.access { path := .ring n c.cls c.caller, index := c.index, sub := c.sub, write := true, offset := c.offset, len := c.len, data := c.data }
    let d := refusedData x.1.status x.1.detail
    let w : LastWrite := { caller := c.caller, tag := c.tag, status := x.1.status, data := d }
    (x.1.status, d, { x.2 with hb := { x.2.hb with lastWrites := x.2.hb.lastWrites.filter (·.caller ≠ c.caller) ++ [w] } })

/-- The answer to a unicast call for this node whose STATUS is NONE. -/
def State.answerUnicast (s : State) (n : Nat) (c : HbCall) : HbCall × State :=
  if s.responder then (replied c 0x04 [], s)
  else if s.sec.lifeCycle = 4 && !(c.kind = 0 && c.index = 0x1000) then (replied c 0x05 [], s)
  else if !s.callAllowed n c then (replied c 0x03 [], s.security 0xAD c.caller 0 0 0)
  else if badCall c then (replied c 0x06 [], s)
  else
    let r := if c.kind = 1 then s.callWrite n c else s.callRead n c
    (replied c r.1 r.2.1, r.2.2)

/-- Combine a contribution into DATA (R414). -/
def combine (op len v w : Nat) : Nat :=
  match op with
  | 0 => v ||| w
  | 1 => max v w
  | _ => (v + w) % 2 ^ (8 * len)

/-- A broadcast read passes: this node's contribution, if it has one. -/
def State.answerBroadcast (s : State) (n : Nat) (c : HbCall) : HbCall :=
  if badCall c || !s.callAllowed n c || !decide (c.len = 1 ∨ c.len = 2 ∨ c.len = 4 ∨ c.len = 8) || s.responder then c else
  match s.contribution (.ring n c.cls c.caller) c.index c.sub c.len with
  | none => c
  | some w => { c with data := toLe (combine c.op c.len (leAll (c.data.take c.len)) w) c.len ++ c.data.drop c.len, contrib := c.contrib + 1 }

/-- A used call slot at the pass on which this node deals with it: the slot as forwarded, whether it met a collision, and the effect. -/
def State.answerCall (s : State) (n : Nat) (c : HbCall) : HbCall × Bool × State :=
  if !c.ok || !c.used || c.caller = s.hb.addr then (c, false, s)
  else if c.kind = 2 then (s.answerBroadcast n c, false, s)
  else if c.target ≠ s.hb.addr || s.hb.dup then (c, false, s)
  else if c.status ≠ 0 then (c, true, { s with hb := { s.hb with collisions := s.hb.collisions + 1 } })
  else
    let r := s.answerUnicast n c
    (r.1, false, r.2)

/-! ## This device's own calls (R449) -/

/-- The call that carries the next segment of a remote request. -/
def State.remoteCall (s : State) (x : RemoteReq) : HbCall :=
  let r := x.req
  let b := ((mirrorData r).drop x.pos).take 32
  let base : HbCall :=
    { ok := true, rsvd := false, used := true, kind := x.kind, cls := 2, target := if x.kind = 2 then 0 else r.target, caller := s.hb.addr
      index := r.index, sub := r.sub, op := r.op, len := min 32 (r.len - x.pos), offset := r.offset + x.pos, status := 0, tag := x.tag
      data := List.replicate 32 0, contrib := 0, alen := 0 }
  match x.kind with
  | 0 => base
  | 1 => { base with data := padTo 32 b }
  | _ =>
    let own := (s.contribution (.ring 12 2 s.hb.addr) r.index r.sub r.len).getD 0
    { base with status := 1, len := r.len, data := padTo 32 (toLe own r.len) }

/-- Replace the request at the head. -/
def State.setRemote (s : State) (x : RemoteReq) : State :=
  { s with dict := { s.dict with remote := match s.dict.remote with | [] => [] | _ :: t => x :: t } }

/-- The request at the head ends. -/
def State.remoteDone (s : State) (x : RemoteReq) (status detail contrib : Nat) : State :=
  State.requestDone { s with dict := { s.dict with remote := s.dict.remote.drop 1 } } x.secured x.req x.kind
    { tag := x.req.tag.toNat, status, detail, contrib, alen := x.got.length, data := x.got }

/-- The call was void (R413): it is posted again, and the eighth void ends the request (Table 15.4). -/
def State.remoteVoid (s : State) (x : RemoteReq) : State :=
  let s : State := { s with hb := { s.hb with voidCalls := s.hb.voidCalls + 1 } }
  if x.tries = 7 then s.remoteDone { x with got := [] } 0x1D 0 0 else s.setRemote { x with tries := x.tries + 1, posted := none }

/-- The answer in an accepted slot (R449). -/
def State.remoteAnswer (s : State) (x : RemoteReq) (c : HbCall) : State :=
  if c.status = 0x02 then s.setRemote { x with posted := none }
  else if c.status ≠ 0x01 then s.remoteDone x c.status (if c.status = 0x1A then byteAt c.data 0 else 0) 0
  else if x.kind = 2 then s.remoteDone { x with got := c.data.take x.req.len } 0x01 0 c.contrib
  else
    let seg := min 32 (x.req.len - x.pos)
    let x := if x.kind = 0 then { x with got := x.got ++ c.data.take c.alen } else x
    if x.req.len ≤ x.pos + seg || (x.kind = 0 && c.alen < seg) then s.remoteDone x 0x01 0 0
    else
      let s : State := { s with hb := { s.hb with nextTag := (s.hb.nextTag + 1) % 256 } }
      s.setRemote { x with pos := x.pos + seg, tag := (s.hb.nextTag + 255) % 256, tries := 0, posted := none }

/-- Read this device's own call of round `round` in the frame that brings its answer back (R413). -/
def State.readOwn (s : State) (round : Nat) (slots : List HbCall) (void : Bool) : State :=
  match s.dict.remote with
  | x :: _ =>
    (match x.posted with
     | some (r, n) =>
       if r ≠ round then s else
       (match slots[n]? with
        | some c => if void || !c.ok then s.remoteVoid x else s.remoteAnswer x c
        | none => s.remoteVoid x)
     | none => s)
  | [] => s

/-- A call whose second lap has not come four rounds on is void. -/
def State.remoteLate (s : State) (round : Nat) : State :=
  match s.dict.remote with
  | x :: _ => (match x.posted with | some (r, _) => if 4 ≤ (round + 65536 - r) % 65536 then s.remoteVoid x else s | none => s)
  | [] => s

/-- The call to post in free slot `n` of this round, if there is one (Table 14.8). -/
def State.postable (s : State) (n : Nat) : Option RemoteReq :=
  if n < 12 || !s.onRing || s.start.stage = 4 then none
  else match s.dict.remote with
    | x :: _ => if x.posted.isNone then some x else none
    | [] => none

/-- Post the head request's call in slot `n` of round `round`. -/
def State.postRemote (s : State) (round n : Nat) (x : RemoteReq) : HbCall × State := (s.remoteCall x, s.setRemote { x with posted := some (round, n) })

/-! ## Slots in passing -/

/-- What a pass over the slots leaves: the slots forwarded, whether EOF VOID is set, and the state. -/
structure Pass where
  slots : List HbCall
  void : Bool
  st : State
deriving DecidableEq, Repr

/-- Key of a call in `lap1`. -/
def callKey (round n : Nat) : Nat := 32 * round + n

/-- Remember a call as it left this node on the first lap. -/
def State.noteLap1 (s : State) (round n : Nat) (c : HbCall) : State :=
  { s with hb := { s.hb with lap1 := ((callKey round n, c) :: s.hb.lap1).take 72 } }

/-- One slot on the first lap: answered, or taken for an own call (R410, R411). -/
def State.slotLap1 (s : State) (round n : Nat) (c : HbCall) : HbCall × Bool × State :=
  if c.ok && !c.used then
    match s.postable n with
    | some x => let r := s.postRemote round n x; (r.1, false, r.2)
    | none => (c, false, s)
  else if c.ok && c.used then
    let r := s.answerCall n c
    (r.1, r.2.1, r.2.2.noteLap1 round n r.1)
  else (c, false, s)

/-- One slot on the second lap: a call from downstream is answered now; an own answer overwritten since is a collision (R411, R422). -/
def State.slotLap2 (s : State) (round n : Nat) (c : HbCall) : HbCall × Bool × State :=
  match aget (callKey round n) s.hb.lap1 with
  | none => s.answerCall n c
  | some d =>
    let mine := c.ok && c.used && d.kind ≠ 2 && d.target = s.hb.addr && !s.hb.dup && d.caller ≠ s.hb.addr
    if mine && (c.status ≠ d.status || c.data ≠ d.data || c.alen ≠ d.alen) then (c, true, { s with hb := { s.hb with collisions := s.hb.collisions + 1 } })
    else (c, false, s)

/-- Every slot of a lap in word order (R420). -/
def passSlots (lap2 : Bool) (round : Nat) : Nat → List HbCall → State → Pass
  | _, [], s => { slots := [], void := false, st := s }
  | n, c :: t, s =>
    let r := if lap2 then s.slotLap2 round n c else s.slotLap1 round n c
    let p := passSlots lap2 round (n + 1) t r.2.2
    { p with slots := r.1 :: p.slots, void := r.2.1 || p.void }

/-! ## The standing block (R408, R409, R416, R417, R419) -/

/-- Bit `a` of a 32-bit mask. -/
def maskBit (a : Nat) : Word32 := BitVec.ofNat 32 (2 ^ a)

/-- The period floor this device reports (R370, R408). -/
def State.reportedFloor (s : State) : Nat :=
  let ids := (s.sheetCandidates (s.cad.deal + 1)).map (·.2.formId) ++ (match s.dealer.standing with | some x => [x.formId] | none => [])
  let guard := (s.repair.guardNext.map (·.2)).foldl max s.repair.agingGuard
  (s.forms.filter (fun f => ids.contains f.id && s.certified f)).foldl (fun m f => max m (min 160 (s.tmin f + guard))) 40

/-- What this node adds to a standing block. -/
def State.contribute (s : State) (b : HbStanding) : HbStanding :=
  let elig := s.onRing && s.start.stage ≠ 4 && s.dict.settings.eligible ≠ 0
  { b with
    present := b.present ||| maskBit s.hb.addr
    join := if s.joinFlag then b.join ||| maskBit s.hb.addr else b.join
    notSeated := if s.responder then b.notSeated ||| maskBit s.hb.addr else b.notSeated
    stretch := if s.onRing then max b.stretch s.cad.stretchReq else b.stretch
    floor := if s.onRing then max b.floor s.reportedFloor else b.floor
    order := if b.order.length < 32 then b.order ++ [{ bmc := false, elig, addr := s.hb.addr }] else b.order }

/-- The block on the first lap at a node that is not the Banker. -/
def State.passStanding (s : State) (b : HbStanding) : HbStanding × State :=
  if !b.ok then (b, s)
  else if s.hb.dup then (b, s)
  else if b.order.any (fun e => e.addr = s.hb.addr) then (b, State.ringEvent { s with hb := { s.hb with dup := true } } 0x81 s.hb.addr)
  else (s.contribute b, s)

/-! ## Headers -/

/-- A valid first-lap header, whose SOF arrived `delayNs` after its stamp edge. -/
def State.takeHeader (s : State) (h : HbHeader) (delayNs : Nat) : State :=
  State.cadHeader { s with hb := { s.hb with lastHdr := some h, headerPs := s.now } } h (1000 * delayNs)

/-- A first-lap header at this node: counted when void, else read once the Brim runs (R407, R416, R417). -/
def State.passHeader (s : State) (h : HbHeader) (delayNs : Nat) : State :=
  if !headerValid h then { s with hb := { s.hb with voidHeaders := s.hb.voidHeaders + 1 } }
  else if s.onRing then s.takeHeader h delayNs else s

def State.countSymErrs (s : State) (n : Nat) : State := { s with hb := { s.hb with symErrs := s.hb.symErrs + BitVec.ofNat 32 n } }

/-- Remember a first-lap frame forwarded or originated (R593). -/
def State.noteSeen (s : State) (round banker : Nat) : State := { s with hb := { s.hb with seen := ((round, banker) :: s.hb.seen).take 8 } }

/-! ## A node's two laps -/

/-- A frame of another Banker at a Banker: the one with the larger serial stops, and its header is then that of the Banker that goes on (R372, R374, R404). -/
def State.rivalFrame (s : State) (f : HbFrame) : State :=
  if headerValid f.header && f.originOk && decide (f.serial.toNat < s.factory.serial) then
    s.stopBanker.passHeader f.header (f.header.accDelay + s.dict.settings.seg)
  else if headerValid f.header then s else { s with hb := { s.hb with voidHeaders := s.hb.voidHeaders + 1 } }

/-- A first-lap frame at a node that forwards it (R405, R408, R410, R411, R420). -/
def State.forwardFirst (s : State) (f : HbFrame) : State :=
  let h := f.header
  let a := h.accDelay + s.dict.settings.seg
  let s := s.noteSeen h.round h.bankerId
  let s := s.passHeader h a
  let r := s.passStanding f.standing
  let s := r.2.remoteLate h.round
  let p := passSlots false h.round 0 f.slots s
  let out : HbFrame := { f with header := { h with accDelay := min 65535 (a + 320) }, standing := r.1, slots := p.slots, eofVoid := f.eofVoid || p.void, symErrs := 0, dtPs := 0 }
  { p.st with hb := { p.st.hb with out := some out } }

/-- HB_FIRST_LAP_FRAME: a first-lap frame arrives on HB_IN, its start of frame f.dtPs after the last event; its header is judged as of that moment (R29, R32). -/
def execHbFirstLapFrame (f : HbFrame) (s : State) : Out :=
  .next <|
    if !s.board.hbAlive then s else
    let s := (s.advanceTo (s.now + f.dtPs)).countSymErrs f.symErrs
    if s.cascade.isBanker then (if f.header.bankerId = s.hb.addr then s else s.rivalFrame f)
    else if s.hb.seen.contains (f.header.round, f.header.bankerId) then { s with hb := { s.hb with out := none } }
    else s.forwardFirst f

/-- A second-lap frame at a node that forwards it (R409, R411, R413, R422). -/
def State.forwardSecond (s : State) (f : HbFrame) : State :=
  let round := f.header.round
  let s : State := if f.standing.ok then { s with hb := { s.hb with order := f.standing.order, present := f.standing.present } } else s
  let p := passSlots true round 0 f.slots s
  let void := !f.header.ok || f.header.void || f.eofVoid || p.void
  let s := p.st.readOwn round f.slots void
  { s with hb := { s.hb with out := some { f with slots := p.slots, eofVoid := f.eofVoid || p.void, symErrs := 0, dtPs := 0 } } }

/-- HB_SECOND_LAP_FRAME: a second-lap frame arrives on HB_IN; at the Banker its EOF may bring a collision found on the second lap. -/
def execHbSecondLapFrame (f : HbFrame) (s : State) : Out :=
  .next <|
    if !s.board.hbAlive then s else
    let s := s.countSymErrs f.symErrs
    if s.cascade.isBanker then
      let s := if f.header.bankerId = s.hb.addr && f.eofVoid && !s.hb.voided.contains f.header.round then s.ringEvent 0x85 0 else s
      { s with hb := { s.hb with out := none } }
    else s.forwardSecond f

/-- A call in slot `slot` meets this node: its answer is kept. -/
def State.meetCall (s : State) (slot : Nat) (c : HbCall) : State :=
  if !s.board.hbAlive then s else
  let r := s.answerCall slot c
  { r.2.2 with hb := { r.2.2.hb with answers := aset slot r.1 r.2.2.hb.answers } }

/-- HB_READ: a unicast read call (R411, R415). -/
def execHbRead (slot : Nat) (call : HbCall) (s : State) : Out := .next (s.meetCall slot { call with kind := 0 })

/-- HB_WRITE: a unicast write call (R411, R412). -/
def execHbWrite (slot : Nat) (call : HbCall) (s : State) : Out := .next (s.meetCall slot { call with kind := 1 })

/-- HB_BROADCAST_READ: a broadcast read passes (R414). -/
def execHbBroadcastRead (slot : Nat) (call : HbCall) (s : State) : Out := .next (s.meetCall slot { call with kind := 2 })

/-- SLOW_ENTRY_PREPARED: 1 ms after the first PASS the whole entry stands prepared (R415). -/
def execSlowEntryPrepared (index sub : Nat) (s : State) : Out :=
  .next <|
    match s.dict.slow.find? (fun x => x.index = index && x.sub = sub), odEntry index sub with
    | some x, some e =>
      if x.copy.isSome then s else
      let s := s.advanceTo (x.firstPs + 1000000000)
      let v := s.odValue e index sub
      s.setSlow (s.dict.slow.map (fun x => if x.index = index && x.sub = sub then { x with copy := some v } else x))
    | _, _ => s

/-! ## The Banker's generator (R369, R370, R378) -/

/-- Length of the running deal or lead-in, in ps. -/
def Cascade.dealPs (c : Cascade) : Nat := 1000 * max 1 (c.genLen * c.genPeriod)

/-- The length plan for the deal whose mark is at `mark`: the last write accepted more than 16 µs before (R369). -/
def Cascade.planAt (c : Cascade) (mark : Nat) : Nat := (c.lenPlan.filter (fun w => decide (w.2 + 16000000 < mark))).foldl (fun _ w => w.1) c.planLen

/-- The next mark has passed: the next deal runs with what was announced for it. -/
def Cascade.genMark (c : Cascade) : Cascade :=
  let mark := c.genPs + c.dealPs
  { c with
    genDeal := c.genDeal + 1, genLen := c.nextLen, genPeriod := c.nextPeriod, genPs := mark, leadIn := false
    planLen := c.planAt mark, lenPlan := c.lenPlan.filter (fun w => !decide (w.2 + 16000000 < mark)) }

/-- The generator at time `t`: one mark, and further whole deals of the same length and period. -/
def Cascade.genTo (c : Cascade) (t : Nat) : Cascade :=
  if t < c.genPs + c.dealPs then c else
  let c := c.genMark
  let k := (t - c.genPs) / c.dealPs
  { c with genDeal := c.genDeal + k, genPs := c.genPs + k * c.dealPs }

/-- Announce NEXT_LEN and NEXT_PERIOD, frozen from 8 µs before the mark; a lead-in announces the length it took over (R29, R369, R370, R378). -/
def State.announce (s : State) : State :=
  let c := s.cascade
  let mark := c.genPs + c.dealPs
  if mark ≤ s.now + 8000000 then s else
  { s with cascade := { c with
    nextLen := if c.leadIn then c.nextLen else c.planAt mark
    nextPeriod := min 160 (max 40 (max s.dict.settings.periodPlan (max s.hb.floor s.hb.stretch))) } }

/-- The header of round `round`, stamped with the last BEAT edge driven (R27, R405). -/
def State.originHeader (s : State) (round : Nat) : HbHeader :=
  let c := s.cascade
  let since := (s.now - c.genPs) / 1000
  { ok := true, rsvd := false, round, curDeal := c.genDeal, stampTrick := since / max 1 c.genPeriod, curPeriod := c.genPeriod
    nextLen := c.nextLen, nextPeriod := c.nextPeriod, stretchPend := decide (c.genPeriod < s.hb.stretch), bankerId := s.hb.addr, void := false
    accDelay := since % max 1 c.genPeriod }

/-! ## Admission (R371) -/

/-- The deal at whose mark a node admitted now may enter: the next, when its mark leaves the call time to arrive, else the one after. -/
def State.admitDeal (s : State) : Nat :=
  if s.now + 48000000 ≤ s.cascade.genPs + s.cascade.dealPs then s.cascade.genDeal + 1 else s.cascade.genDeal + 2

/-- Nodes whose join flag was seen and that hold no join mark still to come. -/
def State.toAdmit (s : State) : List Nat := (maskBits s.hb.join 32).filter (fun a => a ≠ s.hb.addr && !s.hb.admitted.any (·.1 = a))

def freeCall : HbCall :=
  { ok := true, rsvd := false, used := false, kind := 0, cls := 0, target := 0, caller := 0, index := 0, sub := 0, op := 0, len := 0, offset := 0, status := 0, tag := 0
    data := List.replicate 32 0, contrib := 0, alen := 0 }

/-- The join-mark call to node `a`: OD 0x2500.09. -/
def State.joinCall (s : State) (a deal : Nat) : HbCall :=
  { freeCall with used := true, kind := 1, target := a, caller := s.hb.addr, index := 0x2500, sub := 0x09, len := 8, tag := s.hb.nextTag, data := padTo 32 (toLe deal 8) }

/-- Up to six join marks into slots 0 to 5. -/
def State.admitCalls (s : State) : List HbCall × State :=
  let d := s.admitDeal
  ((s.toAdmit).take 6).foldl (fun (acc : List HbCall × State) a =>
    let s := acc.2
    (acc.1 ++ [s.joinCall a d], { s with hb := { s.hb with nextTag := (s.hb.nextTag + 1) % 256, admitted := s.hb.admitted ++ [(a, d)] } })) ([], s)

/-- The Banker admits itself through its own intake. -/
def State.admitSelf (s : State) : State :=
  if s.joinFlag && !s.hb.admitted.any (·.1 = s.hb.addr) then
    let d := s.admitDeal
    (State.joinWrite { s with hb := { s.hb with admitted := s.hb.admitted ++ [(s.hb.addr, d)] } } d).2.2
  else s

/-! ## Origin (R402, R408, R596) -/

/-- The Banker's next round, 8 µs after its last; a handover ends the rounds instead (R376, R402). -/
def State.originate (s : State) : State :=
  let s := s.advanceTo (match s.hb.roundPs with | some t => t + 8000000 | none => s.cascade.genPs)
  let s : State := { s with cascade := s.cascade.genTo s.now }
  let s := s.announce
  let s : State := { s with hb := { s.hb with admitted := s.hb.admitted.filter (fun x => decide (s.cascade.genDeal < x.2)) } }
  let round := s.hb.round
  let h := s.originHeader round
  let block := s.contribute { ok := true, present := 0, join := 0, notSeated := 0, stretch := 0, floor := 0, order := [] }
  let r := s.admitSelf.admitCalls
  let s := r.2.remoteLate round
  let slots := (r.1 ++ List.replicate 18 freeCall).take 18
  let own : HbCall × State := match s.postable 12 with | some x => s.postRemote round 12 x | none => (freeCall, s)
  let s := own.2
  let f : HbFrame := { header := h, standing := block, slots := slots.set 12 own.1, serial := BitVec.ofNat 64 s.factory.serial, originOk := true, eofVoid := false, symErrs := 0 }
  let s := s.noteSeen round s.hb.addr
  { s with hb := { s.hb with
    round := (round + 1) % 65536, roundPs := some s.now, out := some f, sent := (s.hb.sent ++ [(round, s.now, h.accDelay)]).drop (s.hb.sent.length - 7) } }

/-- ROUND_ORIGIN (R402). -/
def execRoundOrigin (s : State) : Out :=
  .next <|
    if !s.board.hbAlive || !s.cascade.isBanker || s.cascade.syncWait then s
    else if s.cascade.handoverTo.isSome then s.stopBanker
    else s.originate

/-! ## Return (R403 to R406, R408, R413, R421 to R424) -/

/-- The lag of a lap delay in ns. -/
def lagOf (dr : Nat) : Nat := (dr - 4000 + 7999) / 8000

/-- Dr and j; j never falls. -/
def State.measureLap (s : State) (dr : Nat) : State := { s with hb := { s.hb with dr, lag := max s.hb.lag (lagOf dr) } }

/-- The closure difference of a valid header (R406). -/
def State.checkClosure (s : State) (h : HbHeader) (origin delayNs : Nat) : State :=
  let diff : Int := (h.accDelay + s.dict.settings.seg : Int) - (origin + delayNs : Int)
  let bad := decide (16 < diff.natAbs)
  let first := bad && !s.hb.closureBad
  let s : State := { s with hb := { s.hb with closure := diff, closureBad := bad } }
  if first then s.ringEvent 0x80 0 else s

/-- One node's PRESENT bit in a valid returned block: present again, or missing once more (R423). -/
def State.notePresent (s : State) (present : Word32) (a : Nat) : State :=
  if present.getLsbD a then
    let back := s.hb.lost.getLsbD a
    let s : State := { s with hb := { s.hb with known := s.hb.known ||| maskBit a, missing := s.hb.missing.filter (·.1 ≠ a), lost := s.hb.lost &&& ~~~ maskBit a } }
    if back then s.ringEvent 0x83 a else s
  else if s.hb.known.getLsbD a then { s with hb := { s.hb with missing := aset a ((aget a s.hb.missing).getD 0 + 1) s.hb.missing } }
  else s

/-- The returned standing block, when it is valid (R370, R371, R408, R423). -/
def State.readStanding (s : State) (b : HbStanding) : State :=
  if !b.ok then s else
  let s : State := { s with hb := { s.hb with stretch := b.stretch, floor := b.floor, join := b.join, order := b.order, present := b.present } }
  (List.range 32).foldl (fun s a => s.notePresent b.present a) s

/-- A join mark whose write was not answered OK does not stand (R371). -/
def State.readAdmission (s : State) (slots : List HbCall) (void : Bool) : State :=
  (slots.take 6).foldl (fun s c =>
    if c.used && c.kind = 1 && c.index = 0x2500 && c.sub = 0x09 && (void || !c.ok || c.status ≠ 0x01) then
      { s with hb := { s.hb with admitted := s.hb.admitted.filter (·.1 ≠ c.target), voidCalls := if void || !c.ok then s.hb.voidCalls + 1 else s.hb.voidCalls } }
    else s) s

/-- Some section the frame returned with is bad; the origin block voids nothing (R404, R596). -/
def frameBad (f : HbFrame) : Bool := f.eofVoid || !f.header.ok || !f.standing.ok || f.slots.any (fun c => !c.ok)

/-- A first-lap frame has returned in time: the Banker's own arrival and the second lap (R404). -/
def State.returned (s : State) (f : HbFrame) (origin delayNs : Nat) : State :=
  let h := f.header
  let lag := s.hb.lag
  let s := s.measureLap delayNs
  let late := decide (lag < s.hb.lag)
  let s := if headerValid h then s.checkClosure h origin delayNs else s
  let s := s.passHeader h (h.accDelay + s.dict.settings.seg)
  let s := s.readStanding f.standing
  let s : State := { s with hb := { s.hb with broken := false } }
  let s := if f.eofVoid then s.ringEvent 0x85 0 else s
  let void := frameBad f
  let p := if late then { slots := f.slots, void := false, st := s : Pass } else passSlots true h.round 0 f.slots s
  let s := if p.void && !f.eofVoid then p.st.ringEvent 0x85 0 else p.st
  let lost := void || late || p.void
  let s := (s.readOwn h.round f.slots lost).readAdmission f.slots lost
  let out : HbFrame := { f with header := { h with void := h.void || void }, slots := p.slots, eofVoid := f.eofVoid || p.void, symErrs := 0, dtPs := 0 }
  { s with hb := { s.hb with out := if late then none else some out, voided := if out.eofVoid && !late then (h.round :: s.hb.voided).take 8 else s.hb.voided } }

/-- FRAME_RETURN: a frame of a round this Banker originated comes back `delayNs` after its origin; past 16 µs it counts as not returned (R424). -/
def execFrameReturn (f : HbFrame) (delayNs : Nat) (s : State) : Out :=
  .next <|
    if !s.board.hbAlive || !s.cascade.isBanker then s else
    let s := s.countSymErrs f.symErrs
    match s.hb.sent.find? (fun x => x.1 = f.header.round) with
    | none => s
    | some x =>
      if 16000 < delayNs then s else
      let s := s.advanceTo (x.2.1 + 1000 * delayNs)
      State.returned { s with hb := { s.hb with sent := s.hb.sent.filter (fun y => decide (x.2.1 < y.2.1)) } } f x.2.2 delayNs

/-- NODE_LOST: three consecutive valid standing blocks lack the node (R423). -/
def execNodeLost (addr : Nat) (s : State) : Out :=
  .next <|
    if s.cascade.isBanker && decide (3 ≤ (aget addr s.hb.missing).getD 0) && !s.hb.lost.getLsbD addr then
      State.ringEvent { s with hb := { s.hb with lost := s.hb.lost ||| maskBit addr } } 0x82 addr
    else s

/-- RING_BREAK: three consecutive rounds have not returned (R424). -/
def execRingBreak (s : State) : Out :=
  .next <|
    if s.cascade.isBanker && !s.hb.broken && decide (3 ≤ (s.hb.sent.filter (fun x => decide (x.2.1 + 16000000 < s.now))).length) then
      State.ringEvent { s with hb := { s.hb with broken := true } } 0x84 0
    else s

end Sys2Proof.Machine
end

