-- ==== Sys2Proof/Machine/HostIf.lean ====
section
/-!
DEFINITION. Machine/HostIf.lean: function registers, ring heads, interrupts and Function Level Reset (R539 to R544, R551 to R557).
-/
namespace Sys2Proof.Machine

/-! ## Rings that make room (R553, R557) -/

/-- Held events go into the ring while it has room. -/
def drainEvents (f : Nat) : Nat → Fn → Fn
  | 0, x => x
  | n + 1, x =>
    match x.evHeld with
    | [] => x
    | e :: t => if ringCount 2048 x.evTail x.evHead < 2047 then drainEvents f n ({ x with evHeld := t }.putEvent f e) else x

/-- LOST, with the count of dropped events and the SEQ of the first (R555, R557). -/
def lostRec (x : Fn) : EvRec :=
  { seq := 0, cls := 0x12, cause := 0, detail := 0, remote := false, deal := 0, member := 0, w0 := 0, w1 := 0, w2 := x.lostRun, w3 := x.lostFirst.toNat }

/-- Room has returned: LOST first, then the held events. -/
def Fn.refillEvents (x : Fn) (f : Nat) : Fn :=
  let x := if 0 < x.lostRun && ringCount 2048 x.evTail x.evHead < 2047 then { x.putEvent f (lostRec x) with lostRun := 0, lostFirst := 0 } else x
  if 0 < x.lostRun then x else drainEvents f x.evHeld.length x

/-- EV_HEAD: the next record the host reads; a head past the tail is no head and changes nothing (log entry 31). -/
def execEvHead (fn head : Nat) (s : State) : Out :=
  let x := s.fn fn
  .next <|
    if ringCount 2048 x.evTail x.evHead < ringCount 2048 head x.evHead then s
    else s.setFn fn (({ x with evHead := head % 2048 } : Fn).refillEvents fn)

/-- Held completions go into the ring while it has room (R553). -/
def drainCpls (f : Nat) : Nat → Fn → Fn
  | 0, x => x
  | n + 1, x =>
    match x.cplHeld with
    | [] => x
    | r :: t => if ringCount 1024 x.cplTail x.cplHead < 1023 then drainCpls f n ({ x with cplHeld := t }.putCpl f r.1 r.2) else x

/-- CPL_HEAD: as EV_HEAD, for completions. -/
def execCplHead (fn head : Nat) (s : State) : Out :=
  let x := s.fn fn
  .next <|
    if ringCount 1024 x.cplTail x.cplHead < ringCount 1024 head x.cplHead then s
    else s.setFn fn (drainCpls fn x.cplHeld.length { x with cplHead := head % 1024 })

/-! ## Registers (Tables 19.2 to 19.4) -/

/-- CMD_DB: a tail that would make the ring hold more than 63 is discarded and sets ERR [0] (R542). -/
def State.cmdDoorbell (s : State) (fn v : Nat) : State :=
  let x := s.fn fn
  if s.devStage ≠ 2 then s.doorbellEarly fn
  else if 63 < v || 63 < ringCount 64 x.cmdTail x.cmdHead + ringCount 64 v x.cmdTail then s.setFn fn { x with err := x.err ||| 1 }
  else s.setFn fn { x with cmdTail := v }

/-- A session's vector register (R551), for a function that may act for its account. -/
def State.setSessionVec (s : State) (fn key v : Nat) : State :=
  match aget key s.video.sessions with
  | none => s
  | some x => if s.acts fn x.account then { s with video := { s.video with sessions := aset key { x with vec := v } s.video.sessions } } else s

/-- REGISTER_WRITE: ERR (write 1 to clear), the aperture, CMD_DB, the MSI-X table and the vector registers; a write to any other offset, or to a region the function may not use, is discarded (R2, R541). -/
def execRegisterWrite (fn offset : Nat) (value : Word64) (s : State) : Out :=
  let x := s.fn fn
  let v := value.toNat
  .next <|
    if offset = 0x028 then s.setFn fn { x with err := x.err &&& ~~~(value.setWidth 4) }
    else if offset = 0x030 then s.setFn fn { x with apAcct := v % 4096, apValid := bit v 15 }
    else if offset = 0x038 then s.setFn fn { x with apBase := v % 2 ^ 48 / bar2Size * bar2Size }
    else if offset = 0x1000 then s.cmdDoorbell fn (v % 2 ^ 32)
    else if 0x8000 ≤ offset && offset < 0x8000 + 16 * msixSize fn && offset % 8 = 0 then
      s.setFn fn { x with msixTable := aset ((offset - 0x8000) / 8) value x.msixTable }
    else if 0x180000 ≤ offset && offset < 0x181000 && offset % 64 = 0x24 then
      let q := (offset - 0x180000) / 64
      if s.seesQueue fn q then s.setQueue q { s.queue q with vec := v % 2 ^ 32 } else s
    else if 0x200000 ≤ offset && offset < 0x204000 && offset % 64 = 4 then s.setSessionVec fn ((offset - 0x200000) / 64) (v % 2 ^ 32)
    else s

/-- MSI_X_RAISE: a vector that is due is raised, at most once per 2 µs, for every record written since its last raise (R544). -/
def execMsiXRaise (fn vector : Nat) (s : State) : Out :=
  let x := s.fn fn
  .next <|
    if !x.msixDue.contains vector then s else
    let s := match aget vector x.msixLast with
      | some t => s.advanceTo (t + 2000000)
      | none => s
    s.setFn fn { x with msixDue := sdel vector x.msixDue, msixLast := aset vector s.now x.msixLast, msixRaised := x.msixRaised + 1 }

/-! ## Function Level Reset (R539) -/

/-- Queues bound to an account of the function. -/
def State.queuesOf (s : State) (f : Nat) : List Nat :=
  (s.ldma.filter (fun x => match x.2.account with | some a => s.boundFn a = f | none => false)).map (·.1)

/-- Completions of the sheets PF0 has handed over are discarded; the sheets stand. -/
def State.muteSheets (s : State) : State :=
  let mute := fun (p : Option Plan) => p.map (fun p => { p with owed := none })
  { s with
    host := { s.host with sheetStat := [], sheetMute := s.host.sheetBusy }
    dealer := { s.dealer with
      sheets := s.dealer.sheets.map (fun x => { x with mute := true })
      selected := mute s.dealer.selected, running := mute s.dealer.running, redeal := mute s.dealer.redeal } }

/-- FLR: the function's rings and registers are emptied, its queues stop with HALTED, and completions of its commands are discarded; nothing else changes. -/
def execFlr (fn : Nat) (s : State) : Out :=
  .next <|
    let s := ((s.queuesOf fn).filter (fun q => !(s.queue q).stopped)).foldl (fun s q => s.stopQueue q 0x09 0) s
    let s := s.setFn fn { epoch := (s.fn fn).epoch + 1 }
    if fn = 0 then s.muteSheets else s

end Sys2Proof.Machine
end

