-- ==== Sys2Proof/Machine/Dispatch.lean ====
section
/-! DEFINITION. Machine/Dispatch.lean: one arm per command, each one direct call of its meaning. -/
namespace Sys2Proof.Machine

/-- The effect of a command on everything but the queue. -/
def exec (i : Instr) (s : State) : Host.Outcome State Fault Refusal :=
  match i with
  | .beatEdge a1 => Sys2Proof.Machine.execBeatEdge a1 s
  | .flywheelEdge => Sys2Proof.Machine.execFlywheelEdge s
  | .beatLoss => Sys2Proof.Machine.execBeatLoss s
  | .dealMark a1 => Sys2Proof.Machine.execDealMark a1 s
  | .loadHintRise => Sys2Proof.Machine.execLoadHintRise s
  | .seamStart => Sys2Proof.Machine.execSeamStart s
  | .drainEnd => Sys2Proof.Machine.execDrainEnd s
  | .dealDecision => Sys2Proof.Machine.execDealDecision s
  | .repairCheckDone a1 a2 => Sys2Proof.Machine.execRepairCheckDone a1 a2 s
  | .sheetDb a1 a2 a3 => Sys2Proof.Machine.execSheetDb a1 a2 a3 s
  | .sheetArrival a1 => Sys2Proof.Machine.execSheetArrival a1 s
  | .sheetCutoff => Sys2Proof.Machine.execSheetCutoff s
  | .seat a1 => Sys2Proof.Machine.execSeat a1 s
  | .hold a1 => Sys2Proof.Machine.execHold a1 s
  | .release a1 => Sys2Proof.Machine.execRelease a1 s
  | .clear a1 => Sys2Proof.Machine.execClear a1 s
  | .readSeat a1 => Sys2Proof.Machine.execReadSeat a1 s
  | .abort a1 => Sys2Proof.Machine.execAbort a1 s
  | .formLoad a1 a2 => Sys2Proof.Machine.execFormLoad a1 a2 s
  | .formUnload a1 => Sys2Proof.Machine.execFormUnload a1 s
  | .unloadEffect a1 => Sys2Proof.Machine.execUnloadEffect a1 s
  | .context a1 => Sys2Proof.Machine.execContext a1 s
  | .invalidate a1 => Sys2Proof.Machine.execInvalidate a1 s
  | .invalidateDone a1 => Sys2Proof.Machine.execInvalidateDone a1 s
  | .qbind a1 => Sys2Proof.Machine.execQbind a1 s
  | .audit a1 => Sys2Proof.Machine.execAudit a1 s
  | .program a1 a2 => Sys2Proof.Machine.execProgram a1 a2 s
  | .pass a1 => Sys2Proof.Machine.execPass a1 s
  | .imageDelete a1 => Sys2Proof.Machine.execImageDelete a1 s
  | .openSession a1 => Sys2Proof.Machine.execOpenSession a1 s
  | .closeSession a1 => Sys2Proof.Machine.execCloseSession a1 s
  | .sessionDrained a1 a2 => Sys2Proof.Machine.execSessionDrained a1 a2 s
  | .abandon a1 => Sys2Proof.Machine.execAbandon a1 s
  | .forceKey a1 => Sys2Proof.Machine.execForceKey a1 s
  | .rate a1 => Sys2Proof.Machine.execRate a1 s
  | .poolMark a1 => Sys2Proof.Machine.execPoolMark a1 s
  | .decodeCmd a1 => Sys2Proof.Machine.execDecodeCmd a1 s
  | .decodeFrameDone a1 a2 a3 => Sys2Proof.Machine.execDecodeFrameDone a1 a2 a3 s
  | .sliceDone a1 a2 => Sys2Proof.Machine.execSliceDone a1 a2 s
  | .bsRead a1 a2 a3 a4 => Sys2Proof.Machine.execBsRead a1 a2 a3 a4 s
  | .engineDefect a1 => Sys2Proof.Machine.execEngineDefect a1 s
  | .engineResetDone a1 => Sys2Proof.Machine.execEngineResetDone a1 s
  | .poolEntryWrite a1 a2 a3 a4 => Sys2Proof.Machine.execPoolEntryWrite a1 a2 a3 a4 s
  | .mma a1 a2 a3 a4 => Sys2Proof.Machine.execMma a1 a2 a3 a4 s
  | .mzero a1 a2 a3 => Sys2Proof.Machine.execMzero a1 a2 a3 s
  | .vadd a1 a2 a3 => Sys2Proof.Machine.execVadd a1 a2 a3 s
  | .vsub a1 a2 a3 => Sys2Proof.Machine.execVsub a1 a2 a3 s
  | .vmul a1 a2 a3 => Sys2Proof.Machine.execVmul a1 a2 a3 s
  | .vfma a1 a2 a3 => Sys2Proof.Machine.execVfma a1 a2 a3 s
  | .vmax a1 a2 a3 => Sys2Proof.Machine.execVmax a1 a2 a3 s
  | .vmin a1 a2 a3 => Sys2Proof.Machine.execVmin a1 a2 a3 s
  | .vabs a1 a2 a3 => Sys2Proof.Machine.execVabs a1 a2 a3 s
  | .vneg a1 a2 a3 => Sys2Proof.Machine.execVneg a1 a2 a3 s
  | .vcvt a1 a2 a3 => Sys2Proof.Machine.execVcvt a1 a2 a3 s
  | .vcmplt a1 a2 a3 => Sys2Proof.Machine.execVcmplt a1 a2 a3 s
  | .vcmpeq a1 a2 a3 => Sys2Proof.Machine.execVcmpeq a1 a2 a3 s
  | .vsel a1 a2 a3 => Sys2Proof.Machine.execVsel a1 a2 a3 s
  | .vqmx a1 a2 a3 => Sys2Proof.Machine.execVqmx a1 a2 a3 s
  | .vand a1 a2 a3 => Sys2Proof.Machine.execVand a1 a2 a3 s
  | .vor a1 a2 a3 => Sys2Proof.Machine.execVor a1 a2 a3 s
  | .sfn a1 a2 a3 => Sys2Proof.Machine.execSfn a1 a2 a3 s
  | .sfuse a1 a2 a3 => Sys2Proof.Machine.execSfuse a1 a2 a3 s
  | .sstat a1 a2 a3 => Sys2Proof.Machine.execSstat a1 a2 a3 s
  | .smerge a1 a2 a3 => Sys2Proof.Machine.execSmerge a1 a2 a3 s
  | .smask a1 a2 a3 => Sys2Proof.Machine.execSmask a1 a2 a3 s
  | .lmov a1 a2 a3 a4 => Sys2Proof.Machine.execLmov a1 a2 a3 a4 s
  | .lgath a1 a2 a3 a4 => Sys2Proof.Machine.execLgath a1 a2 a3 a4 s
  | .lscat a1 a2 a3 a4 => Sys2Proof.Machine.execLscat a1 a2 a3 a4 s
  | .lda a1 a2 a3 => Sys2Proof.Machine.execLda a1 a2 a3 s
  | .wstream a1 a2 a3 => Sys2Proof.Machine.execWstream a1 a2 a3 s
  | .xput a1 a2 a3 => Sys2Proof.Machine.execXput a1 a2 a3 s
  | .xcast a1 a2 a3 => Sys2Proof.Machine.execXcast a1 a2 a3 s
  | .xdeck a1 a2 a3 => Sys2Proof.Machine.execXdeck a1 a2 a3 s
  | .nop a1 a2 => Sys2Proof.Machine.execNop a1 a2 s
  | .repeatFrame a1 a2 a3 => Sys2Proof.Machine.execRepeatFrame a1 a2 a3 s
  | .repeatIteration a1 => Sys2Proof.Machine.execRepeatIteration a1 s
  | .seta a1 a2 a3 a4 => Sys2Proof.Machine.execSeta a1 a2 a3 a4 s
  | .adda a1 a2 a3 a4 => Sys2Proof.Machine.execAdda a1 a2 a3 a4 s
  | .addid a1 a2 a3 a4 a5 => Sys2Proof.Machine.execAddid a1 a2 a3 a4 a5 s
  | .region a1 a2 a3 => Sys2Proof.Machine.execRegion a1 a2 a3 s
  | .rfree a1 a2 a3 a4 => Sys2Proof.Machine.execRfree a1 a2 a3 a4 s
  | .markTrace a1 a2 a3 => Sys2Proof.Machine.execMarkTrace a1 a2 a3 s
  | .rwait a1 a2 a3 a4 => Sys2Proof.Machine.execRwait a1 a2 a3 a4 s
  | .endProgram a1 a2 => Sys2Proof.Machine.execEndProgram a1 a2 s
  | .instructionComplete a1 => Sys2Proof.Machine.execInstructionComplete a1 s
  | .tileLanding a1 a2 => Sys2Proof.Machine.execTileLanding a1 a2 s
  | .memoryItemComplete a1 a2 => Sys2Proof.Machine.execMemoryItemComplete a1 a2 s
  | .auditWindowStart => Sys2Proof.Machine.execAuditWindowStart s
  | .auditCompare a1 a2 => Sys2Proof.Machine.execAuditCompare a1 a2 s
  | .bistDone a1 => Sys2Proof.Machine.execBistDone a1 s
  | .storeEcc a1 a2 a3 => Sys2Proof.Machine.execStoreEcc a1 a2 a3 s
  | .linkParity a1 a2 a3 => Sys2Proof.Machine.execLinkParity a1 a2 a3 s
  | .gatewayParity a1 a2 => Sys2Proof.Machine.execGatewayParity a1 a2 s
  | .tableEcc a1 a2 a3 a4 => Sys2Proof.Machine.execTableEcc a1 a2 a3 a4 s
  | .sfuParity a1 a2 a3 => Sys2Proof.Machine.execSfuParity a1 a2 a3 s
  | .vaultPort a1 a2 => Sys2Proof.Machine.execVaultPort a1 a2 s
  | .hubDefect => Sys2Proof.Machine.execHubDefect s
  | .droop a1 a2 => Sys2Proof.Machine.execDroop a1 a2 s
  | .hbmUncorrectable a1 => Sys2Proof.Machine.execHbmUncorrectable a1 s
  | .scReadRequest a1 a2 => Sys2Proof.Machine.execScReadRequest a1 a2 s
  | .scWriteRequest a1 a2 => Sys2Proof.Machine.execScWriteRequest a1 a2 s
  | .kittyEviction a1 a2 => Sys2Proof.Machine.execKittyEviction a1 a2 s
  | .fetchInvalidate a1 a2 => Sys2Proof.Machine.execFetchInvalidate a1 a2 s
  | .bar2Read a1 a2 a3 => Sys2Proof.Machine.execBar2Read a1 a2 a3 s
  | .bar2Write a1 a2 a3 => Sys2Proof.Machine.execBar2Write a1 a2 a3 s
  | .ldmaDb a1 a2 a3 a4 => Sys2Proof.Machine.execLdmaDb a1 a2 a3 a4 s
  | .looseDmaDescriptor a1 a2 a3 => Sys2Proof.Machine.execLooseDmaDescriptor a1 a2 a3 s
  | .looseDmaStop a1 => Sys2Proof.Machine.execLooseDmaStop a1 s
  | .resume a1 a2 a3 => Sys2Proof.Machine.execResume a1 a2 a3 s
  | .skip a1 a2 => Sys2Proof.Machine.execSkip a1 a2 s
  | .halt a1 a2 => Sys2Proof.Machine.execHalt a1 a2 s
  | .pcieWindowWrite a1 a2 a3 => Sys2Proof.Machine.execPcieWindowWrite a1 a2 a3 s
  | .windowChangeEffect a1 => Sys2Proof.Machine.execWindowChangeEffect a1 s
  | .openWindowStart => Sys2Proof.Machine.execOpenWindowStart s
  | .openProgramStart => Sys2Proof.Machine.execOpenProgramStart s
  | .openWindowEnd => Sys2Proof.Machine.execOpenWindowEnd s
  | .keyLoad a1 a2 => Sys2Proof.Machine.execKeyLoad a1 a2 s
  | .keyUnload a1 a2 => Sys2Proof.Machine.execKeyUnload a1 a2 s
  | .keySlotUpdate a1 => Sys2Proof.Machine.execKeySlotUpdate a1 s
  | .passHeader a1 => Sys2Proof.Machine.execPassHeader a1 s
  | .passRecord a1 a2 => Sys2Proof.Machine.execPassRecord a1 a2 s
  | .passStreamEnd a1 => Sys2Proof.Machine.execPassStreamEnd a1 s
  | .passEndReport a1 => Sys2Proof.Machine.execPassEndReport a1 s
  | .vaultScrub a1 a2 a3 => Sys2Proof.Machine.execVaultScrub a1 a2 a3 s
  | .tableSlotWrite a1 a2 a3 => Sys2Proof.Machine.execTableSlotWrite a1 a2 a3 s
  | .tableSlotUpdate a1 => Sys2Proof.Machine.execTableSlotUpdate a1 s
  | .hbFirstLapFrame a1 => Sys2Proof.Machine.execHbFirstLapFrame a1 s
  | .hbSecondLapFrame a1 => Sys2Proof.Machine.execHbSecondLapFrame a1 s
  | .hbRead a1 a2 => Sys2Proof.Machine.execHbRead a1 a2 s
  | .hbWrite a1 a2 => Sys2Proof.Machine.execHbWrite a1 a2 s
  | .hbBroadcastRead a1 a2 => Sys2Proof.Machine.execHbBroadcastRead a1 a2 s
  | .roundOrigin => Sys2Proof.Machine.execRoundOrigin s
  | .frameReturn a1 a2 => Sys2Proof.Machine.execFrameReturn a1 a2 s
  | .nodeLost a1 => Sys2Proof.Machine.execNodeLost a1 s
  | .ringBreak => Sys2Proof.Machine.execRingBreak s
  | .slowEntryPrepared a1 a2 => Sys2Proof.Machine.execSlowEntryPrepared a1 a2 s
  | .snapshotLapse a1 a2 a3 => Sys2Proof.Machine.execSnapshotLapse a1 a2 a3 s
  | .stagingTimeout a1 a2 a3 => Sys2Proof.Machine.execStagingTimeout a1 a2 a3 s
  | .mirrorRead a1 => Sys2Proof.Machine.execMirrorRead a1 s
  | .mirrorWrite a1 => Sys2Proof.Machine.execMirrorWrite a1 s
  | .mirrorBroadcastRead a1 => Sys2Proof.Machine.execMirrorBroadcastRead a1 s
  | .tapAccess a1 => Sys2Proof.Machine.execTapAccess a1 s
  | .dictionaryWrite a1 => Sys2Proof.Machine.execDictionaryWrite a1 s
  | .storeLayer a1 a2 => Sys2Proof.Machine.execStoreLayer a1 a2 s
  | .storeComplete a1 a2 => Sys2Proof.Machine.execStoreComplete a1 a2 s
  | .restoreLayer a1 a2 => Sys2Proof.Machine.execRestoreLayer a1 a2 s
  | .accountCounterClear a1 a2 a3 => Sys2Proof.Machine.execAccountCounterClear a1 a2 a3 s
  | .houseCounterClear a1 a2 => Sys2Proof.Machine.execHouseCounterClear a1 a2 s
  | .accountBinding a1 a2 => Sys2Proof.Machine.execAccountBinding a1 a2 s
  | .logClear a1 a2 => Sys2Proof.Machine.execLogClear a1 a2 s
  | .joinMark a1 a2 => Sys2Proof.Machine.execJoinMark a1 a2 s
  | .handover a1 a2 => Sys2Proof.Machine.execHandover a1 a2 s
  | .groupBinding a1 a2 => Sys2Proof.Machine.execGroupBinding a1 a2 s
  | .bindingEffect => Sys2Proof.Machine.execBindingEffect s
  | .bankerElectionTimeout => Sys2Proof.Machine.execBankerElectionTimeout s
  | .bankerTakeover a1 => Sys2Proof.Machine.execBankerTakeover a1 s
  | .refInLoss => Sys2Proof.Machine.execRefInLoss s
  | .syncIn => Sys2Proof.Machine.execSyncIn s
  | .linkTrained a1 => Sys2Proof.Machine.execLinkTrained a1 s
  | .linkDown a1 => Sys2Proof.Machine.execLinkDown a1 s
  | .deckDataFlit a1 a2 => Sys2Proof.Machine.execDeckDataFlit a1 a2 s
  | .deckNak a1 a2 => Sys2Proof.Machine.execDeckNak a1 a2 s
  | .deckIdent a1 a2 a3 a4 a5 => Sys2Proof.Machine.execDeckIdent a1 a2 a3 a4 a5 s
  | .selectNotice a1 a2 => Sys2Proof.Machine.execSelectNotice a1 a2 s
  | .causeNotice a1 a2 => Sys2Proof.Machine.execCauseNotice a1 a2 s
  | .foldNotice a1 a2 => Sys2Proof.Machine.execFoldNotice a1 a2 s
  | .noRedealNotice a1 a2 => Sys2Proof.Machine.execNoRedealNotice a1 a2 s
  | .leaveNotice a1 a2 => Sys2Proof.Machine.execLeaveNotice a1 a2 s
  | .groupCompare => Sys2Proof.Machine.execGroupCompare s
  | .leftRelease => Sys2Proof.Machine.execLeftRelease s
  | .thermalEvaluation a1 => Sys2Proof.Machine.execThermalEvaluation a1 s
  | .thermalTrip a1 => Sys2Proof.Machine.execThermalTrip a1 s
  | .tripRelease => Sys2Proof.Machine.execTripRelease s
  | .criticalTemperature a1 => Sys2Proof.Machine.execCriticalTemperature a1 s
  | .sleepRequest a1 => Sys2Proof.Machine.execSleepRequest a1 s
  | .runRequest a1 => Sys2Proof.Machine.execRunRequest a1 s
  | .sleepEntry a1 => Sys2Proof.Machine.execSleepEntry a1 s
  | .sleepComplete => Sys2Proof.Machine.execSleepComplete s
  | .wakeComplete a1 => Sys2Proof.Machine.execWakeComplete a1 s
  | .grantObserve a1 a2 => Sys2Proof.Machine.execGrantObserve a1 a2 s
  | .grantOpen a1 a2 => Sys2Proof.Machine.execGrantOpen a1 a2 s
  | .blankOpenGrant a1 => Sys2Proof.Machine.execBlankOpenGrant a1 s
  | .recordVerified a1 => Sys2Proof.Machine.execRecordVerified a1 s
  | .openPreparation => Sys2Proof.Machine.execOpenPreparation s
  | .openPreparationDone => Sys2Proof.Machine.execOpenPreparationDone s
  | .endDebugSession a1 a2 => Sys2Proof.Machine.execEndDebugSession a1 a2 s
  | .grantExpiry a1 => Sys2Proof.Machine.execGrantExpiry a1 s
  | .provision => Sys2Proof.Machine.execProvision s
  | .deploy => Sys2Proof.Machine.execDeploy s
  | .undeploy => Sys2Proof.Machine.execUndeploy s
  | .returnCmd => Sys2Proof.Machine.execReturnCmd s
  | .dealerHalt a1 a2 => Sys2Proof.Machine.execDealerHalt a1 a2 s
  | .dealerStep a1 a2 => Sys2Proof.Machine.execDealerStep a1 a2 s
  | .getVersion => Sys2Proof.Machine.execGetVersion s
  | .getCapabilities => Sys2Proof.Machine.execGetCapabilities s
  | .negotiateAlgorithms a1 a2 a3 a4 => Sys2Proof.Machine.execNegotiateAlgorithms a1 a2 a3 a4 s
  | .getDigests => Sys2Proof.Machine.execGetDigests s
  | .getCertificate a1 a2 a3 => Sys2Proof.Machine.execGetCertificate a1 a2 a3 s
  | .challenge a1 a2 => Sys2Proof.Machine.execChallenge a1 a2 s
  | .getMeasurements a1 => Sys2Proof.Machine.execGetMeasurements a1 s
  | .keyExchange a1 => Sys2Proof.Machine.execKeyExchange a1 s
  | .finish a1 a2 => Sys2Proof.Machine.execFinish a1 a2 s
  | .keyUpdate a1 => Sys2Proof.Machine.execKeyUpdate a1 s
  | .heartbeat a1 => Sys2Proof.Machine.execHeartbeat a1 s
  | .endSession a1 => Sys2Proof.Machine.execEndSession a1 s
  | .vendorDefinedRequest a1 a2 a3 a4 => Sys2Proof.Machine.execVendorDefinedRequest a1 a2 a3 a4 s
  | .ideIntegrityFail a1 => Sys2Proof.Machine.execIdeIntegrityFail a1 s
  | .resetRelease a1 a2 => Sys2Proof.Machine.execResetRelease a1 a2 s
  | .hatbandReady a1 => Sys2Proof.Machine.execHatbandReady a1 s
  | .runReady => Sys2Proof.Machine.execRunReady s
  | .resetNPulse a1 => Sys2Proof.Machine.execResetNPulse a1 s
  | .pwrGoodFall => Sys2Proof.Machine.execPwrGoodFall s
  | .pcieReset => Sys2Proof.Machine.execPcieReset s
  | .flr a1 => Sys2Proof.Machine.execFlr a1 s
  | .watchdogExpiry => Sys2Proof.Machine.execWatchdogExpiry s
  | .firmwareReset a1 a2 => Sys2Proof.Machine.execFirmwareReset a1 a2 s
  | .stagingPieceWrite a1 a2 a3 => Sys2Proof.Machine.execStagingPieceWrite a1 a2 a3 s
  | .stageCheck a1 => Sys2Proof.Machine.execStageCheck a1 s
  | .checkComplete a1 a2 => Sys2Proof.Machine.execCheckComplete a1 a2 s
  | .discard a1 => Sys2Proof.Machine.execDiscard a1 s
  | .crownAuthorisation a1 a2 => Sys2Proof.Machine.execCrownAuthorisation a1 a2 s
  | .brimConfirm => Sys2Proof.Machine.execBrimConfirm s
  | .rollback a1 a2 a3 => Sys2Proof.Machine.execRollback a1 a2 a3 s
  | .evHead a1 a2 => Sys2Proof.Machine.execEvHead a1 a2 s
  | .cplHead a1 a2 => Sys2Proof.Machine.execCplHead a1 a2 s
  | .registerWrite a1 a2 a3 => Sys2Proof.Machine.execRegisterWrite a1 a2 a3 s
  | .missedEdge => Sys2Proof.Machine.execMissedEdge s
  | .hbmTrained a1 => Sys2Proof.Machine.execHbmTrained a1 s
  | .vaultMounted a1 => Sys2Proof.Machine.execVaultMounted a1 s
  | .delayLineStep => Sys2Proof.Machine.execDelayLineStep s
  | .refInLock => Sys2Proof.Machine.execRefInLock s
  | .ideKmRequest a1 a2 a3 => Sys2Proof.Machine.execIdeKmRequest a1 a2 a3 s
  | .msiXRaise a1 a2 => Sys2Proof.Machine.execMsiXRaise a1 a2 s

end Sys2Proof.Machine
end

