-- ==== Sys2Proof/Machine/Wire.lean ====
section
/-!
DEFINITION. Machine/Wire.lean: what frames and flits look like on their lines: the symbols, the scrambler and the words of a Hatband frame (R398 to R401, R421, R596, Tables 14.1 to 14.6), and the bytes of a Deck flit (R362, Table 13.1).
The frame commands carry what `parseFrame` reads on HB_IN, DECK_DATA_FLIT what `parseFlit` reads on a link; `State.hbOut` and `State.flitOut` are what leaves.
-/
namespace Sys2Proof.Machine

/-! ## Symbols and scrambling (R399, Table 14.1) -/

/-- One payload bit through the scrambler 1 + x^18 + x^23, whose register holds the last 23 bits sent, the newest in bit 0: the bit sent, and the register after it. -/
def scrambleBit (r : BitVec 23) (b : Bool) : Bool × BitVec 23 :=
  let o := xor b (xor (r.getLsbD 17) (r.getLsbD 22))
  (o, (r <<< 1) ||| BitVec.ofNat 23 (boolNat o))

/-- One received bit through the descrambler. -/
def descrambleBit (r : BitVec 23) (o : Bool) : Bool × BitVec 23 :=
  (xor o (xor (r.getLsbD 17) (r.getLsbD 22)), (r <<< 1) ||| BitVec.ofNat 23 (boolNat o))

/-- A word's bits through one of the two, bit 15 first (R400). -/
def wordThrough (f : BitVec 23 → Bool → Bool × BitVec 23) (r : BitVec 23) (w : Nat) : Nat × BitVec 23 :=
  (List.range 16).foldl (fun x i => let y := f x.2 (bit w (15 - i)); (2 * x.1 + boolNat y.1, y.2)) (0, r)

def dataSymbol (w : Nat) : BitVec 20 := BitVec.ofNat 20 (0x60000 + w)
def controlSymbol (hi lo : Nat) : BitVec 20 := BitVec.ofNat 20 (0x90000 + 256 * hi + lo)

/-- Words as scrambled data symbols; control symbols do not pass the scrambler. -/
def dataSymbols (r : BitVec 23) : List Nat → List (BitVec 20) × BitVec 23
  | [] => ([], r)
  | w :: t => let x := wordThrough scrambleBit r w; let y := dataSymbols x.2 t; (dataSymbol x.1 :: y.1, y.2)

/-- A symbol: a data word, a control payload, or a symbol error. -/
def symbolOf (x : BitVec 20) : Option (Nat ⊕ Nat) :=
  let v := x.toNat
  if v / 2 ^ 16 = 6 then some (.inl (v % 2 ^ 16))
  else if v / 2 ^ 16 = 9 && (bits v 8 8 = 0x3C || bits v 8 8 = 0xC3 || bits v 8 8 = 0x99) then some (.inr (v % 2 ^ 16))
  else none

/-- Received symbols as words, none for what is no data word, and the descrambler after them. -/
def wordsOf (r : BitVec 23) : List (BitVec 20) → List (Option Nat) × BitVec 23
  | [] => ([], r)
  | x :: t =>
    match symbolOf x with
    | some (.inl w) => let y := wordThrough descrambleBit r w; let z := wordsOf y.2 t; (some y.1 :: z.1, z.2)
    | _ => let z := wordsOf r t; (none :: z.1, z.2)

/-! ## Sections (R401, R421) -/

/-- A section's CRC-32C, each word taken high byte first. -/
def wordsCrc (ws : List Nat) : Nat := crc32c (ws.flatMap (fun w => [BitVec.ofNat 8 (w / 256), BitVec.ofNat 8 w]))

/-- A field of 16·n bits, most significant word first (R400). -/
def fieldWords (v : Nat) : Nat → List Nat
  | 0 => []
  | n + 1 => v / 2 ^ (16 * n) % 2 ^ 16 :: fieldWords v n

def wordsField (ws : List Nat) : Nat := ws.foldl (fun v w => v * 2 ^ 16 + w) 0

/-- A section with its CRC; a bad one leaves with the correct CRC inverted. -/
def sealWords (ok : Bool) (ws : List Nat) : List Nat :=
  ws ++ fieldWords (if ok then wordsCrc ws else 2 ^ 32 - 1 - wordsCrc ws) 2

/-- A received section of `n` words and a CRC: whether it is good, and its words (a lost one reads 0). -/
def readSection (n : Nat) (l : List (Option Nat)) : Bool × List Nat :=
  let ws := (l.take n).map (·.getD 0)
  ((l.take (n + 2)).all (·.isSome) && l.length ≥ n + 2 && wordsField (((l.drop n).take 2).map (·.getD 0)) = wordsCrc ws, ws)

/-! ## Header, standing block, slots, origin block (Tables 14.4 to 14.6, R596) -/

/-- Words 1 to 10. -/
def headerWords (h : HbHeader) : List Nat :=
  h.round :: fieldWords h.curDeal 3
    ++ [256 * h.curPeriod + h.stampTrick / 2 ^ 16, h.stampTrick % 2 ^ 16, 256 * h.nextPeriod + 128 * boolNat h.stretchPend + h.nextLen / 2 ^ 16, h.nextLen % 2 ^ 16,
        2048 * h.bankerId + 1024 * boolNat h.void + boolNat h.rsvd, h.accDelay]

def parseHeader (ok : Bool) (w : List Nat) : HbHeader :=
  let a := fun i => w.getD i 0
  { ok, rsvd := bits (a 4) 6 2 ≠ 0 || bits (a 8) 0 10 ≠ 0, round := a 0, curDeal := wordsField ((w.drop 1).take 3)
    stampTrick := 2 ^ 16 * bits (a 4) 0 6 + a 5, curPeriod := bits (a 4) 8 8, nextLen := 2 ^ 16 * bits (a 6) 0 7 + a 7, nextPeriod := bits (a 6) 8 8
    stretchPend := bit (a 6) 7, bankerId := bits (a 8) 11 5, void := bit (a 8) 10, accDelay := a 9 }

/-- ORDER's entry byte: V, BMC, ELIG, address. -/
def orderByte (e : OrderEntry) : Nat := 0x80 + 0x40 * boolNat e.bmc + 0x20 * boolNat e.elig + e.addr

/-- Words 13 to 36. -/
def standingWords (b : HbStanding) : List Nat :=
  let order := fun i => match b.order[i]? with | some e => orderByte e | none => 0
  fieldWords b.present.toNat 2 ++ fieldWords b.join.toNat 2 ++ fieldWords b.notSeated.toNat 2 ++ [b.stretch, b.floor]
    ++ (List.range 16).map (fun i => 256 * order (2 * i) + order (2 * i + 1))

/-- ORDER ends at the first entry with V clear. -/
def parseOrder : List Nat → List OrderEntry
  | [] => []
  | v :: t => if bit v 7 then { bmc := bit v 6, elig := bit v 5, addr := bits v 0 5 } :: parseOrder t else []

def parseStanding (ok : Bool) (w : List Nat) : HbStanding :=
  let two := fun i => BitVec.ofNat 32 (wordsField ((w.drop i).take 2))
  { ok, present := two 0, join := two 2, notSeated := two 4, stretch := w.getD 6 0, floor := w.getD 7 0
    order := parseOrder ((w.drop 8).flatMap (fun v => [bits v 8 8, bits v 0 8])) }

/-- Words 0 to 22 of a call slot; byte 2m of DATA stands in [15:8] of its word (R400). -/
def callWords (c : HbCall) : List Nat :=
  [2 ^ 15 * boolNat c.used + 2 ^ 13 * c.kind + 2 ^ 11 * c.cls + 64 * c.target + 2 * c.caller + boolNat c.rsvd, c.index, 256 * c.sub + 64 * c.op + c.len]
    ++ fieldWords c.offset 2 ++ [256 * c.status + c.tag]
    ++ (List.range 16).map (fun m => 256 * byteAt c.data (2 * m) + byteAt c.data (2 * m + 1)) ++ [1024 * c.contrib + c.alen]

def parseCall (ok : Bool) (w : List Nat) : HbCall :=
  let a := fun i => w.getD i 0
  { ok, rsvd := bit (a 0) 0 || bits (a 22) 6 4 ≠ 0, used := bit (a 0) 15, kind := bits (a 0) 13 2, cls := bits (a 0) 11 2, target := bits (a 0) 6 5, caller := bits (a 0) 1 5
    index := a 1, sub := bits (a 2) 8 8, op := bits (a 2) 6 2, len := bits (a 2) 0 6, offset := wordsField ((w.drop 3).take 2), status := bits (a 5) 8 8, tag := bits (a 5) 0 8
    data := ((w.drop 6).take 16).flatMap (fun v => [BitVec.ofNat 8 (v / 256), BitVec.ofNat 8 v]), contrib := bits (a 22) 10 6, alen := bits (a 22) 0 6 }

/-! ## Frames (Table 14.3) -/

/-- Words 1 to 494: every section with its CRC. -/
def frameWords (f : HbFrame) : List Nat :=
  sealWords f.header.ok (headerWords f.header) ++ sealWords f.standing.ok (standingWords f.standing)
    ++ f.slots.flatMap (fun c => sealWords c.ok (callWords c)) ++ sealWords f.originOk (fieldWords f.serial.toNat 4)

/-- The 500 symbols of a frame on its first or second lap, the line scrambler standing at `r`. -/
def frameSymbols (lap2 : Bool) (r : BitVec 23) (f : HbFrame) : List (BitVec 20) :=
  [controlSymbol 0x3C (boolNat lap2)] ++ (dataSymbols r (frameWords f)).1 ++ List.replicate 4 (controlSymbol 0x99 0)
    ++ [controlSymbol 0xC3 (boolNat lap2 + 2 * boolNat f.eofVoid)]

/-- Slots of 25 words each. -/
def parseCalls : Nat → List (Option Nat) → List HbCall
  | 0, _ => []
  | n + 1, l => let x := readSection 23 l; parseCall x.1 x.2 :: parseCalls n (l.drop 25)

/-- A frame from its 500 symbols; an EOF that cannot be read is no EOF without VOID. -/
def parseFrame (r : BitVec 23) (l : List (BitVec 20)) : HbFrame :=
  let w := (wordsOf r ((l.drop 1).take 494)).1
  let h := readSection 10 w
  let b := readSection 24 (w.drop 12)
  let o := readSection 4 (w.drop 488)
  { header := parseHeader h.1 h.2, standing := parseStanding b.1 b.2, slots := parseCalls 18 (w.drop 38), serial := BitVec.ofNat 64 (wordsField o.2), originOk := o.1
    eofVoid := match l[499]?.bind symbolOf with | some (.inr v) => !(bits v 8 8 = 0xC3) || bit v 1 | _ => true
    symErrs := (l.filter (fun x => symbolOf x = none)).length }

/-- The lap a frame's SOF names. -/
def frameLap2 (l : List (BitVec 20)) : Bool := match l[0]? with | some x => x.getLsbD 0 | none => false

/-- Symbols that leave on HB_OUT: the frame, or IDLE in its place (R593). -/
def State.hbOut (s : State) (lap2 : Bool) (r : BitVec 23) : List (BitVec 20) :=
  match s.hb.out with
  | some f => frameSymbols lap2 r f
  | none => List.replicate 500 (controlSymbol 0x99 0)

/-! ## Deck flits (R362, Table 13.1) -/

/-- One bit of the reflected CRC-32 of IEEE 802.3 (PRESUMED generator, log entry 9). -/
def crc32Bit (c : BitVec 32) : BitVec 32 := if c.getLsbD 0 then (c >>> 1) ^^^ 0xEDB88320#32 else c >>> 1

def crc32Byte (c : BitVec 32) (b : Byte) : BitVec 32 :=
  let c := c ^^^ b.setWidth 32
  crc32Bit (crc32Bit (crc32Bit (crc32Bit (crc32Bit (crc32Bit (crc32Bit (crc32Bit c)))))))

def crc32 (b : Bytes) : Nat := (b.foldl crc32Byte 0xFFFFFFFF#32 ^^^ 0xFFFFFFFF#32).toNat

/-- The 96-bit header, its most significant byte at 0x00. -/
def flitHeader (f : Flit) : Bytes :=
  (toLe (f.type * 2 ^ 92 + f.seq * 2 ^ 80 + f.ack * 2 ^ 68 + f.crData * 2 ^ 58 + f.crNotice * 2 ^ 52 + f.crPass * 2 ^ 44 + f.len * 2 ^ 36 + boolNat f.first * 2 ^ 35
    + boolNat f.rsvd) 12).reverse

/-- The 256 bytes of a flit; one that is not good has its CRC inverted. -/
def flitBytes (f : Flit) : Bytes :=
  let b := flitHeader f ++ padTo 240 f.payload
  b ++ toLe (if f.ok then crc32 b else 2 ^ 32 - 1 - crc32 b) 4

/-- A flit from its 256 bytes. -/
def parseFlit (b : Bytes) : Flit :=
  let v := leAll (b.take 12).reverse
  { ok := b.length = 256 && le b 0xFC 4 = crc32 (b.take 0xFC), rsvd := v % 2 ^ 35 ≠ 0, type := bits v 92 4, seq := bits v 80 12, ack := bits v 68 12, crData := bits v 58 10
    crNotice := bits v 52 6, crPass := bits v 44 8, len := bits v 36 8, first := bit v 35, payload := (b.drop 12).take 240 }

/-- What a flit kept for replay looks like when it is sent: it carries the last SEQ received in order and the credits owed (R363). -/
def State.flitOut (s : State) (k : Nat) (x : SentFlit) : Bytes :=
  let l := s.deckLink k
  flitBytes { ok := true, rsvd := false, type := x.chan, seq := x.seq, ack := (l.rxNext + 4095) % 4096, crData := l.owed.getD 0 0, crNotice := l.owed.getD 1 0, crPass := l.owed.getD 2 0
              len := x.payload.length, first := x.first, payload := x.payload }

/-- The header fields of a flit that is not sequenced: it too carries ACK and the credits owed. -/
def State.bareFlit (s : State) (k type : Nat) (payload : Bytes) : Flit :=
  let l := s.deckLink k
  { ok := true, rsvd := false, type, seq := 0, ack := (l.rxNext + 4095) % 4096, crData := l.owed.getD 0 0, crNotice := l.owed.getD 1 0, crPass := l.owed.getD 2 0
    len := payload.length, first := false, payload }

/-- The IDENT flit that follows training: identity serial, ring address, link index, in ascending bytes (R361; log entry 101). -/
def State.identOut (s : State) (k : Nat) : Bytes :=
  flitBytes (s.bareFlit k 5 (toLe s.factory.serial 8 ++ [BitVec.ofNat 8 s.hb.addr, BitVec.ofNat 8 k]))

/-- The NAK a discarding receiver sends (R364); and what fills the line when nothing waits (R363). -/
def State.nakOut (s : State) (k : Nat) : Option Bytes := if (s.deckLink k).discarding then some (flitBytes (s.bareFlit k 4 [])) else none
def State.idleOut (s : State) (k : Nat) : Bytes := flitBytes (s.bareFlit k 0 [])

end Sys2Proof.Machine
end

