-- ==== Sys2Proof/Safety.lean ====
section
/-!
DEFINITION. Safety.lean: the terms in which claims are made: when a host command is admitted, what taking and completing one leaves, when a dictionary write is admitted, and what stays the same.
-/
namespace Sys2Proof.Machine

/-! ## Host commands (R545) -/

/-- Nothing before a command's own checks turns it away: the device is Run-ready, no rsvd field of the slot is set, and the function may send it for the account. -/
structure Admitted (s : State) (c : CmdSlot) (pf0 : Bool) (acct : Option Nat) : Prop where
  ready : s.start.stage = 2
  clean : c.rsvd = false
  own : pf0 = true → c.fn = 0
  mine : ∀ a, acct = some a → s.acts c.fn a = true

/-- CMD_HEAD has moved past the slot. -/
def State.cmdTaken (s : State) (c : CmdSlot) : State := s.setFn c.fn { s.fn c.fn with cmdHead := (c.slot + 1) % 64 }

/-- The completion record of Table 19.6 for a command. -/
def cplOf (op : Nat) (c : CmdSlot) (status v0 : Nat) : CplRec := { kind := 1, status, opcode := op, tag := c.tag.toNat, v0, v1 := 0, index := c.slot }

/-- CMD_HEAD has moved past the slot and the command's completion is posted. -/
def State.cmdDone (s : State) (op : Nat) (c : CmdSlot) (status v0 : Nat) : State :=
  s.setFn c.fn (Fn.postCpl { s.fn c.fn with cmdHead := (c.slot + 1) % 64 } c.fn (cplOf op c status v0) c.irq)

/-- The ticket under which a command's later completion is kept. -/
def ticketOf (s : State) (op : Nat) (c : CmdSlot) : Ticket :=
  { fn := c.fn, op, tag := c.tag.toNat, slot := c.slot, irq := c.irq, epoch := (s.fn c.fn).epoch }

/-! ## The deal clock -/

/-- The time at which a trick begins on an edge at `t`: not before the previous trick's 64 cycles have ended (R574). -/
def State.trickTime (s : State) (t : Nat) : Nat := max t (s.cad.startPs + 40000)

/-- Where the unit sees an edge that arrives `off` picoseconds from its prediction: the delay line adds its position (R37, R575). -/
def State.edgeTime (s : State) (off : Int) : Nat := (((s.cad.startPs + 1000 * s.cad.period : Nat) : Int) + (off + s.cad.delayLine)).toNat

/-- Length and period of the deal after the one running, as the mark takes them: those latched, else those of the last header about this deal, else those in force (R23). -/
def State.nextLenPeriod (s : State) (l : Nat) : Nat × Nat :=
  match s.cad.latch with
  | some x => x
  | none => match s.cad.lastHdr with
    | some h => if h.curDeal = s.cad.deal then (h.nextLen, h.nextPeriod) else (l, s.cad.period)
    | none => (l, s.cad.period)

/-! ## Sheets and seats -/

/-- A sheet's arrival status stands in SHEET_STAT, its buffer is idle and the completion is posted to PF0 (R547, R548). -/
def State.sheetAnswered (s : State) (buf status tag target : Nat) : State :=
  State.sheetCpl { s with host := { s.host with
    sheetStat := aset buf status s.host.sheetStat, sheetBusy := sdel buf s.host.sheetBusy, sheetMute := sdel buf s.host.sheetMute } } status tag target 0 buf

/-- A HOLD waits (R58). -/
def State.withHold (s : State) (h : PendingHold) : State := { s with dealer := { s.dealer with holds := s.dealer.holds ++ [h] } }

/-- After the command, its completion with `status` is what the host interface has gained. -/
def Completed (s t : State) (op : Nat) (c : CmdSlot) (status : Nat) : Prop := t.host = (s.cmdDone op c status 0).host

/-- The image of a FORM_LOAD passes every check that looks at the image and the device, with the form it describes (Table 4.10). -/
structure Loadable (s : State) (img : FormImage) (f : Form) : Prop where
  container : containerBad img = false
  range : s.rangeBad f = false
  slots : slotsBad f = false
  windows : winsBad f = false
  native : nativeOk f.dieMask f.shortMask f.slots.length f.native = true
  ordered : f.native.streams.any (·.region) = false
  foots : footsBad f = false
  deck : s.deckOk f.dieMask f.shortMask = true
  weights : s.weightsAbsent f = false
  fresh : ∀ g ∈ s.forms, g.id ≠ f.id
  room : s.forms.length < 256

/-! ## Video sessions -/

/-- A VIDEO command on an existing session reaches its effect: it names only what Table 19.5 gives it, the session is in a state `ok` allows and its account is one the function acts for. -/
structure VideoAdmitted (s : State) (c : CmdSlot) (ok : Session → Bool) : Prop where
  admitted : Admitted s c false none
  args : vArgBad c = false
  arg2 : c.arg2 = 0
  allowed : ok (s.vsession (vKeyOf c)) = true
  mine : s.acts c.fn (s.vsession (vKeyOf c)).account = true

/-- The engine serves session `n` next, with the hand-off `h` at its head. -/
structure SliceServed (s : State) (e n : Nat) (h : Handoff) (rest : List Handoff) : Prop where
  ready : (s.engine e).resetting = false
  next : s.nextSession e = some n
  head : (s.vsession (vkey e n)).handoffs = h :: rest
  kept : (s.vsession (vkey e n)).abandon = false

/-- The engine has turned to session `n`. -/
def State.serving (s : State) (e n : Nat) : State := s.setEngine e { s.engine e with last := n }

/-- The slice of the frame under way is read without fault or poison: `src` are its frame bytes, `u` the state after the reads. -/
structure SliceRead (s : State) (e n : Nat) (h : Handoff) (out : SliceOut) (src : Bytes) (u : State) : Prop where
  fresh : (s.vsession (vkey e n)).waiting = none
  underWay : (s.vsession (vkey e n)).recon.isSome = true
  reads : ∃ a b ref,
    (s.serving e n).stateTouched (s.vsession (vkey e n)) = (none, a)
    ∧ State.vRead (s.vsession (vkey e n)).account
        ((sliceOffsets (s.vsession (vkey e n)).desc (s.vsession (vkey e n)).slice).map (fun o => h.va + h.read * (s.vsession (vkey e n)).frameStride + o)) a
      = (.ok (src, false), b)
    ∧ State.vRead (s.vsession (vkey e n)).account ((b.engine e).refAddresses ((s.vsession (vkey e n)).coded.headD {}).refs out.refs) b = (.ok (ref, false), u)

/-! ## SVIS words -/

/-- The command by which one word issues at one core. -/
def commandOf (x : Site) (b : Base) : SvisOp → Instr
  | .mma o e => .mma x b o e
  | .mzero o => .mzero x b o
  | .vec .add o => .vadd x b o
  | .vec .sub o => .vsub x b o
  | .vec .mul o => .vmul x b o
  | .vec .fma o => .vfma x b o
  | .vec .max o => .vmax x b o
  | .vec .min o => .vmin x b o
  | .vec .abs o => .vabs x b o
  | .vec .neg o => .vneg x b o
  | .vec .cvt o => .vcvt x b o
  | .vec .cmplt o => .vcmplt x b o
  | .vec .cmpeq o => .vcmpeq x b o
  | .vec .sel o => .vsel x b o
  | .vec .qmx o => .vqmx x b o
  | .vec .and o => .vand x b o
  | .vec .or o => .vor x b o
  | .sfn o => .sfn x b o
  | .sfuse o => .sfuse x b o
  | .sstat o => .sstat x b o
  | .smerge o => .smerge x b o
  | .smask o => .smask x b o
  | .lmov o e => .lmov x b o e
  | .lgath o e => .lgath x b o e
  | .lscat o e => .lscat x b o e
  | .lda o => .lda x b o
  | .wstream o => .wstream x b o
  | .xput o => .xput x b o
  | .xcast o => .xcast x b o
  | .xdeck o => .xdeck x b o
  | .nop => .nop x b
  | .repeatF o => .repeatFrame x b o
  | .seta d i => .seta x b d i
  | .adda d i => .adda x b d i
  | .addid d n f => .addid x b d n f
  | .region o => .region x b o
  | .rfree n r => .rfree x b n r
  | .mark v => .markTrace x b v
  | .rwait n r => .rwait x b n r
  | .endP => .endProgram x b

/-- A word of the deal code of `slot` may issue at its core now, in cycle `cycle` of the deal: the stream has come to it, its cycle lies in the trick in progress and its queue is free. -/
structure WordReady (s : State) (x : Site) (b : Base) (op : SvisOp) (slot cycle : Nat) (form : Form) : Prop where
  may : s.mayIssue x = true
  legal : svisLegal false b op = true
  owner : x.owner = .deal slot
  form : s.codeForm = some form
  going : (s.streamPos x).ended = false
  allowed : s.wordAllowed x op = true
  same : s.sameWord x b op = true
  behind : (s.streamPos x).follows x (opQueue op) false = true
  place : ∃ base, (s.streamPos x).baseOf x op (opWords op) (s.streamBase x) (s.streamWords x) = some base ∧ cycle = base + b.issue.toNat
  now : cycle / 64 = s.cad.trick
  free : ((s.core (siteKey x)).qstate (opQueue op)).issue + ((s.core (siteKey x)).qstate (opQueue op)).occ ≤ cycle

/-- A word of an open program in region mode may be handed to its queue, and nothing else is handed or in flight anywhere. -/
structure WordAlone (s : State) (x : Site) (b : Base) (op : SvisOp) (id : Nat) : Prop where
  may : s.mayIssue x = true
  legal : svisLegal true b op = true
  owner : x.owner = .program id true
  going : (s.streamPos x).ended = false
  allowed : s.wordAllowed x op = true
  same : s.sameWord x b op = true
  behind : (s.streamPos x).follows x (opQueue op) true = true
  place : ((s.streamPos x).baseOf x op (opWords op) (s.streamBase x) (s.streamWords x)).isSome = true
  idle : ∀ c ∈ s.svis.cores, c.2.handed = []
  still : s.svis.items = []

/-- Nothing is handed to a queue, no landing waits and no open program runs. -/
structure FabricQuiet (s : State) : Prop where
  idle : ∀ c ∈ s.svis.cores, c.2.handed = []
  landed : ∀ i ∈ s.svis.items, i.held = false
  none : s.svis.programs = []

/-! ## Defects -/

/-- The deal tricks of an undecided deal run, no open window runs and the device is in no group. -/
structure DealRuns (s : State) : Prop where
  dealing : s.dealing = true
  tricks : ∃ n, s.left = some n ∧ 257 ≤ n
  undecided : s.cad.decided = false
  closed : s.svis.openWin = none
  alone : s.group.binding = none

/-- The deal in progress has one more cause, of no slot. -/
def State.withCause (s : State) (rank detail die place : Nat) : State :=
  { s with dealer := { s.dealer with causes := s.dealer.causes ++
      [{ deal := s.cad.deal, rank, detail, member := 0, remote := false, slot := 0xFFF, die, place, repair := repairRank rank }] } }

/-- A unit's check waits for the decision of the deal in progress. -/
def State.withCheck (s : State) (u : UnitRef) (rank detail : Nat) : State :=
  { s with dealer := { s.dealer with checks := s.dealer.checks ++ [{ unit := u, rank, detail, deal := s.cad.deal, running := false }] } }

/-- A unit's check begins at once, as where nothing is dealt (R348). -/
def State.withCheckNow (s : State) (u : UnitRef) (rank detail : Nat) : State :=
  { s with dealer := { s.dealer with checks := s.dealer.checks ++ [{ unit := u, rank, detail, deal := s.causeDeal, running := true }] } }

/-- One more corrected error, and one more Felt parity error. -/
def State.moreCorrected (s : State) : State := { s with svis := { s.svis with corrected := s.svis.corrected + 1 } }
def State.moreParity (s : State) : State := { s with svis := { s.svis with parity := s.svis.parity + 1 } }

/-! ## The scrub (R485, R489, R533) -/

/-- After a scrub no seat is in use, every byte of usable HBM reads zero and no line of it is poisoned; the reserved bytes stay as they were. -/
structure Scrubbed (s t : State) : Prop where
  seats : t.seats = []
  zero : ∀ a, usableHbm a 1 = true → t.hbmByte a = 0
  rest : ∀ a, usableHbm a 1 = false → t.hbmByte a = s.hbmByte a
  poison : ∀ l ∈ t.mem.poison, usableHbm (64 * l) 64 = false

/-! ## Dictionary writes -/

/-- The answer to the write just made is OK (Table 15.4). -/
def State.wroteOk (s : State) : State := s.answered { status := 1, detail := 0, data := [] }

/-- The answer to the write just made is another status of Table 15.4. -/
def State.wroteNot (status : Nat) (s : State) : State := s.answered { status, detail := 0, data := [] }

/-! ## Frames and flits on their lines -/

/-- Every field of the header lies in its bits (Table 14.4). -/
structure HeaderFits (h : HbHeader) : Prop where
  round : h.round < 2 ^ 16
  deal : h.curDeal < 2 ^ 48
  stamp : h.stampTrick < 2 ^ 22
  period : h.curPeriod < 2 ^ 8
  len : h.nextLen < 2 ^ 23
  next : h.nextPeriod < 2 ^ 8
  banker : h.bankerId < 2 ^ 5
  delay : h.accDelay < 2 ^ 16

/-- Every field of the standing block lies in its bits (Table 14.5). -/
structure StandingFits (b : HbStanding) : Prop where
  stretch : b.stretch < 2 ^ 16
  floor : b.floor < 2 ^ 16
  order : b.order.length ≤ 32
  addr : ∀ e ∈ b.order, e.addr < 2 ^ 5

/-- Every field of the call slot lies in its bits (Table 14.6). -/
structure CallFits (c : HbCall) : Prop where
  kind : c.kind < 2 ^ 2
  cls : c.cls < 2 ^ 2
  target : c.target < 2 ^ 5
  caller : c.caller < 2 ^ 5
  index : c.index < 2 ^ 16
  sub : c.sub < 2 ^ 8
  op : c.op < 2 ^ 2
  len : c.len < 2 ^ 6
  offset : c.offset < 2 ^ 32
  status : c.status < 2 ^ 8
  tag : c.tag < 2 ^ 8
  data : c.data.length = 32
  contrib : c.contrib < 2 ^ 6
  alen : c.alen < 2 ^ 6

/-- A frame of 18 slots whose fields lie in their bits, sent without symbol errors (Table 14.3). -/
structure FrameFits (f : HbFrame) : Prop where
  header : HeaderFits f.header
  standing : StandingFits f.standing
  slots : f.slots.length = 18
  calls : ∀ c ∈ f.slots, CallFits c
  errors : f.symErrs = 0
  timed : f.dtPs = 0

/-- Every field of the flit lies in its bits, with 240 payload bytes (Table 13.1). -/
structure FlitFits (f : Flit) : Prop where
  type : f.type < 2 ^ 4
  seq : f.seq < 2 ^ 12
  ack : f.ack < 2 ^ 12
  data : f.crData < 2 ^ 10
  notice : f.crNotice < 2 ^ 6
  pass : f.crPass < 2 ^ 8
  len : f.len < 2 ^ 8
  payload : f.payload.length = 240

/-! ## The accuracy of the built-in functions (R223, Table 8.4) -/

/-- A value is the real number `r`. -/
def Num.IsReal (x : Num) (r : ℝ) : Prop :=
  match x with
  | .fin n m e => r = (if n then -1 else 1) * (m : ℝ) * (2 : ℝ) ^ e
  | _ => False

/-- The mathematical function that FN 0 to 5 names, where it has a real value: `y` is its value at `x`. -/
def ExactBuiltin (fn : Nat) (x y : ℝ) : Prop :=
  match fn with
  | 0 => y = Real.tanh x
  | 1 => y = (1 + Real.exp (-x))⁻¹
  | 2 => y = (2 : ℝ) ^ x
  | 3 => 0 < x ∧ y = Real.logb 2 x
  | 4 => x ≠ 0 ∧ y = x⁻¹
  | 5 => 0 < x ∧ y = (Real.sqrt x)⁻¹
  | _ => False

/-- `n` units in the last place of a binary32 value near `y`. -/
def WithinUlps (n : ℝ) (y r : ℝ) : Prop := |r - y| ≤ n * (2 : ℝ) ^ (Int.log 2 |y| - 23)

/-- The bound of Table 8.4 on the result `r` for the exact value `y` at `x`; exp2 and reciprocal are bounded over normal results. -/
def WithinBound (fn : Nat) (x y r : ℝ) : Prop :=
  match fn with
  | 0 => |r - y| ≤ (2 : ℝ) ^ (-21 : Int)
  | 1 => |r - y| ≤ (2 : ℝ) ^ (-22 : Int)
  | 2 => (2 : ℝ) ^ (-126 : Int) ≤ |y| → WithinUlps 2 y r
  | 3 => if 1 / 2 ≤ x ∧ x < 2 then |r - y| ≤ (2 : ℝ) ^ (-22 : Int) else WithinUlps 2 y r
  | 4 => (2 : ℝ) ^ (-126 : Int) ≤ |y| → WithinUlps 1 y r
  | _ => WithinUlps 1 y r

/-- The published ROM tables meet R223: with FMT_D FP32 and RND 0 every finite result lies within its bound. The coefficients are free values (log entry 10); a claim about accuracy takes this as its premise. -/
def RomAccurate : Prop :=
  ∀ fn < 6, ∀ p < 2 ^ 32, ∀ x y r : ℝ, (fp32.decode p).IsReal x → ExactBuiltin fn x y →
    (fp32.decode (fp32.encode 0 false (builtin fn (fp32.decode p)))).IsReal r → WithinBound fn x y r

end Sys2Proof.Machine
end

