-- ==== Sys2Proof/Certificates/Slice0/Obligations.lean ====
section
/-!
DEFINITION. Certificates/Slice0/Obligations.lean: the statements about the block: what each command does, what it leaves alone, the words of SVIS, and what every step keeps.
-/
open Sys2Proof Sys2Proof.Machine

/-! ## The queue -/

/-- A step takes the command at the front of the queue and answers what `exec` answers on the state with the rest of the queue (Agents: commands wait first in, first out). On an empty queue the block idles: the model's choice, log entry 2. -/
def Obligations.StepRunsFrontCommand : Prop :=
  (∀ (c : Instr) (rest : List Instr) (s : State), step { s with pending := c :: rest } = exec c { s with pending := rest })
  ∧ (∀ s : State, s.pending = [] → step s = .next s)

/-! ## The deal clock -/

/-- R20, R36, R44, R574: away from the mark, an edge within 4 ns of the prediction begins the next trick and ends a flywheel run; one further off is only counted; in UNLOCKED and LEFT an edge only places the prediction. A flywheel edge begins the next trick at the predicted time and is counted. -/
def Obligations.EdgesMoveTheTrick : Prop :=
  (∀ (off : Int) (s : State), s.dealing = true → s.cad.period ≠ 0 → s.cad.len ≠ some (s.cad.trick + 1) → -4000 ≤ s.edgeOff off → s.edgeOff off ≤ 4000 →
    let t := s.trickTime (s.edgeTime off)
    exec (.beatEdge off) s = .next { s with now := max s.now t, cad := { s.cad with st := .dealing, missRun := 0, startPs := t, trick := s.cad.trick + 1 } })
  ∧ (∀ (off : Int) (s : State), s.dealing = true ∨ s.cad.st = .ready ∨ s.cad.st = .acquiring → s.cad.period ≠ 0 → (s.edgeOff off < -4000 ∨ 4000 < s.edgeOff off) →
    exec (.beatEdge off) s = .next { s with
      now := max s.now (s.edgeTime off), cad := { s.cad with strayCount := s.cad.strayCount + 1 } })
  ∧ (∀ (off : Int) (s : State), s.cad.st = .unlocked ∨ s.cad.st = .left →
    let t := ((s.predicted : Int) + s.edgeOff off).toNat
    exec (.beatEdge off) s = .next { s with now := max s.now t, cad := { s.cad with startPs := t } })
  ∧ (∀ s : State, s.dealing = true → s.cad.period ≠ 0 → s.cad.missRun < 16 → s.cad.len ≠ some (s.cad.trick + 1) →
    let t := s.cad.startPs + 1000 * s.cad.period
    exec .flywheelEdge s = .next { s with
      now := max s.now t, cad := { s.cad with st := .flywheel, missRun := s.cad.missRun + 1, flyCount := s.cad.flyCount + 1, startPs := t, trick := s.cad.trick + 1 } })

/-- R21, R23, R29, R31: at the edge after T(L−1) of a decided deal the deal number rises by one, the trick is 0, and length and period are those latched, else those of the last header about this deal, else those in force; a firmware reset that waits and a stretch request unmet are other outcomes. -/
def Obligations.MarkBeginsNextDeal : Prop :=
  ∀ (edge : Option Int) (s : State) (l : Nat), s.cad.len = some l → s.cad.trick + 1 = l → s.cad.period ≠ 0 → s.cad.decided = true → s.cad.stretchReq = 0 →
    s.start.resetReq = false →
    (match edge with
      | some off => (s.dealing = true ∨ s.cad.st = .ready) ∧ -4000 ≤ s.edgeOff off ∧ s.edgeOff off ≤ 4000
      | none => s.dealing = true ∧ s.cad.missRun < 16) →
    ∃ t, exec (.dealMark edge) s = .next t ∧ t.cad.deal = s.cad.deal + 1 ∧ t.cad.trick = 0 ∧
      (t.cad.len, t.cad.period) = (some (s.nextLenPeriod l).1,
        (s.nextLenPeriod l).2)
      ∧ t.cad.decided = false ∧ t.cad.startPs = (match edge with
        | some off => s.trickTime (s.edgeTime off)
        | none => s.cad.startPs + 1000 * s.cad.period)

/-- R45, R46, Table 2.5: the 17th missed edge in a row takes a dealing device to LEFT without a position; a missed edge takes ACQUIRING back to its first edge and READY back to ACQUIRING; a device in LEFT with nothing to post and no hold acquires afresh. R24, R25, R56, R564, R575: LOAD_HINT rises within the trick that begins 8 µs before a mark to be dealt and falls at the seam; at the end of the drain window every completion word stands; outside tricks the delay line moves 250 ps at most towards the trim. -/
def Obligations.MissedEdgesSeamAndHint : Prop :=
  ((∀ s : State, s.dealing = true → s.cad.missRun = 16 →
    ∃ t, exec .beatLoss s = .next t ∧ t.cad.st = .left ∧ t.cad.len = none ∧ t.cad.period = 0 ∧ t.cad.joinMark = none ∧ t.dealer.running = none ∧ t.dealer.selected = none ∧ t.board.loadHint = false)
  ∧ (∀ s : State, s.cad.st = .acquiring → s.cad.period ≠ 0 →
    exec .missedEdge s = .next { s with now := max s.now (s.cad.startPs + 1000 * s.cad.period), cad := { s.cad with edgeRun := 0, startPs := s.cad.startPs + 1000 * s.cad.period } })
  ∧ (∀ s : State, s.cad.st = .ready →
    ∃ t, exec .missedEdge s = .next t ∧ t.cad.st = .acquiring ∧ t.cad.edgeRun = 0 ∧ t.cad.hdrRun = 0 ∧ t.cad.len = none ∧ t.cad.period = 0
      ∧ t = { s with now := t.now, cad := t.cad, dealer := { s.dealer with selected := none } })
  ∧ (∀ s : State, s.cad.st = .left → s.dealer.toPost = [] → s.cad.holdThermal = false → s.cad.holdHub = false →
    ∃ t, exec .leftRelease s = .next t ∧ t.cad.st = .acquiring ∧ t.cad.edgeRun = 0 ∧ t.cad.hdrRun = 0 ∧ t.cad.len = none ∧ t.cad.period = 0
      ∧ t = { s with cad := t.cad, dealer := { s.dealer with selected := none } }))
  ∧ ((∀ (s : State) (n : Nat), s.left = some n → s.dealing = true → 8000 ≤ n * s.cad.period → (n - 1) * s.cad.period < 8000 →
    (∃ p, s.dealer.selected = some p ∧ p.formId.isSome = true) →
    exec .loadHintRise s = .next { s with board := { s.board with loadHint := true } })
  ∧ (∀ s : State, s.dealing = true → s.left = some 256 → exec .seamStart s = .next { s with board := { s.board with loadHint := false } })
  ∧ (∀ s : State, s.dealing = true → s.cad.drained = false → s.left = some 193 →
    ∃ t, exec .drainEnd s = .next t ∧ t.cad.drained = true ∧ t.dealer.completions.isSome = true ∧ t.seats = s.seats ∧ t.mem = s.mem ∧ t.accts = s.accts)
  ∧ (∀ s : State, s.cad.st = .unlocked ∨ s.cad.st = .acquiring ∨ s.cad.st = .left →
    exec .delayLineStep s = .next { s with cad := { s.cad with delayLine :=
      if s.cad.delayLine + 250 ≤ s.cad.trim then s.cad.delayLine + 250 else if s.cad.trim + 250 ≤ s.cad.delayLine then s.cad.delayLine - 250 else s.cad.trim } }))

/-- R26: the decision is taken once, at T(L−64); afterwards the deal's causes, captured completion words and meters are gone. A repair check's end moves nothing of the deal clock. R65: an idle deal without a cause commits its number alone: no seat changes, and the COMMIT event that waits for the mark names the sheet source IDLE. R63, R64, R66: the cutoff trick of a device that deals, or that is about to join at the next mark, selects a plan for the next deal, once. R14: a deal that misdeals leaves every seat's step, position in its plan, key and value length, bank selectors, residency and charges as the last commit left them. -/
def Obligations.DealsAreDecided : Prop :=
  ((∀ s : State, s.dealing = true → s.cad.decided = false → s.left = some 64 →
    ∃ t, exec .dealDecision s = .next t ∧ t.cad = { s.cad with decided := true } ∧ (∀ c ∈ t.dealer.causes, c.deal ≠ s.cad.deal)
      ∧ t.dealer.completions = none ∧ t.dealer.slotHbm = [] ∧ t.dealer.vaultBytes = 0 ∧ t.dealer.deckBytes = 0)
  ∧ (∀ (s : State) (ps rs : List Bool), s.dealer.checks.any (·.running) = true ∨ s.dealer.rereads ≠ [] →
      (s.dealer.checks.filter (·.running)).length ≤ ps.length → s.dealer.rereads.length ≤ rs.length → (s.dealer.checks.filter (·.running)).Nodup → s.dealer.rereads.Nodup →
    ∃ t, exec (.repairCheckDone ps rs) s = .next t ∧ t.cad = s.cad ∧ t.dealer.checks.any (·.running) = false ∧ t.dealer.rereads = []))
  ∧ (∀ s : State, s.dealing = true → s.cad.decided = false → s.left = some 64 →
    (∃ p, s.dealer.running = some p ∧ p.formId = none ∧ p.entries = [] ∧ p.slotFolds = []) →
    s.dealer.causes = [] → s.dealer.poisonReads = [] → s.dealer.foreignWrites = [] → s.dealer.holds = [] → s.group.records = [] → s.repair.suspects = [] →
    ∃ t, exec .dealDecision s = .next t ∧ t.seats = s.seats ∧ t.dealer.idleDeals = s.dealer.idleDeals + 1 ∧ t.dealer.committedDeals = s.dealer.committedDeals
      ∧ { ev 0x01 0 s.cad.deal with w1 := 2 ^ 17 * 4 } ∈ t.dealer.toPost)
  ∧ (∀ s : State, s.mayCut = true → s.cutoffTrick = some s.cad.trick →
    ∃ t q, exec .sheetCutoff s = .next t ∧ t.dealer.selected = some q ∧ t.mayCut = false ∧ t.cad = { s.cad with cutDone := true } ∧ t.dealer.running = s.dealer.running
      ∧ t.dealer.standing = s.dealer.standingNext.or s.dealer.standing ∧ (∀ x ∈ t.dealer.sheets, x.target ≠ s.cad.deal + 1) ∧ t.seats = s.seats ∧ t.forms = s.forms)
  ∧ (∀ s : State, s.dealing = true → s.cad.decided = false → s.left = some 64 →
    ∃ t, exec .dealDecision s = .next t ∧ (t.dealer.lastOutcome = false → ∀ i,
      (t.seat i).step = (s.seat i).step ∧ (t.seat i).phaseIdx = (s.seat i).phaseIdx ∧ (t.seat i).kvLen = (s.seat i).kvLen ∧ (t.seat i).sel = (s.seat i).sel
      ∧ (t.seat i).osel = (s.seat i).osel ∧ (t.seat i).residency = (s.seat i).residency ∧ (t.seat i).deals = (s.seat i).deals ∧ (t.seat i).lastDeal = (s.seat i).lastDeal
      ∧ (t.seat i).sCoreTricks = (s.seat i).sCoreTricks ∧ (t.seat i).sHbm = (s.seat i).sHbm ∧ (t.seat i).sVault = (s.seat i).sVault ∧ (t.seat i).sEnergy = (s.seat i).sEnergy
      ∧ (t.seat i).taint = (s.seat i).taint))

/-! ## Sheets -/

/-- R547, R542: the sheet doorbell is PF0's: it fills an idle buffer of the sixteen and marks it busy; before Run-ready it sets ERR [3] and nothing else; on a busy buffer or from another function it does nothing. -/
def Obligations.SheetDoorbell : Prop :=
  (∀ (buf : Nat) (image : Bytes) (s : State), s.start.stage = 2 → buf < 16 → buf ∉ s.host.sheetBusy →
    exec (.sheetDb 0 buf image) s = .next { s with host := { s.host with sheetBuf := aset buf image s.host.sheetBuf, sheetBusy := sins buf s.host.sheetBusy } })
  ∧ (∀ (fn buf : Nat) (image : Bytes) (s : State), s.start.stage ≠ 2 →
    exec (.sheetDb fn buf image) s = .next (s.setFn fn { s.fn fn with err := (s.fn fn).err ||| 8 }))
  ∧ (∀ (fn buf : Nat) (image : Bytes) (s : State), s.start.stage = 2 → (fn ≠ 0 ∨ 16 ≤ buf ∨ buf ∈ s.host.sheetBusy) →
    exec (.sheetDb fn buf image) s = .next s)

/-- R62, R63, Table 3.10: a malformed sheet is BAD_SHEET; one for a deal that is begun or whose cutoff has passed is LATE and counted; one more than eight deals ahead is TOO_EARLY; a second one for a target, no cut, is DUPLICATE; each posts its status once, idles the buffer and registers nothing. An accepted sheet joins the queue of its target. -/
def Obligations.SheetArrivalStatus : Prop :=
  (∀ (buf : Nat) (b : Bytes) (s : State), buf ∈ s.host.sheetBusy → buf ∉ s.host.sheetMute → aget buf s.host.sheetBuf = some b → parseSheet b = none →
    exec (.sheetArrival buf) s = .next (s.sheetAnswered buf 0x07 (le b 0x10 4) (le b 8 8 % 2 ^ 48)))
  ∧ (∀ (buf : Nat) (b : Bytes) (sh : Sheet) (s : State), buf ∈ s.host.sheetBusy → buf ∉ s.host.sheetMute → aget buf s.host.sheetBuf = some b → parseSheet b = some sh →
      sh.standing = false → s.dealing = true →
    (sh.target ≤ s.cad.deal ∨ (sh.target = s.cad.deal + 1 ∧ s.cutoffPassed = true) →
      exec (.sheetArrival buf) s = .next (State.sheetAnswered { s with dealer := { s.dealer with latePending := s.dealer.latePending + 1 } } buf 0x02 sh.tag sh.target))
    ∧ (s.cad.deal + 8 < sh.target → exec (.sheetArrival buf) s = .next (s.sheetAnswered buf 0x03 sh.tag sh.target))
    ∧ (s.cad.deal + 1 < sh.target → sh.target ≤ s.cad.deal + 8 → sh.cut = false → (∃ x ∈ s.dealer.sheets, x.target = sh.target ∧ x.cut = false) →
      exec (.sheetArrival buf) s = .next (s.sheetAnswered buf 0x04 sh.tag sh.target))
    ∧ (s.cad.deal + 1 < sh.target → sh.target ≤ s.cad.deal + 8 → sh.cut = false → (∀ x ∈ s.dealer.sheets, x.target = sh.target → x.cut = true) →
      (∀ f, s.form sh.formId = some f → f.unload = [] ∧ f.revoked = false ∧ s.certified f = true ∧ fillsBad f sh = false ∧ sheetOverfull f sh = false) → s.form sh.formId ≠ none →
      exec (.sheetArrival buf) s = .next (State.sheetAnswered { s with dealer := { s.dealer with sheets := s.dealer.sheets ++ [{ sh with mute := false }] } } buf 0x00 sh.tag sh.target)))

/-- R70: a cut sheet that arrives in time replaces every sheet accepted for its deal, and each of them receives CUT_OUT. R63, R64, R66: at the cutoff trick a plan for the next deal is selected, sheets for that deal leave the queue, a new standing sheet comes into force and the cutoff is done; at any other trick, or once done, nothing happens. -/
def Obligations.CutSheetsAndCutoff : Prop :=
  (∀ (buf : Nat) (b : Bytes) (sh x : Sheet) (s : State), buf ∈ s.host.sheetBusy → buf ∉ s.host.sheetMute → aget buf s.host.sheetBuf = some b → parseSheet b = some sh →
    sh.standing = false → sh.cut = true → s.dealing = true → s.cad.deal + 1 < sh.target → sh.target ≤ s.cad.deal + 8 →
    (∀ f, s.form sh.formId = some f → f.unload = [] ∧ f.revoked = false ∧ s.certified f = true ∧ fillsBad f sh = false ∧ sheetOverfull f sh = false) → s.form sh.formId ≠ none →
    s.dealer.sheets.filter (fun y => decide (y.target = sh.target)) = [x] → x.mute = false →
    exec (.sheetArrival buf) s = .next (State.sheetCpl (State.sheetAnswered { s with dealer := { s.dealer with
      sheets := s.dealer.sheets.filter (fun y => decide (y.target ≠ sh.target)) ++ [{ sh with mute := false }] } } buf 0x00 sh.tag sh.target) 0x05 x.tag x.target 0 0xFFFF))
  ∧ ((∀ (s : State) (p : Plan) (f : Form), s.dealing = true → s.cad.cutDone = false → s.dealer.running = some p → p.form s = some f → s.cad.trick = f.cutoff →
    ∃ t q, exec .sheetCutoff s = .next t ∧ t.dealer.selected = some q ∧ t.cad = { s.cad with cutDone := true }
      ∧ t.dealer.standing = s.dealer.standingNext.or s.dealer.standing ∧ t.dealer.standingNext = none
      ∧ (∀ x ∈ t.dealer.sheets, x.target ≠ s.cad.deal + 1) ∧ (∀ x ∈ s.dealer.sheets, x.target ≠ s.cad.deal + 1 → x ∈ t.dealer.sheets)
      ∧ t.seats = s.seats ∧ t.forms = s.forms ∧ t.dealer.running = s.dealer.running)
  ∧ (∀ s : State, s.cutoffTrick ≠ some s.cad.trick ∨ s.cad.cutDone = true → exec .sheetCutoff s = .next s))

/-! ## Seats -/

/-- Table 3.4: SEAT takes an EMPTY seat to SEATED with the host's record, progress and counters clear; on another state, a bad record or a reserved bit it only reports. CLEAR zeroes the record of a HELD or DONE seat. Table 3.4, R58: a HOLD of a seat that no plan names takes effect at once with HELD_CAUSE 0x18; of a seat the undecided deal in progress deals, at its decision, before which neither the seat changes nor a completion is posted; RELEASE returns a HELD seat to SEATED with its progress, and with REWRITE set puts the payload's host fields in place of the record's. Table 19.5, R71: READ_SEAT copies the record as it stands to the slot's payload and changes no seat; ABORT gives the dealt deal the cause host abort, and answers NO_DEAL when no deal that is not idle would misdeal. -/
def Obligations.SeatCommands : Prop :=
  ((∀ (c : CmdSlot) (s : State), Admitted s c false (some (parseSeat c.payload).account) → argHigh c.arg0 17 = false → c.arg1 = 0 → c.arg2 = 0 →
    ((s.seat c.arg0.toNat).state = 0 → s.recordBad (parseSeat c.payload) = false →
      exec (.seat c) s = .next ((s.setSeat c.arg0.toNat (
        let n := parseSeat c.payload
        { state := 1, account := n.account, priority := n.priority, plan := n.plan, latentA := n.latentA, latentB := n.latentB, cond := n.cond, kvRoot := n.kvRoot, kvPages := n.kvPages,
          out := n.out, tag := n.tag, videoEn := n.videoEn, videoEngine := n.videoEngine, videoSession := n.videoSession, args := n.args, residency := 0xFFFF })).cmdDone 0x01 c 0 0))
    ∧ ((s.seat c.arg0.toNat).state ≠ 0 → exec (.seat c) s = .next (s.cmdDone 0x01 c 1 0))
    ∧ ((s.seat c.arg0.toNat).state = 0 → s.recordBad (parseSeat c.payload) = true → exec (.seat c) s = .next (s.cmdDone 0x01 c 2 0)))
  ∧ (∀ (c : CmdSlot) (s : State), Admitted s c false (some (s.seat c.arg0.toNat).account) → argHigh c.arg0 17 = false → c.arg1 = 0 → c.arg2 = 0 →
    ((s.seat c.arg0.toNat).state = 3 ∨ (s.seat c.arg0.toNat).state = 4 → exec (.clear c) s = .next ((s.setSeat c.arg0.toNat {}).cmdDone 0x04 c 0 0))
    ∧ ((s.seat c.arg0.toNat).state ≠ 3 → (s.seat c.arg0.toNat).state ≠ 4 → exec (.clear c) s = .next (s.cmdDone 0x04 c 1 0))))
  ∧ ((∀ (c : CmdSlot) (s : State), Admitted s c false (some (s.seat c.arg0.toNat).account) → argHigh c.arg0 17 = false → c.arg1 = 0 → c.arg2 = 0 →
    ((s.seat c.arg0.toNat).state = 1 ∨ (s.seat c.arg0.toNat).state = 2 →
      planNames s.dealer.running c.arg0.toNat = false → planNames s.dealer.selected c.arg0.toNat = false → planNames s.dealer.redeal c.arg0.toNat = false →
      exec (.hold c) s = .next ((s.setSeat c.arg0.toNat { s.seat c.arg0.toNat with state := 3, heldCause := 0x18 }).cmdDone 0x02 c 0 0))
    ∧ ((s.seat c.arg0.toNat).state = 1 ∨ (s.seat c.arg0.toNat).state = 2 →
      s.dealing = true → planNames s.dealer.running c.arg0.toNat = true → s.causeDeal = s.cad.deal → s.group.binding = none →
      exec (.hold c) s = .next ((s.cmdTaken c).withHold { seat := c.arg0.toNat, deal := some s.cad.deal, ticket := ticketOf s 0x02 c }))
    ∧ ((s.seat c.arg0.toNat).state ≠ 1 → (s.seat c.arg0.toNat).state ≠ 2 → exec (.hold c) s = .next (s.cmdDone 0x02 c 1 0)))
  ∧ (∀ (c : CmdSlot) (s : State), Admitted s c false (some (s.seat c.arg0.toNat).account) → argHigh c.arg0 17 = false → c.arg1 = 0 → c.arg2 = 0 →
    ((s.seat c.arg0.toNat).state = 3 → s.recordBad (s.seat c.arg0.toNat) = false →
      exec (.release c) s = .next ((s.setSeat c.arg0.toNat { s.seat c.arg0.toNat with state := 1, heldCause := 0 }).cmdDone 0x03 c 0 0))
    ∧ ((s.seat c.arg0.toNat).state ≠ 3 → exec (.release c) s = .next (s.cmdDone 0x03 c 1 0)))
  ∧ (∀ (c : CmdSlot) (s : State), Admitted s c false (some (s.seat c.arg0.toNat).account) → argHigh c.arg0 17 = false → c.arg1 = 1 → c.arg2 = 0 →
    (s.seat c.arg0.toNat).state = 3 → s.acts c.fn (parseSeat c.payload).account = true → s.recordBad (parseSeat c.payload) = false → (s.seat c.arg0.toNat).rsvd = false →
      exec (.release c) s = .next ((s.setSeat c.arg0.toNat (
        let n := parseSeat c.payload
        { s.seat c.arg0.toNat with
          state := 1, heldCause := 0, account := n.account, priority := n.priority, plan := n.plan, latentA := n.latentA, latentB := n.latentB, cond := n.cond, kvRoot := n.kvRoot, kvPages := n.kvPages,
          out := n.out, tag := n.tag, videoEn := n.videoEn, videoEngine := n.videoEngine, videoSession := n.videoSession, args := n.args
          residency := if n.residency = 0xFFFF then 0xFFFF else (s.seat c.arg0.toNat).residency })).cmdDone 0x03 c 0 0)))
  ∧ ((∀ (c : CmdSlot) (s : State), Admitted s c false (some (s.seat c.arg0.toNat).account) → argHigh c.arg0 17 = false → c.arg1 = 0 → c.arg2 = 0 →
    exec (.readSeat c) s = .next ((s.setFn c.fn { s.fn c.fn with payload := aset c.slot (seatBytes (s.seat c.arg0.toNat)) (s.fn c.fn).payload }).cmdDone 0x05 c 0 0))
  ∧ (∀ (c : CmdSlot) (s : State) (p : Plan), Admitted s c true none → c.arg0 = 0 → c.arg1 = 0 → c.arg2 = 0 →
    (s.dealing = true → s.causeDeal = s.cad.deal → s.dealer.running = some p → p.formId ≠ none → s.group.binding = none →
      exec (.abort c) s = .next (State.cmdDone { s with dealer := { s.dealer with
        causes := s.dealer.causes ++ [{ deal := s.cad.deal, rank := 9, detail := 0, member := 0, remote := false, slot := 0xFFF, die := 0, place := 0, repair := false }] } } 0x30 c 0 0))
    ∧ (s.dealing = false → exec (.abort c) s = .next (s.cmdDone 0x30 c 0x11 0))))

/-! ## Forms -/

/-- R107 to R113: an image whose pages are readable and that passes every check, under the current repair generation, is loaded as the form it describes; under another generation the load answers STALE; a FORM_ID already loaded answers DUPLICATE, but OK with no change when the digest is the same. FORM_UNLOAD drops a form no deal uses at once; while a deal uses it the unload waits, and takes effect with one completion for each when no deal does; an unloaded FORM_ID answers NO_FORM. R66: a standing sheet registered on the form is registered no longer. -/
def Obligations.FormsLoadAndUnload : Prop :=
  (∀ (c : CmdSlot) (img : FormImage) (s u : State), Admitted s c true none → argHigh c.arg0 29 = false → argHigh c.arg1 32 = false →
    imageReadable (s.cmdTaken c) (bits c.arg0.toNat 0 12) (bits c.arg2.toNat 48 16) (bits c.arg2.toNat 0 48) = (true, u) →
    let f := parseForm img (bits c.arg0.toNat 0 12) (if bit c.arg0.toNat 28 then some (bits c.arg0.toNat 12 16) else none)
    (Loadable s img f → c.arg1.toNat = s.repair.generation.toNat →
      ∃ t, exec (.formLoad c img) s = .next t ∧ t.forms = insertForm f s.forms ∧ Completed s t 0x10 c 0
        ∧ t.seats = s.seats ∧ t.repair = s.repair ∧ t.dealer = s.dealer ∧ t.mem.bytes = s.mem.bytes ∧ t.nv = s.nv)
    ∧ (Loadable s img f → c.arg1.toNat ≠ s.repair.generation.toNat →
      ∃ t, exec (.formLoad c img) s = .next t ∧ t.forms = s.forms ∧ Completed s t 0x10 c 0x15)
    ∧ (containerBad img = false → s.rangeBad f = false → slotsBad f = false → winsBad f = false → nativeOk f.dieMask f.shortMask f.slots.length f.native = true →
      f.native.streams.any (·.region) = false → footsBad f = false →
      (∃ g ∈ s.forms, g.id = f.id ∧ g.cert.digest = f.cert.digest) →
      ∃ t, exec (.formLoad c img) s = .next t ∧ t.forms = s.forms ∧ Completed s t 0x10 c 0))
  ∧ ((∀ (c : CmdSlot) (s : State), Admitted s c true none → argHigh c.arg0 16 = false → c.arg1 = 0 → c.arg2 = 0 →
    ((∃ g ∈ s.forms, g.id = c.arg0.toNat) → s.formInUse c.arg0.toNat = false →
      exec (.formUnload c) s = .next (State.cmdDone { s with
        forms := s.forms.filter (fun g => decide (g.id ≠ c.arg0.toNat))
        svis := { s.svis with code := s.svis.code.filter (fun w => w.prog.isSome || decide (w.form ≠ c.arg0.toNat)) }
        dealer := { s.dealer with standing := standingWithout c.arg0.toNat s.dealer.standing, standingNext := standingWithout c.arg0.toNat s.dealer.standingNext } } 0x11 c 0 0))
    ∧ ((∃ g ∈ s.forms, g.id = c.arg0.toNat) → s.formInUse c.arg0.toNat = true →
      exec (.formUnload c) s = .next { s.cmdTaken c with
        forms := s.forms.map (fun g => if g.id = c.arg0.toNat then { g with unload := g.unload ++ [ticketOf s 0x11 c] } else g) })
    ∧ ((∀ g ∈ s.forms, g.id ≠ c.arg0.toNat) → exec (.formUnload c) s = .next (s.cmdDone 0x11 c 3 0)))
  ∧ (∀ (id : Nat) (f : Form) (k : Ticket) (s : State), s.form id = some f → f.unload = [k] → s.formInUse id = false →
    exec (.unloadEffect id) s = .next (State.complete { s with
      forms := s.forms.filter (fun g => decide (g.id ≠ id))
      svis := { s.svis with code := s.svis.code.filter (fun w => w.prog.isSome || decide (w.form ≠ id)) }
      dealer := { s.dealer with standing := standingWithout id s.dealer.standing, standingNext := standingWithout id s.dealer.standingNext } } k 0))
  ∧ (∀ (id : Nat) (s : State), s.formInUse id = true → exec (.unloadEffect id) s = .next s))

/-! ## Contexts, queues, open programs, runs -/

/-- R244, R248: CONTEXT installs a legal descriptor and drops what was cached under the account; an illegal one answers BAD_RECORD. INVALIDATE drops cached translations of its range and is DONE, or is DEFERRED while a page of it is pinned and DONE once none is. -/
def Obligations.ContextAndInvalidate : Prop :=
  (∀ (c : CmdSlot) (s : State), Admitted s c true none → argHigh c.arg0 12 = false → c.arg1 = 0 → c.arg2 = 0 →
    (∀ x, parseContext (c.payload.take 16) = some x →
      exec (.context c) s = .next (State.cmdDone { s with mem := { s.mem with
        contexts := aset c.arg0.toNat x s.mem.contexts, cached := s.mem.cached.filter (fun l => decide (l.ctx ≠ c.arg0.toNat)) } } 0x20 c 0 0))
    ∧ (parseContext (c.payload.take 16) = none → exec (.context c) s = .next (s.cmdDone 0x20 c 2 0)))
  ∧ (∀ (c : CmdSlot) (s : State), Admitted s c true none → argHigh c.arg0 12 = false → argHigh c.arg1 48 = false → c.arg2.toNat % 65536 = 0 →
    (s.rangePinned c.arg0.toNat c.arg1.toNat c.arg2.toNat = false →
      exec (.invalidate c) s = .next (State.cmdDone { s with mem := { s.mem with
        cached := s.mem.cached.filter (fun l => !(l.ctx = c.arg0.toNat && overlaps l.va l.size c.arg1.toNat c.arg2.toNat)) } } 0x21 c 0 0))
    ∧ (s.rangePinned c.arg0.toNat c.arg1.toNat c.arg2.toNat = true →
      exec (.invalidate c) s = .next (State.cmdDone { s with mem := { s.mem with
        deferred := s.mem.deferred ++ [{ ctx := c.arg0.toNat, va := c.arg1.toNat, len := c.arg2.toNat, ticket := ticketOf s 0x21 c }] } } 0x21 c 0x10 0)))
  ∧ (∀ (d : Deferred) (s : State), s.mem.deferred = [d] → d.ticket.tag < 2 ^ 32 → s.rangePinned d.ctx d.va d.len = false →
    exec (.invalidateDone (BitVec.ofNat 32 d.ticket.tag)) s = .next (State.complete { s with mem := { s.mem with
      deferred := [], cached := s.mem.cached.filter (fun l => !(l.ctx = d.ctx && overlaps l.va l.size d.va d.len)) } } d.ticket 0))

/-- R550, R119, R295, R281, R357: QBIND binds an idle queue; PROGRAM waits last behind the programs accepted before it; PASS waits for its stream; IMAGE_DELETE frees the entry of an image no form names; AUDIT begins a run long enough for the self-test. Each refusal names its reason and changes nothing else. -/
def Obligations.QueueProgramPassImageAudit : Prop :=
  (∀ (c : CmdSlot) (s : State), Admitted s c true none → argHigh c.arg0 6 = false → argHigh c.arg1 12 = false → c.arg2 = 0 →
    ((s.queue c.arg0.toNat).held = 0 ∨ (s.queue c.arg0.toNat).stopped = true →
      exec (.qbind c) s = .next ((s.setQueue c.arg0.toNat { s.queue c.arg0.toNat with account := some c.arg1.toNat }).cmdDone 0x22 c 0 0))
    ∧ ((s.queue c.arg0.toNat).held ≠ 0 → (s.queue c.arg0.toNat).stopped = false → exec (.qbind c) s = .next (s.cmdDone 0x22 c 0x13 0)))
  ∧ (∀ (c : CmdSlot) (info : NativeInfo) (s : State), Admitted s c true none → argHigh c.arg0 12 = false → argHigh c.arg1 48 = false → nativeOk 0xFF 0 1 info = true →
    exec (.program c info) s = .next { s.cmdTaken c with svis := { s.svis with
      programs := s.svis.programs ++ [{ id := s.svis.nextProgram, account := c.arg0.toNat, info, ticket := ticketOf s 0x32 c, dieMask := info.streams.foldl (fun m x => m ||| x.dieMask) 0, takenPs := s.now, start := none, accSat := false }]
      nextProgram := s.svis.nextProgram + 1 } })
  ∧ (∀ (c : CmdSlot) (s : State), Admitted s c true none → c.arg2 = 0 →
    (s.vault.pass = none → s.vault.passCmd = none → s.dict.settings.position = 0 → s.sec.lifeCycle = 1 ∨ s.sec.lifeCycle = 2 →
      exec (.pass c) s = .next { s.cmdTaken c with vault := { s.vault with passCmd := some (ticketOf s 0x40 c) } })
    ∧ (s.vault.pass.isSome = true ∨ s.vault.passCmd.isSome = true → exec (.pass c) s = .next (s.cmdDone 0x40 c 0x0B 0)))
  ∧ (∀ (c : CmdSlot) (s : State) (i : Nat) (e : ImageEntry), Admitted s c true none → argHigh c.arg0 32 = false → c.arg1 = 0 → c.arg2 = 0 →
    (s.imageOf c.arg0.toNat = some (i, e) → (∀ f ∈ s.forms, f.weightImage ≠ c.arg0.toNat) →
      exec (.imageDelete c) s = .next (State.cmdDone { s with nv := { s.nv with images := adel i s.nv.images } } 0x41 c 0 0))
    ∧ (s.imageOf c.arg0.toNat = some (i, e) → (∃ f ∈ s.forms, f.weightImage = c.arg0.toNat) → exec (.imageDelete c) s = .next (s.cmdDone 0x41 c 0x04 0))
    ∧ (s.imageOf c.arg0.toNat = none → exec (.imageDelete c) s = .next (s.cmdDone 0x41 c 0x14 0)))
  ∧ (∀ (c : CmdSlot) (s : State) (l : Nat), Admitted s c true none → 1 ≤ c.arg0.toNat → c.arg0.toNat ≤ 64 → c.arg1 = 0 → c.arg2 = 0 → s.cad.len = some l →
    (1200000 ≤ c.arg0.toNat * (l - 256) * s.cad.period → s.dealer.auditTickets = [] → s.dealer.auditLeft = 0 →
      exec (.audit c) s = .next { s.cmdTaken c with dealer := { s.dealer with auditLeft := c.arg0.toNat, auditTickets := [ticketOf s 0x31 c] } })
    ∧ (c.arg0.toNat * (l - 256) * s.cad.period < 1200000 → exec (.audit c) s = .next (State.cmdDone { s with repair := { s.repair with bistResult := 4 } } 0x31 c 0x12 0)))

/-! ## Video engines -/

/-- R306, R307: OPEN of a closed session with a legal descriptor on a ready engine opens it with nothing encoded and its buffers UNUSED; a bad descriptor answers BAD_DESC, an open session BAD_STATE, an engine in reset or disabled ENGINE_OFF. -/
def Obligations.VideoOpens : Prop :=
  ∀ (c : CmdSlot) (s : State), Admitted s c false none → vArgBad c = false → c.arg1 = 0 → c.arg2 = 0 →
    let p := parseDesc c.payload
    let d := p.1
    (descOut d p.2.2.1 p.2.2.2 = true → exec (.openSession c) s = .next (s.cmdDone 0x50 c 0x01 0))
    ∧ (descOut d p.2.2.1 p.2.2.2 = false → (s.vsession (vKeyOf c)).state ≠ 0 → exec (.openSession c) s = .next (s.cmdDone 0x50 c 0x02 0))
    ∧ (descOut d p.2.2.1 p.2.2.2 = false → (s.vsession (vKeyOf c)).state = 0 → d.width * d.height ≤ maxPicture d → (hevc d = true → d.poolCount ≤ maxDpb d) →
        s.poolMeets (vEngine c) (vKeyOf c) d = false → s.acts c.fn p.2.1 = true →
        (∀ i < d.poolCount, poolBytes d ≤ ((aget (d.poolFirst + i) (s.engine (vEngine c)).pool).getD {}).bytes) →
        ((s.engine (vEngine c)).disabled = true ∨ (s.engine (vEngine c)).resetting = true → exec (.openSession c) s = .next (s.cmdDone 0x50 c 0x07 0))
        ∧ ((s.engine (vEngine c)).disabled = false → (s.engine (vEngine c)).resetting = false →
          exec (.openSession c) s = .next (((s.setSession (vKeyOf c)
            { state := 1, account := p.2.1, frames := p.2.2.1, frameStride := p.2.2.2, desc := d, vec := (s.vsession (vKeyOf c)).vec }).setEngine (vEngine c)
              ((s.engine (vEngine c)).freeRange d.poolFirst d.poolCount (vSession c))).cmdDone 0x50 c 0 0)))

/-- Table 11.6, R326: CLOSE drains a session and answers when nothing of it is queued; ABANDON closes a session at once when nothing is in service or it is FAULTED, else at the next boundary; a session without a state that allows the command answers BAD_STATE. -/
def Obligations.VideoCloses : Prop :=
  (∀ (c : CmdSlot) (s : State), VideoAdmitted s c (fun x => x.state = 1 || x.state = 3) →
    exec (.closeSession c) s = .next ((s.cmdTaken c).setSession (vKeyOf c)
      { s.vsession (vKeyOf c) with state := 2, closing := (s.vsession (vKeyOf c)).closing ++ [ticketOf s 0x50 c] }))
  ∧ (∀ (e n : Nat) (k : Ticket) (s : State), (s.vsession (vkey e n)).state = 2 → (s.vsession (vkey e n)).handoffs = [] → (s.vsession (vkey e n)).decodes = [] →
      (s.vsession (vkey e n)).closing = [k] → n < 64 →
    exec (.sessionDrained e n) s = .next (State.complete ((s.setSession (vkey e n) { vec := (s.vsession (vkey e n)).vec }).setEngine e
      ((s.engine e).freeRange (s.vsession (vkey e n)).desc.poolFirst (s.vsession (vkey e n)).desc.poolCount 0)) k 0))
  ∧ (∀ (c : CmdSlot) (s : State), VideoAdmitted s c (fun x => x.state ≠ 0) →
    ((s.vsession (vKeyOf c)).state ≠ 3 → (s.vsession (vKeyOf c)).handoffs ≠ [] → (s.vsession (vKeyOf c)).full = false →
      exec (.abandon c) s = .next ((s.cmdTaken c).setSession (vKeyOf c)
        { s.vsession (vKeyOf c) with abandon := true, closing := (s.vsession (vKeyOf c)).closing ++ [ticketOf s 0x50 c] }))
    ∧ ((s.vsession (vKeyOf c)).handoffs = [] → (s.vsession (vKeyOf c)).decodes = [] →
      ∃ t, exec (.abandon c) s = .next t ∧ t.vsession (vKeyOf c) = { vec := (s.vsession (vKeyOf c)).vec } ∧ t.seats = s.seats ∧ t.mem = s.mem))
  ∧ (∀ (c : CmdSlot) (s : State), Admitted s c false none → vArgBad c = false → c.arg2 = 0 → (s.vsession (vKeyOf c)).state = 0 →
    exec (.closeSession c) s = .next (s.cmdDone 0x50 c 0x02 0) ∧ exec (.abandon c) s = .next (s.cmdDone 0x50 c 0x02 0))

/-- R311, R319, R322: FORCE_KEY and RATE of an open encode session wait for its next frame; MARK marks one buffer of the session's range; DECODE of an open decode session joins its queue, and one without bytes completes at once. R315, R551: the host's read offset frees ring space and lets a waiting session go on; one past the write offset is discarded. R317: a legal pool entry in no open session's range takes the address, size and mark written, and no other entry changes. -/
def Obligations.VideoCommands : Prop :=
  ((∀ (c : CmdSlot) (s : State), VideoAdmitted s c (fun x => x.state = 1 && encodes x.desc) →
    exec (.forceKey c) s = .next ((s.setSession (vKeyOf c) { s.vsession (vKeyOf c) with forceKey := true }).cmdDone 0x50 c 0 0)
    ∧ (argHigh c.arg1 52 = false → (s.vsession (vKeyOf c)).desc.rc = 0 → bits c.arg1.toNat 0 22 ≤ 4000000 → bits c.arg1.toNat 44 8 ≤ 51 →
      exec (.rate c) s = .next ((s.setSession (vKeyOf c) { s.vsession (vKeyOf c) with
        rate := some (bits c.arg1.toNat 0 22, bits c.arg1.toNat 22 22, bits c.arg1.toNat 44 8) }).cmdDone 0x50 c 0 0))
    ∧ (argHigh c.arg1 52 = false → 4000000 < bits c.arg1.toNat 0 22 → exec (.rate c) s = .next (s.cmdDone 0x50 c 0x01 0)))
  ∧ (∀ (c : CmdSlot) (s : State), VideoAdmitted s c (fun x => x.state = 1 && x.desc.hostMark) → argHigh c.arg1 10 = false → bits c.arg1.toNat 6 2 = 0 →
    (bits c.arg1.toNat 8 2 < 2 → bits c.arg1.toNat 0 6 ∈ poolRange (s.vsession (vKeyOf c)).desc → (s.vsession (vKeyOf c)).recon ≠ some (bits c.arg1.toNat 0 6) →
      exec (.poolMark c) s = .next ((s.setEngine (vEngine c) ((s.engine (vEngine c)).setMark (bits c.arg1.toNat 0 6) (bits c.arg1.toNat 8 2))).cmdDone 0x50 c 0 0))
    ∧ (bits c.arg1.toNat 0 6 ∉ poolRange (s.vsession (vKeyOf c)).desc → exec (.poolMark c) s = .next (s.cmdDone 0x50 c 0x01 0)))
  ∧ (∀ (c : CmdSlot) (s : State), VideoAdmitted s c (fun x => x.state = 1 && !encodes x.desc) → c.arg1 = 0 →
    le c.payload 0 8 < 2 ^ 48 → le c.payload 0x10 8 < 2 ^ 48 →
    (le c.payload 8 8 ≠ 0 → le c.payload 0x18 8 ≠ 0 → exec (.decodeCmd c) s = .next ((s.cmdTaken c).setSession (vKeyOf c) { s.vsession (vKeyOf c) with
      decodes := (s.vsession (vKeyOf c)).decodes ++ [{ va := le c.payload 0 8, len := le c.payload 8 8, outVa := le c.payload 0x10 8, frames := le c.payload 0x18 8, tag := c.tag.toNat, ticket := ticketOf s 0x50 c, consumed := 0, written := 0 }] }))
    ∧ (le c.payload 8 8 = 0 → exec (.decodeCmd c) s = .next (s.cmdDone 0x50 c 0 0))))
  ∧ (∀ (fn e n off : Nat) (s : State), let x := s.vsession (vkey e n)
    x.state ≠ 0 → encodes x.desc = true → s.acts fn x.account = true → off < 2 ^ x.desc.bsLog →
    let add := (off + 2 ^ x.desc.bsLog - x.hostRead % 2 ^ x.desc.bsLog) % 2 ^ x.desc.bsLog
    (0 < add → add ≤ x.written - x.hostRead → exec (.bsRead fn e n off) s = .next (s.setSession (vkey e n) { x with hostRead := x.hostRead + add, full := x.stillFull (x.hostRead + add) }))
    ∧ (x.written - x.hostRead < add → exec (.bsRead fn e n off) s = .next s))
  ∧ (∀ (p : Path) (e b : Nat) (v : Bytes) (s : State), s.gate p (0x2401 + e) (b + 1) true = 0 → e < 4 → b < 64 → v.length = 16 → le v 0 8 < 2 ^ 48 → le v 0 8 % 64 = 0 → nonzero v 0xE 2 = false →
    byteAt v 0xC ≤ 2 → (∀ x ∈ s.video.sessions, x.1 / 64 = e → x.2.state ≠ 0 → (poolRange x.2.desc).contains b = false) →
    ∃ t, exec (.poolEntryWrite p e b v) s = .next t ∧ ((t.engine e).entry b).va = le v 0 8 ∧ ((t.engine e).entry b).bytes = le v 8 4 ∧ ((t.engine e).entry b).mark = byteAt v 0xC
      ∧ (∀ c, c ≠ b → (t.engine e).entry c = (s.engine e).entry c) ∧ (∀ f, f ≠ e → t.engine f = s.engine f) ∧ t.video.sessions = s.video.sessions
      ∧ t.dict.answer = some { status := 1, detail := 0, data := [] } ∧ t.mem = s.mem ∧ t.seats = s.seats)

/-- R304, R313 to R316, R327: the engine reads the slice of the frame under way (a slice that waited for room stands as it was coded); its bytes, where they fit the ring, are written at the write offset, recorded and counted, and the slice number moves on; a fault of a write takes the session to FAULTED with its code; bytes that do not fit make the session wait with them, with one event and nothing written. -/
def Obligations.SliceWritten : Prop :=
  ∀ (e n : Nat) (h : Handoff) (rest : List Handoff) (out : SliceOut) (s u : State) (y : Session) (b : Bytes), SliceServed s e n h rest →
    ((s.vsession (vkey e n)).waiting = some b ∧ y = s.vsession (vkey e n) ∧ u = s.serving e n)
      ∨ (∃ src v, SliceRead s e n h out src v ∧ y = (s.vsession (vkey e n)).addSlice (getSamples (s.vsession (vkey e n)).desc src) ∧ b = y.sliceBits ∧ u = v.setSession (vkey e n) y) →
    let size := 2 ^ y.desc.bsLog
    let faulted := fun (c : Nat) => ∃ t, exec (.sliceDone e out) s = .next t ∧ (t.vsession (vkey e n)).fault = c
      ∧ (t.vsession (vkey e n)).state = (if y.state = 2 then 2 else 3) ∧ (t.vsession (vkey e n)).handoffs = [] ∧ t.seats = s.seats
    (b.length ≤ size → (y.written - y.hostRead) + b.length ≤ size → y.slice + 1 ≠ frameSlices y.desc →
      match State.vWrite y.account (fun i => y.desc.bsBase + (y.written + i) % size) 0 b u with
      | (some c, _) => faulted c
      | (none, v) =>
        match v.writeRecord (vkey e n) h.deal y.frame y.slice (boolNat (y.slice = 0) + 4 * boolNat y.key + 16 * boolNat y.restarted) (y.written % size) b.length h.tag with
        | (some c, _) => faulted c
        | (none, w) => ∃ t, exec (.sliceDone e out) s = .next t
          ∧ t.vsession (vkey e n) = { y with seq := (y.seq + 1) % 2 ^ 32, written := y.written + b.length, slice := y.slice + 1, waiting := none }
          ∧ t.mem.bytes = w.mem.bytes ∧ t.seats = s.seats ∧ t.dealer = s.dealer)
    ∧ (b.length ≤ size → size < (y.written - y.hostRead) + b.length →
      ∃ t, exec (.sliceDone e out) s = .next t ∧ t.vsession (vkey e n) = { y with full := true, waiting := some b } ∧ t.mem.bytes = s.mem.bytes ∧ t.log.seq ≠ s.log.seq)

/-- R304, R322 to R324, R327: a decoded frame whose area is not guarded, its stream and references read without fault, is written in the layout of R312, recorded and counted, and the next output position is the next frame's; a fault of a write takes the session to FAULTED; a frame for a guarded page waits and is counted once in OD 0x2400.11. -/
def Obligations.FrameDecoded : Prop :=
  ∀ (e n : Nat) (r : DecodeRun) (rest : List DecodeRun) (p : Picture) (s : State),
    let x := s.vsession (vkey e n)
    x.decodes = r :: rest → x.state = 1 → x.abandon = false → (s.engine e).resetting = false → s.power.phase = 0 → picRefused x.desc p = false → (x.skipping = false ∨ p.key = true) →
    let va := r.outVa + r.written * x.frameStride
    let faulted := fun (c : Nat) => ∃ t, exec (.decodeFrameDone e n (.frame p)) s = .next t ∧ (t.vsession (vkey e n)).fault = c ∧ (t.vsession (vkey e n)).state = 3
      ∧ (t.vsession (vkey e n)).decodes = [] ∧ t.seats = s.seats
    (s.outGuarded x.account va (frameSize x.desc) = true →
      (r.waiting = false → exec (.decodeFrameDone e n (.frame p)) s
        = .next (State.setSession { s with video := { s.video with held := s.video.held + 1 } } (vkey e n) { x with decodes := { r with waiting := true } :: rest }))
      ∧ (r.waiting = true → exec (.decodeFrameDone e n (.frame p)) s = .next s))
    ∧ (s.outGuarded x.account va (frameSize x.desc) = false → ∀ a b c ref, s.stateTouched x = (none, a) → a.takeStream (vkey e n) r p.consumed = (none, b) →
        State.vRead x.account ((b.engine e).refAddresses (poolRange x.desc) p.refs) b = (.ok (ref, false), c) →
      match State.vWrite x.account (fun i => va + (frameOffsets x.desc p.width p.height).getD i 0) 0
          (pictureBytes x.desc p (Config.decodedSample x.desc.codec (c.vsession (vkey e n)).stream x.outFrame)) c with
      | (some f, _) => faulted f
      | (none, u) =>
        match u.writeRecord (vkey e n) 0 x.outFrame 0 (4 * boolNat p.key + 32 * boolNat p.grain + 3) (r.written * x.frameStride) (frameSize x.desc) r.tag with
        | (some f, _) => faulted f
        | (none, w) => ∃ t, exec (.decodeFrameDone e n (.frame p)) s = .next t
          ∧ (t.vsession (vkey e n)).outFrame = (x.outFrame + 1) % 2 ^ 32 ∧ (t.vsession (vkey e n)).skipping = false ∧ (t.engine e).decoded = (s.engine e).decoded + 1
          ∧ (t.vsession (vkey e n)).decodes = (if p.last = true ∨ r.len ≤ (r.next p.consumed).consumed ∨ r.frames ≤ r.written + 1 then rest else r.next p.consumed :: rest)
          ∧ t.mem = w.mem ∧ t.seats = s.seats)

/-- R328: an engine that meets a defect faults its open sessions, counts the defect and resets; the fourth one disables it; at the end of the reset it is ready again unless disabled. -/
def Obligations.EngineDefects : Prop :=
  (∀ (e : Nat) (s : State), ∃ t, exec (.engineDefect e) s = .next t
    ∧ (t.engine e).defects = (s.engine e).defects + 1 ∧ (t.engine e).resetting = true ∧ ((t.engine e).disabled = true ↔ (s.engine e).disabled = true ∨ 3 ≤ (s.engine e).defects)
    ∧ (∀ n < 64, (s.vsession (vkey e n)).state = 1 → (s.vsession (vkey e n)).abandon = false →
        (t.vsession (vkey e n)).state = 3 ∧ (t.vsession (vkey e n)).fault = 0x69 ∧ (t.vsession (vkey e n)).handoffs = [] ∧ (t.vsession (vkey e n)).decodes = [])
    ∧ (∀ e', e' ≠ e → t.engine e' = s.engine e') ∧ t.seats = s.seats ∧ t.mem = s.mem ∧ t.cad = s.cad)
  ∧ (∀ (e : Nat) (s : State), (s.engine e).resetting = true → exec (.engineResetDone e) s = .next (s.setEngine e { s.engine e with resetting := false }))

/-! ## SVIS: words of deal code -/

/-- R10, R102, R121, R183, R184: every opcode of deal code that may issue does issue, whatever its checks find: its stream moves past it, one item of its queue goes in flight with its post, the queue is held from that cycle, and no byte of HBM, no seat, form, translation context or vault image, nothing of the deal clock and nothing of another core changes yet. -/
def Obligations.DealCodeWordsIssue : Prop :=
  ∀ (op : SvisOp) (x : Site) (b : Base) (slot cycle : Nat) (form : Form) (s : State), WordReady s x b op slot cycle form →
    ∃ t, exec (commandOf x b op) s = .next t
      ∧ t.streamPos x = (s.streamPos x).after x op cycle
      ∧ (∃ i, t.svis.items = s.svis.items ++ [i] ∧ i.core = siteKey x ∧ i.queue = opQueue op ∧ i.owner = x.owner ∧ i.issue = cycle
          ∧ i.post = (if b.pe = 1 then some b.post.toNat else none) ∧ ((s.core (siteKey x)).qstate (opQueue op)).done ≤ i.done)
      ∧ ((t.core (siteKey x)).qstate (opQueue op)).issue = cycle
      ∧ (t.core (siteKey x)).store = (s.core (siteKey x)).store
      ∧ (∀ k, k ≠ siteKey x → t.core k = s.core k)
      ∧ t.mem.bytes = s.mem.bytes ∧ t.mem.contexts = s.mem.contexts ∧ t.seats = s.seats ∧ t.forms = s.forms ∧ t.cad = s.cad ∧ t.nv.images = s.nv.images

/-- R155, R103: a wait that finds its chips takes them; one that does not leaves the count and, with no late producer, gives the deal the cause renege CHIP_EARLY of its slot, and the instruction issues all the same. -/
def Obligations.ChipWaits : Prop :=
  ∀ (op : SvisOp) (x : Site) (b : Base) (slot cycle : Nat) (form : Form) (s : State), WordReady s x b op slot cycle form → b.we = 1 →
    let n := ((s.core (siteKey x)).settle cycle).chip b.wait.toNat
    (b.need.toNat ≤ n → ∃ t, exec (commandOf x b op) s = .next t ∧ (t.core (siteKey x)).chip b.wait.toNat = n - b.need.toNat)
    ∧ (n < b.need.toNat → s.svis.items = [] → s.dealer.running.any (·.deadSlots.contains slot) = false → ∃ t, exec (commandOf x b op) s = .next t ∧ (t.core (siteKey x)).chip b.wait.toNat = n
        ∧ ∃ c ∈ t.dealer.causes, c.rank = 6 ∧ c.detail = 0x11 ∧ c.slot = slot)

/-- Tables 5.12, 5.13, R129, R151, R152, R157: what the C queue's words do to registers, regions, the trace and the stream, beside occupying their slot. -/
def Obligations.ControlWords : Prop :=
  ∀ (x : Site) (b : Base) (slot cycle : Nat) (form : Form) (s : State), b.we = 0 →
    let k := siteKey x
    let old := fun (d : Nat) => ((s.core k).settle cycle).lastReg d
    (∀ d imm, WordReady s x b (.seta d imm) slot cycle form → ∃ t, exec (.seta x b d imm) s = .next t ∧ (t.core k).lastReg d.toNat = imm.toNat)
    ∧ (∀ d imm, WordReady s x b (.adda d imm) slot cycle form →
        ∃ t, exec (.adda x b d imm) s = .next t ∧ (t.core k).lastReg d.toNat = ((((old d.toNat : Nat) : Int) + imm.toInt) % 2 ^ 48).toNat)
    ∧ (∀ d sel scale, WordReady s x b (.addid d sel scale) slot cycle form →
        ∃ t, exec (.addid x b d sel scale) s = .next t ∧ (t.core k).lastReg d.toNat
          = ((((old d.toNat : Nat) : Int) + ((match sel.toNat with | 0 => x.core | 1 => x.row | 2 => x.col | 3 => x.die | _ => form.member : Nat) : Int) * scale.toInt * 64) % 2 ^ 48).toNat)
    ∧ (∀ o, WordReady s x b (.region o) slot cycle form → o.len ≠ 0 → o.store = 0 →
        (s.regionRefused (.core k) o = false → ∃ t, exec (.region x b o) s = .next t
          ∧ (t.core k).regions = (s.core k).regions ++ [{ num := o.num.toNat, base := o.base.toNat, len := o.len.toNat, access := o.access.toNat }])
        ∧ (s.regionRefused (.core k) o = true → ∃ t, exec (.region x b o) s = .next t ∧ (t.core k).regions = (s.core k).regions))
    ∧ (∀ num, WordReady s x b (.rfree num 0) slot cycle form → s.svis.items = [] → (∀ g ∈ (s.core k).regions, g.freeing = false) →
        ∃ t, exec (.rfree x b num 0) s = .next t ∧ (t.core k).regions = (s.core k).regions.filter (fun g => decide (g.num ≠ num.toNat)))
    ∧ (∀ v, WordReady s x b (.mark v) slot cycle form → ∃ t, exec (.markTrace x b v) s = .next t ∧ t.svis.trace = s.svis.trace ++ [(k, v)])
    ∧ (∀ o, WordReady s x b (.repeatF o) slot cycle form → ∃ t, exec (.repeatFrame x b o) s = .next t
        ∧ (t.streamPos x).loops = (s.streamPos x).loops ++ [{ path := x.path, word := x.word, base := cycle, body := o.body.toNat, count := o.count.toNat, period := o.period.toNat, iter := 0, stepReg := o.stepreg.toNat, step := o.step.toInt }])

/-- R162, R163: a word of a region stream whose wait is not met stays handed to its queue; one of the C queue that nothing holds back issues at once; END ends the stream of its core, and with the last core the program; RWAIT with no access in flight issues. -/
def Obligations.RegionWords : Prop :=
  (∀ (op : SvisOp) (x : Site) (b : Base) (id : Nat) (s : State), WordAlone s x b op id → b.we = 1 →
      ((s.core (siteKey x)).settle (2 ^ 62)).chip b.wait.toNat < b.need.toNat →
    ∃ t h, exec (commandOf x b op) s = .next t ∧ (t.core (siteKey x)).handed = [h] ∧ h.op = op ∧ h.base = b ∧ h.program = id ∧ h.stream = x.stream
      ∧ t.streamPos x = (s.streamPos x).after x op 0 ∧ t.svis.items = [] ∧ (t.core (siteKey x)).store = (s.core (siteKey x)).store ∧ t.mem = s.mem ∧ t.seats = s.seats)
  ∧ (∀ (op : SvisOp) (x : Site) (b : Base) (id : Nat) (s : State), WordAlone s x b op id → b.we = 0 → opQueue op = 5 → (∀ o, op ≠ .region o) →
    ∃ t i, exec (commandOf x b op) s = .next t ∧ t.svis.items = [i] ∧ i.core = siteKey x ∧ i.queue = 5 ∧ i.owner = x.owner ∧ (t.core (siteKey x)).handed = []
      ∧ ((t.openProgram id).isSome = true → t.streamPos x = (s.streamPos x).after x op 0) ∧ (op = .endP → (t.streamPos x).ended = true ∨ t.openProgram id = none) ∧ t.mem = s.mem ∧ t.seats = s.seats)

/-- R129: an iteration begins at the loop's base plus PERIOD for each one before it, its step register raised by STEP lines, modulo 2^48, at once; in a region stream it waits for no cycle, but for the writes of that register that stand before it (R162). -/
def Obligations.RepeatIterates : Prop :=
  ∀ (x : Site) (l : Loop) (s : State), s.mayIssue x = true → (s.streamPos x).loop x.path x.word = some l → l.iter + 1 < l.count → l.stepReg ≠ 0 →
    (regionMode x.owner = true ∧ s.stepPending x l.stepReg = false) ∨ (regionMode x.owner = false ∧ l.baseAt (l.iter + 1) / 64 = s.cad.trick) →
    let cycle := if regionMode x.owner then 2 ^ 62 else l.base + (l.iter + 1) * l.period
    ∃ t, exec (.repeatIteration x) s = .next t ∧ (t.streamPos x).loop x.path x.word = some { l with iter := l.iter + 1 }
      ∧ (t.core (siteKey x)).reg l.stepReg = (((((s.core (siteKey x)).settle (cycle + 1)).reg l.stepReg : Nat) + 64 * l.step : Int) % 2 ^ 48).toNat
      ∧ t.svis.items = s.svis.items ∧ t.mem = s.mem ∧ t.seats = s.seats ∧ t.dealer = s.dealer

/-- R121, R122, R153, R177, R179: the oldest item of its queue, at its cycle, completes: it leaves the queue, its bytes stand in the store it names and every other byte stays, and its post counts from the next cycle; an item that is not the oldest does not complete. R177, R179, Table 6.6: a transfer that lands late, and memory data that comes late, is the cause overrun of the deal, and the item lands all the same. -/
def Obligations.ItemsComplete : Prop :=
  (∀ (i : Item) (s : State) (slot : Nat) (r : StoreRef) (w : StoreWrite), FabricQuiet s → s.item i.id = some i → i.owner = .deal slot → i.hbm = [] → i.reg = none → i.remote = [] → i.vault = none →
      i.writes = [w] → w.dsts = [r] → w.addr + w.data.length ≤ r.bytes → cellsAbove none (s.storeCells r) = true → (∀ l ∈ s.svis.landed, l.cycle ≠ i.done) →
    let due := (if i.plane = .memory then i.done + 1 else i.done) / 64
    let c := fun (p : Plane) => match p with | .local => Instr.instructionComplete i.id | .tile => .tileLanding i.id 0 | .memory => .memoryItemComplete i.id { slack := 0, mediaFails := [], pcieError := false }
    (s.oldest i = true → due ≤ s.cad.trick → i.post = none →
      ∃ t, exec (c i.plane) s = .next t ∧ (∀ j, j ∈ t.svis.items ↔ j ∈ s.svis.items ∧ j.id ≠ i.id)
        ∧ readBytes (t.storeCells r) w.addr w.data.length = w.data
        ∧ (∀ a, a < w.addr ∨ w.addr + w.data.length ≤ a → cellGet a (t.storeCells r) = cellGet a (s.storeCells r))
        ∧ (∀ q, q ≠ r → t.storeCells q = s.storeCells q) ∧ t.mem = s.mem ∧ t.seats = s.seats ∧ t.dealer.causes = s.dealer.causes)
    ∧ (s.oldest i = true → due ≤ s.cad.trick → ∀ p, i.post = some p →
      ∃ t, exec (c i.plane) s = .next t ∧ (t.core i.core).posts = (s.core i.core).posts ++ [(p, i.done)] ∧ readBytes (t.storeCells r) w.addr w.data.length = w.data)
    ∧ (s.oldest i = false → exec (c i.plane) s = .next s))
  ∧ (∀ (i : Item) (s : State) (slot : Nat), FabricQuiet s → s.item i.id = some i → i.owner = .deal slot → s.oldest i = true → s.dealing = true → s.svis.reneges = [] → i.held = false → i.vault = none →
    (∀ late, i.plane = .tile → 0 < late → i.done / 64 ≤ s.cad.trick →
      ∃ t, exec (.tileLanding i.id late) s = .next t ∧ s.item i.id = some i ∧ t.item i.id = none ∧ ∃ c ∈ t.dealer.causes, c.rank = 5 ∧ c.detail = 0x20 ∧ c.slot = slot)
    ∧ (∀ arr : Arrival, i.plane = .memory → arr.slack < 0 → (i.done + 1) / 64 ≤ s.cad.trick →
      ∃ t, exec (.memoryItemComplete i.id arr) s = .next t ∧ t.item i.id = none ∧ ∃ c ∈ t.dealer.causes, c.rank = 5 ∧ c.detail = i.lateDetail))

/-! ## Numbers -/

/-- R190, R192: a finite pattern of any float format, subnormals and both zeros included, reads at its value and is written back as the same pattern under every rounding mode, saturating or not. -/
def Obligations.FloatPatternsRoundTrip : Prop :=
  ∀ (code : Nat) (f : FloatFmt) (p rnd : Nat) (sat : Bool), floatOf code = some f → p < 2 ^ fmtWidth code → (f.decode p).isFinite = true → encodeElem code rnd sat (elemValue code p) = p

/-- R199: a conversion into INT8 rounds under RND and then clamps to −128 to 127 whatever SAT holds; a NaN converts to 0. M · 2^(−k) stands for the source, exactly. -/
def Obligations.Int8RoundsAndClamps : Prop :=
  (∀ (rnd : Nat) (sat : Bool), encodeElem 10 rnd sat .nan = 0 ∧ encodeElem 10 rnd sat (.inf true) = 0x80 ∧ encodeElem 10 rnd sat (.inf false) = 0x7F)
  ∧ (∀ (rnd : Nat) (sat neg : Bool) (m k : Nat), rnd ≤ 3 → ∃ r : Int, encodeElem 10 rnd sat (.fin neg m (-(k : Int))) = ofSigned 8 (max (-128) (min 127 r)) ∧
      let v : Int := if neg then -(m : Int) else m
      (rnd = 0 → 2 * (v - r * 2 ^ k).natAbs ≤ 2 ^ k ∧ (2 * (v - r * 2 ^ k).natAbs = 2 ^ k → r % 2 = 0))
      ∧ (rnd = 1 → r = v.tdiv (2 ^ k)) ∧ (rnd = 2 → r = v / 2 ^ k) ∧ (rnd = 3 → r = -((-v) / 2 ^ k)))
  ∧ (∀ (rnd : Nat) (sat neg : Bool) (m k : Nat),
      encodeElem 10 rnd sat (.fin neg m (k : Int)) = ofSigned 8 (max (-128) (min 127 ((if neg then -(m : Int) else m) * 2 ^ k))))

/-- R204: VMAX and VMIN return NaN when either source is NaN and order −0 below +0; VCMPLT and VCMPEQ write 0.0 when either source is NaN; VCMPEQ treats +0 and −0 as equal. -/
def Obligations.MaxMinAndCompare : Prop :=
  (∀ (rnd : Nat) (x c : Machine.Num),
    vValue .max rnd .nan x c = .nan ∧ vValue .max rnd x .nan c = .nan ∧ vValue .min rnd .nan x c = .nan ∧ vValue .min rnd x .nan c = .nan
    ∧ vValue .cmplt rnd .nan x c = Machine.Num.zero ∧ vValue .cmplt rnd x .nan c = Machine.Num.zero ∧ vValue .cmpeq rnd .nan x c = Machine.Num.zero ∧ vValue .cmpeq rnd x .nan c = Machine.Num.zero)
  ∧ (∀ (rnd : Nat) (e f : Int) (c : Machine.Num),
    vValue .max rnd (.fin true 0 e) (.fin false 0 f) c = .fin false 0 f ∧ vValue .max rnd (.fin false 0 f) (.fin true 0 e) c = .fin false 0 f
    ∧ vValue .min rnd (.fin true 0 e) (.fin false 0 f) c = .fin true 0 e ∧ vValue .min rnd (.fin false 0 f) (.fin true 0 e) c = .fin true 0 e
    ∧ vValue .cmpeq rnd (.fin true 0 e) (.fin false 0 f) c = Machine.Num.one ∧ vValue .cmpeq rnd (.fin false 0 f) (.fin true 0 e) c = Machine.Num.one)

/-- R135, R138: whatever ORDER, an MMA visits each of its MT × NT output tiles exactly once. -/
def Obligations.EveryTileOnce : Prop :=
  ∀ (order mt nt : Nat), order ≤ 3 → mt ≤ 31 → nt ≤ 31 → (visitOrder order mt nt).Nodup ∧ ∀ m n, (m, n) ∈ visitOrder order mt nt ↔ m < mt ∧ n < nt

/-- Tables 5.7, 5.8, R139: MZERO of MT × NT tiles writes that many zero tiles and nothing else; a V opcode other than VQMX, VAND and VOR writes, from line D on, one element a source element, each rounded once into FMT_D. -/
def Obligations.ElementWrites : Prop :=
  (∀ (e : Env) (o : MzeroOps), o.mt ≠ 0 → o.nt ≠ 0 →
    (mzeroEffect e o).writes = [{ dsts := [.core e.key], addr := 64 * (o.cAddr.toNat + e.a / 64), data := List.replicate (o.mt.toNat * o.nt.toNat * (if o.int = 1 then 128 else 64)) 0, mark := false }])
  ∧ (∀ (s : State) (e : Env) (op : VOp) (o : VOps), o.count ≠ 0 → op ≠ .qmx → op ≠ .and → op ≠ .or → fmtWidth o.fmtD.toNat = 32 →
    ∃ w, (vecEffect s e op o).writes = [w] ∧ w.dsts = [.core e.key] ∧ w.addr = 64 * (o.d.toNat + e.a / 64) ∧ w.data.length = 4 * o.count.toNat
      ∧ ∀ i < o.count.toNat, leAll ((w.data.drop (4 * i)).take 4) = encodeElem 0 o.rnd.toNat (o.sat = 1) (vValue op o.rnd.toNat
          ((readVec o.fmtS.toNat o.count.toNat (readBytes (s.view e.key e.q (.core e.key)).1 (64 * (o.s1.toNat + e.a / 64)) (vecBytes o.fmtS.toNat o.count.toNat))).getD i Machine.Num.zero)
          (if vReads2 op = true then (readVec o.fmtS.toNat (if o.bcast = 1 then 1 else o.count.toNat) (readBytes (s.view e.key e.q (.core e.key)).1 (64 * (o.s2.toNat + e.a / 64))
              (vecBytes o.fmtS.toNat (if o.bcast = 1 then 1 else o.count.toNat)))).getD (if o.bcast = 1 then 0 else i) Machine.Num.zero else Machine.Num.zero)
          (if vReads3 op = true then (readVec o.fmtS.toNat o.count.toNat (readBytes (s.view e.key e.q (.core e.key)).1 (64 * (o.s3.toNat + e.a / 64))
              (vecBytes o.fmtS.toNat o.count.toNat))).getD i Machine.Num.zero else Machine.Num.zero)))

/-! ## Defects, audits, coherence -/

/-- Table 12.5, R188, R189, R240, R301, R590: in the deal tricks each defect gives the deal its cause with its detail, attributed to its die, and registers the check its unit gets; a corrected error is only counted; a droop of 20 ns or less does nothing, a longer one has no check. -/
def Obligations.DefectsMisdealTheDeal : Prop :=
  ∀ s : State, DealRuns s →
    (∀ d r c k l, exec (.storeEcc (.coreStore d r c k) l true) s = .next ((s.withCheck (.coreStore d r c k) 3 0x30).withCause 3 0x30 d (placeCluster d r c)))
    ∧ (∀ d r c l, exec (.storeEcc (.clusterStore d r c) l true) s = .next ((s.withCheck (.clusterStore d r c) 3 0x30).withCause 3 0x30 d (placeCluster d r c)))
    ∧ (∀ u l, exec (.storeEcc u l false) s = .next s.moreCorrected)
    ∧ (∀ d r c, exec (.linkParity d r c) s = .next ((s.moreParity.withCheck (.router d r c) 3 0x31).withCause 3 0x31 d (placeCluster d r c)))
    ∧ (∀ d r, exec (.gatewayParity d r) s = .next ((s.moreParity.withCheck (.gateway d r) 3 0x32).withCause 3 0x32 d (placeCluster d r 0)))
    ∧ (∀ d r c, exec (.tableEcc d r c true) s = .next ((s.withCheck (.table d r c) 3 0x33).withCause 3 0x33 d (placeCluster d r c)))
    ∧ (∀ d r c, exec (.tableEcc d r c false) s = .next s.moreCorrected)
    ∧ (∀ d r c, exec (.sfuParity d r c) s = .next ((s.withCheck (.sfu d r c) 3 0x36).withCause 3 0x36 d (placeCluster d r c)))
    ∧ (∀ d b f, s.codeForm = some f → f.weightImage ≠ 0 → exec (.vaultPort d b) s = .next ((State.withCheck { s with
        vault := { s.vault with failures := s.vault.failures + 1 }
        dealer := { s.dealer with vaultFails := s.dealer.vaultFails ++ [{ deal := s.cad.deal, image := f.weightImage, die := d, block := b, detail := 0x52 }] } } (.vaultPort d) 7 0x52).withCause 7 0x52 d (placeDie d)))
    ∧ (∀ d ns, 20 < ns → s.deck d ≠ 2 → exec (.droop d ns) s = .next (s.withCause 3 0x38 d (placeDie d)))
    ∧ (∀ d ns, ns ≤ 20 → exec (.droop d ns) s = .next s)
    ∧ (s.repair.hubDefectDeal = none → exec .hubDefect s
        = .next (State.withCause { s with repair := { s.repair with hubDefectDeal := some s.cad.deal } } 3 0x37 8 (placeDie 8)))

/-- R359, R258: a hub defect that recurs within the transient window takes the device from the table and holds it there; an uncorrectable HBM error poisons its line and counts it, and changes no byte. R188, R189, R240, R301, R348, R590: where nothing is dealt a defect is no cause, and its unit's check begins at once; a droop is nothing. -/
def Obligations.HubDefectAndPoison : Prop :=
  (∀ (s : State) (d : Nat), s.dealing = true → s.repair.hubDefectDeal = some d → s.cad.deal - d ≤ s.repair.transientWindow →
    ∃ t, exec .hubDefect s = .next t ∧ t.cad.st = .left ∧ t.cad.holdHub = true ∧ t.dealer.running = none)
  ∧ (∀ (s : State) (pa : Nat), usableHbm pa 1 = true →
    ∃ t, exec (.hbmUncorrectable pa) s = .next t ∧ t.mem = { s.mem with poison := sins (pa / 64) s.mem.poison, poisoned := s.mem.poisoned + 1, lastPoison := pa / 64 * 64 }
      ∧ t.poisonedAt pa = true ∧ t.seats = s.seats ∧ t.dealer = s.dealer)
  ∧ (∀ s : State, s.dealing = false → s.svis.openWin = none →
    (∀ d r c k l, exec (.storeEcc (.coreStore d r c k) l true) s = .next (s.withCheckNow (.coreStore d r c k) 3 0x30))
    ∧ (∀ d r c l, exec (.storeEcc (.clusterStore d r c) l true) s = .next (s.withCheckNow (.clusterStore d r c) 3 0x30))
    ∧ (∀ d r c, exec (.linkParity d r c) s = .next (s.moreParity.withCheckNow (.router d r c) 3 0x31))
    ∧ (∀ d r, exec (.gatewayParity d r) s = .next (s.moreParity.withCheckNow (.gateway d r) 3 0x32))
    ∧ (∀ d r c, exec (.tableEcc d r c true) s = .next (s.withCheckNow (.table d r c) 3 0x33))
    ∧ (∀ d r c, exec (.sfuParity d r c) s = .next (s.withCheckNow (.sfu d r c) 3 0x36))
    ∧ (∀ d b, ∃ t, exec (.vaultPort d b) s = .next t ∧ t.vault.failures = s.vault.failures + 1 ∧ t.dealer = (s.withCheckNow (.vaultPort d) 7 0x52).dealer ∧ t.seats = s.seats ∧ t.mem = s.mem ∧ t.nv = s.nv)
    ∧ (∀ d ns, exec (.droop d ns) s = .next s))

/-- R336, R337, R341, R343, R356, R357: a window begins once at each multiple of 256 tricks; its comparisons are taken within 64 tricks of its end, and equal CRCs leave only the count; a mismatch of a pair that R337 makes, on a core that issued deal code, makes it suspect and misdeals the deal; the self-test's end lets the held-back re-deal go on and completes the audit commands. -/
def Obligations.AuditsCompare : Prop :=
  (∀ s : State, DealRuns s → s.cad.trick % 256 = 0 → s.repair.windows = [] →
    exec .auditWindowStart s = .next { s with repair := { s.repair with rp := s.turn, windows := [{ deal := s.cad.deal, index := s.cad.trick / 256, rp := s.repair.rp, suspects := s.repair.suspects }] } })
  ∧ (∀ s : State, s.cad.trick % 256 ≠ 0 → exec .auditWindowStart s = .next s)
  ∧ (∀ (w : AuditWin) (cmps : List AuditCmp) (s : State), s.dealing = true → s.repair.windows = [w] → w.deal = s.cad.deal → s.windowEnd w.index ≤ s.cad.trick → s.cad.trick ≤ s.windowEnd w.index + 64 →
      s.repair.suspects = [] →
    ((∀ a ∈ cmps, a.crcCore = a.crcShadow) →
      exec (.auditCompare w.index cmps) s = .next { s with repair := { s.repair with windows := [], compared := s.repair.compared + 1 } })
    ∧ (∀ a, cmps = [a] → s.shadows w a = true → a.crcCore ≠ a.crcShadow → s.dealtIn a w.index = true →
      ∃ t x c, exec (.auditCompare w.index cmps) s = .next t ∧ t.repair.suspects = [x] ∧ x.die = a.die ∧ x.row = a.row ∧ x.col = a.col ∧ x.logical = a.logical ∧ x.shadow = a.shadow ∧ x.window = w.index
        ∧ t.repair.mismatches = s.repair.mismatches + 1 ∧ c ∈ t.dealer.causes ∧ c.rank = 4 ∧ c.detail = 0x34 ∧ c.deal = s.causeDeal ∧ t.cad = s.cad ∧ t.seats = s.seats))
  ∧ (∀ s : State, s.start.stage = 1 → s.start.bist = false → s.dealer.bistRunning = false → s.dealer.auditTickets = [] → s.repair.suspects = [] →
    ∃ t, exec (.bistDone []) s = .next t ∧ t.start.bist = true ∧ t.repair.bistResult = 0 ∧ t.seats = s.seats ∧ t.cad = s.cad)
  ∧ (∀ (s : State) (k : Ticket), s.start.stage = 2 → s.dealer.bistRunning = false → s.dealer.auditTickets = [k] → s.dealer.auditLeft = 0 → s.repair.suspects = [] →
    ∃ t, exec (.bistDone []) s = .next t ∧ t.dealer.auditTickets = [] ∧ t.dealer.bistHold = s.dealer.bistHold)

/-- R268 to R270: after a write request the requester owns the line and nobody else holds it; after a read request the requester holds it and an owner that was another holds it too; other lines, a line outside usable HBM and one of no SC page keep their state. A Kitty's eviction is begun, then processed, after which it no longer holds the line; an invalidation that meets it is a crossing. -/
def Obligations.DirectoryServes : Prop :=
  (∀ (a : CohAgent) (line : Nat) (s : State), scLine line = true → s.scPage line = true → ∃ t, exec (.scWriteRequest a line) s = .next t
    ∧ t.dirState line = (match a with | .die d => .owned d | .hub => .ownedHub)
    ∧ (∀ m, m ≠ line → t.dirState m = s.dirState m) ∧ t.mem.bytes = s.mem.bytes ∧ ((∀ d < 8, s.evicts d line = false) → t.mem = s.mem) ∧ t.seats = s.seats)
  ∧ (∀ (d line : Nat) (s : State), scLine line = true → s.scPage line = true → d < 8 → ∃ t, exec (.scReadRequest (.die d) line) s = .next t
    ∧ (∃ m, holds (t.dirState line) d = some m)
    ∧ (∀ o < 8, o ≠ d → s.dirState line = .owned o → s.evicts o line = false → holds (t.dirState line) o = some false)
    ∧ (s.dirState line = .ownedHub → t.dirState line = .shared (dieBit d) true)
    ∧ (∀ m, m ≠ line → t.dirState m = s.dirState m) ∧ t.mem.bytes = s.mem.bytes ∧ ((∀ o < 8, s.evicts o line = false) → t.mem = s.mem))
  ∧ (∀ (line : Nat) (s : State), scLine line = true → s.scPage line = true → ∃ t, exec (.scReadRequest .hub line) s = .next t
    ∧ (t.dirState line = .ownedHub ∨ ∃ m, t.dirState line = .shared m true) ∧ (∀ m, m ≠ line → t.dirState m = s.dirState m) ∧ t.mem.bytes = s.mem.bytes)
  ∧ (∀ (a : CohAgent) (line : Nat) (s : State), scLine line = false ∨ s.scPage line = false → exec (.scWriteRequest a line) s = .next s ∧ exec (.scReadRequest a line) s = .next s)
  ∧ (∀ (d line : Nat) (m : Bool) (s : State), holds (s.dirState line) d = some m → s.evicts d line = false →
    exec (.kittyEviction d line) s = .next { s.kittyDrop d line with coh := { s.coh with evicting := s.coh.evicting ++ [(d, line, m)] } })
  ∧ (∀ (d line : Nat) (s : State), d < 8 → s.evicts d line = true →
    (∃ t, exec (.kittyEviction d line) s = .next t ∧ t.evicts d line = false ∧ holds (t.dirState line) d = none ∧ (∀ m, m ≠ line → t.dirState m = s.dirState m) ∧ t.mem = s.mem)
    ∧ (∃ t, exec (.fetchInvalidate d line) s = .next t ∧ t.evicts d line = false ∧ holds (t.dirState line) d = none ∧ t.mem = { s.mem with crossings := s.mem.crossings + 1 }))
  ∧ (∀ (d line : Nat) (s : State), d < 8 → s.evicts d line = false → ∃ t, exec (.fetchInvalidate d line) s = .next t ∧ holds (t.dirState line) d = none ∧ t.mem = s.mem)

/-! ## Loose DMA, the aperture, windows -/

/-- R263 to R266, R542, R549: the tail register brings the ring's new descriptors, discarded with ERR [1] when they overfill it; a malformed head descriptor is BAD_DESC; one of no bytes is done at once; another that a queue takes while nothing is dealt runs to its end or to a fault; the queue then stops at the fault and reports it. R264, R258: one line that may move, copied from the host into usable HBM that no pin guards reads back as the host gave it; every other byte stays. -/
def Obligations.LooseDmaMoves : Prop :=
  ((∀ (fn q tail : Nat) (ring : List Bytes) (s : State), s.start.stage = 2 → s.seesQueue fn q = true →
    let x := s.queue q
    let add := ringCount 256 tail x.tail
    (x.held + add ≤ 255 → exec (.ldmaDb fn q tail ring) s = .next (s.setQueue q { x with
      tail := tail % 256, ring := ((List.range add).map (fun i => ((x.tail + i) % 256, parseLdma (padTo 32 (ring.getD i []))))).foldl (fun l e => aset e.1 e.2 l) x.ring }))
    ∧ (255 < x.held + add → exec (.ldmaDb fn q tail ring) s = .next (s.setFn fn { s.fn fn with err := (s.fn fn).err ||| 2 })))
  ∧ (∀ (q acct : Nat) (host : Bytes) (fails : Option Nat) (s : State), let x := s.queue q
    x.account = some acct → x.stopped = false → x.hit = none → x.held ≠ 0 → s.ldmaMoves = true →
    x.hand = none →
    (descBad x.desc = true → exec (.looseDmaDescriptor q host fails) s = .next (s.setQueue q { x with hit := some (0x01, 0), bytesDone := 0 }))
    ∧ (descBad x.desc = false → x.desc.irq = false → x.desc.len = 0 →
      exec (.looseDmaDescriptor q host fails) s = .next (s.setQueue q { x with head := (x.head + 1) % 256, bytesDone := 0, status := 0 }))
    ∧ (descBad x.desc = false → x.desc.len ≠ 0 → s.dealing = false → (s.ldma.map (·.1)).Nodup →
      ∃ t, exec (.looseDmaDescriptor q host fails) s = .next t ∧ (t.queue q).hand = none ∧ ((t.queue q).hit.isSome = true ∨ (t.queue q).head = (x.head + 1) % 256) ∧ t.seats = s.seats ∧ t.cad = s.cad))
  ∧ (∀ (q st addr : Nat) (s : State), (s.queue q).hit = some (st, addr) → ∃ t, exec (.looseDmaStop q) s = .next t
    ∧ t.queue q = { s.queue q with stopped := true, hit := none, hand := none, status := st, stopIndex := (s.queue q).head, faultAddr := addr } ∧ t.mem = s.mem ∧ t.seats = s.seats))
  ∧ (∀ (q acct : Nat) (host : Bytes) (s : State) (x : LdmaQueue) (l : Xlat) (u : State), s.queue q = x →
    let v := s.setQueue q { x with hand := some (host, none) }
    x.account = some acct → x.stopped = false → x.hit = none → x.hand = none → x.held ≠ 0 → x.bytesDone = 0 → s.ldmaMoves = true → 1 ≤ v.ldmaBudget →
    (s.ldma.map (·.1)).Nodup → (∀ y ∈ s.ldma, y.1 ≠ q → y.2.moving = false) → descBad x.desc = false → x.desc.irq = false → x.desc.srcHost = true → x.desc.len = 64 →
    host.length = 64 → translateFor v acct x.desc.dst true = (.ok l, u) → usableHbm l.pa 64 = true → (∀ p ∈ s.guardPins, overlaps p.base p.size l.pa 64 = false) → s.mem.wf = true →
    ∃ t, exec (.looseDmaDescriptor q host none) s = .next t ∧ t.hbmRead l.pa 64 = host ∧ (∀ a, a < l.pa ∨ l.pa + 64 ≤ a → t.hbmByte a = s.hbmByte a)
      ∧ (t.queue q).head = (x.head + 1) % 256 ∧ (t.acct acct).pciePending = (s.acct acct).pciePending + 64 ∧ t.seats = s.seats)


/-- R265: RESUME and SKIP start a stopped queue again, at the descriptor as it now stands or behind it; HALT stops a running one with HALTED; a function that does not see the queue changes nothing. -/
def Obligations.QueueRegisters : Prop :=
  (∀ (fn q : Nat) (d : Bytes) (s : State), s.seesQueue fn q = true → (s.queue q).stopped = true →
    exec (.resume fn q d) s = .next (s.setQueue q { s.queue q with stopped := false, status := 0, ring := aset (s.queue q).head (parseLdma (padTo 32 d)) (s.queue q).ring })
    ∧ ((s.queue q).held ≠ 0 → exec (.skip fn q) s = .next (s.setQueue q { s.queue q with stopped := false, status := 0, bytesDone := 0, head := ((s.queue q).head + 1) % 256 })))
  ∧ (∀ (fn q : Nat) (s : State), s.seesQueue fn q = true → (s.queue q).stopped = false →
    ∃ t, exec (.halt fn q) s = .next t ∧ (t.queue q).stopped = true ∧ (t.queue q).status = 0x09 ∧ (t.queue q).stopIndex = (s.queue q).head ∧ (t.queue q).ring = (s.queue q).ring
      ∧ (∀ p, p ≠ q → t.queue p = s.queue p) ∧ t.mem = s.mem ∧ t.seats = s.seats)
  ∧ (∀ (fn q : Nat) (d : Bytes) (s : State), s.seesQueue fn q = false → exec (.resume fn q d) s = .next s ∧ exec (.skip fn q) s = .next s ∧ exec (.halt fn q) s = .next s)

/-- R258, R267, R554: through an open aperture a read answers the bytes that stand there and changes none; a write lands byte for byte, clears the poison of the lines it writes whole and leaves every other byte; a shut aperture answers Completer Abort and drops the write. -/
def Obligations.ApertureReadsAndWrites : Prop :=
  (∀ (fn off len : Nat) (b : Bytes) (s u : State), s.power.phase = 0 → s.apertureOpen fn = true → off + len ≤ bar2Size →
      State.apertureRead (s.fn fn).apAcct len ((s.fn fn).apBase + off) s = (.ok b, u) →
    ∃ t, exec (.bar2Read fn off len) s = .next t ∧ t.host.bar2 = some (some b) ∧ b.length = len ∧ t.mem.bytes = s.mem.bytes ∧ t.seats = s.seats ∧ t.dealer = s.dealer)
  ∧ (∀ (fn off : Nat) (data : Bytes) (pas : List Nat) (s u : State), s.power.phase = 0 → s.apertureOpen fn = true → off + data.length ≤ bar2Size → s.mem.wf = true →
      State.apertureMap (s.fn fn).apAcct data.length ((s.fn fn).apBase + off) s = (.ok pas, u) → pas.Nodup →
    ∃ t, exec (.bar2Write fn off data) s = .next t ∧ (∀ i < data.length, t.hbmByte (pas.getD i 0) = data.getD i 0) ∧ (∀ a, a ∉ pas → t.hbmByte a = s.hbmByte a)
      ∧ (∀ l ∈ fullLines pas, l ∉ t.mem.poison) ∧ t.mem.wf = true ∧ t.seats = s.seats ∧ t.cad = s.cad)
  ∧ (∀ (fn off len : Nat) (data : Bytes) (s : State), s.power.phase = 0 → s.apertureOpen fn = false →
    exec (.bar2Read fn off len) s = .next { s with host := { s.host with bar2 := some none } } ∧ exec (.bar2Write fn off data) s = .next s)

/-- R262, R114, R117, R119, R290: a legal write of a PCIe window that no pin holds stands at once; a deferred window change takes effect when no page of the window is pinned; an open window begins with the marked lines of its dies zero; the oldest open program starts in a window that admits it; at its end the window closes and a program that still runs is gone. -/
def Obligations.WindowsOpenAndClose : Prop :=
  (∀ (w : Nat) (new : PcieWindow) (s : State), aget w s.mem.windowPending = some new →
    (s.windowPinned (s.pcieWindow w) = false → exec (.windowChangeEffect w) s
      = .next { s with mem := { s.mem with windows := aset w new s.mem.windows, windowPending := adel w s.mem.windowPending } })
    ∧ (s.windowPinned (s.pcieWindow w) = true → exec (.windowChangeEffect w) s = .next s))
  ∧ (∀ (p : Path) (w : Nat) (v : Bytes) (s : State), s.gate p 0x2101 (w + 1) true = 0 → w < 128 → v.length = 32 → windowRsvd v = false → s.windowPinned (s.pcieWindow w) = false →
    ((parseWindow v).enable = true → windowInRange (parseWindow v) = true) →
    (∀ x ∈ s.mem.windows, x.1 ≠ w → x.2.enable = true → overlaps x.2.devBase.toNat (windowSpan x.2) (parseWindow v).devBase.toNat (windowSpan (parseWindow v)) = false) →
    ∃ t, exec (.pcieWindowWrite p w v) s = .next t ∧ t.pcieWindow w = parseWindow v ∧ (∀ x, x ≠ w → t.pcieWindow x = s.pcieWindow x) ∧ aget w t.mem.windowPending = none
      ∧ t.dict.answer = some { status := 1, detail := 0, data := [] } ∧ t.mem.bytes = s.mem.bytes ∧ t.seats = s.seats ∧ t.svis = s.svis)
  ∧ (∀ (s : State) (w : Window0), s.dealing = true → s.windowNow = some w → s.svis.openWin = none → (∀ p ∈ s.svis.programs, p.start = none) →
    ∃ t, exec .openWindowStart s = .next t ∧ t.svis.openWin = some w
      ∧ (∀ c ∈ t.svis.cores, w.dieMask.getLsbD (coreDie c.1) = true → c.2.marks = []) ∧ (∀ c ∈ t.svis.clusters, w.dieMask.getLsbD (ckDie c.1) = true → c.2.marks = [])
      ∧ (∀ k, w.dieMask.getLsbD (coreDie k) = true → (∀ c ∈ s.svis.cores, cellsAbove none c.2.store = true) → ∀ l ∈ (s.core k).marks, ∀ i < 64, cellGet (64 * l + i) (t.core k).store = 0)
      ∧ ((∀ y ∈ s.ldma, y.2.hand = none) → t.mem = s.mem) ∧ t.seats = s.seats)
  ∧ (∀ (s : State) (w : Window0) (p : Program) (rest : List Program), s.svis.openWin = some w → s.svis.programs = p :: rest → w.programs = true → p.start = none → p.fault = none → p.takenPs < w.beganPs →
      p.dieMask &&& ~~~w.dieMask = 0 → s.cad.trick < w.stop → 0 < (p.info.streams.map streamCores).sum → (∀ c ∈ s.svis.cores, ∀ q ∈ c.2.streams, ownedBy p.id q.owner = false) → (∀ q ∈ rest, q.start = none) →
    ∃ t, exec .openProgramStart s = .next t ∧ t.svis.programs = { p with start := some s.cad.trick } :: rest
      ∧ (∀ k, p.dieMask.getLsbD (coreDie k) = true → (t.core k).regs = [] ∧ (t.core k).chips = [] ∧ (t.core k).regions = [] ∧ (t.core k).store = (s.core k).store) ∧ t.mem = s.mem ∧ t.seats = s.seats)
  ∧ (∀ (s : State) (w : Window0), s.svis.openWin = some w → w.stop ≤ s.cad.trick → ∃ t, exec .openWindowEnd s = .next t ∧ t.svis.openWin = none ∧ (∀ p ∈ t.svis.programs, p.start = none) ∧ t.seats = s.seats)

/-! ## Key slots, function tables, passes, scrub -/

/-- R283, R284: a key record written over an established secured session, or an unload, takes effect at once when nothing is dealt and no change of its slot waits, with its wrapped form in the hub store; while the device deals it waits behind those accepted before it, and takes effect at the first mark at least 100 µs later. -/
def Obligations.KeySlotsChange : Prop :=
  (∀ (n : Nat) (v : Bytes) (s : State), s.gate (.secured n) 0x2300 0x09 true = 0 → v.length = 40 → byteAt v 0 < 8 → nonzero v 1 3 = false → le v 4 4 ≠ 0 → s.keysAllowed = true → s.slotsShut = false →
    s.securedPath (.secured n) = true →
    (s.dealing = true → exec (.keyLoad (.secured n) v) s = .next (State.wroteOk { s with vault := { s.vault with
      keyPending := s.vault.keyPending ++ [(byteAt v 0, some (le v 4 4, keyOf (v.drop 8)), s.now)] } }))
    ∧ (s.dealing = false → s.power.phase ≠ 2 → (∀ x ∈ s.vault.keyPending, x.1 ≠ byteAt v 0) → exec (.keyLoad (.secured n) v) s = .next (State.wroteOk { s with
        vault := { s.vault with keys := aset (byteAt v 0) (le v 4 4, keyOf (v.drop 8)) s.vault.keys }
        nv := { s.nv with wrapped := aset (byteAt v 0) (le v 4 4, Config.keyWrap (keyOf (v.drop 8))) s.nv.wrapped } })))
  ∧ (∀ (p : Path) (k : Nat) (s : State), s.gate p 0x2300 0x0A true = 0 → k < 8 → s.keysAllowed = true → s.slotsShut = false →
    (s.dealing = true → exec (.keyUnload p k) s = .next (State.wroteOk { s with vault := { s.vault with
      keyPending := s.vault.keyPending ++ [(k, none, s.now)] } }))
    ∧ (s.dealing = false → s.power.phase ≠ 2 → (∀ x ∈ s.vault.keyPending, x.1 ≠ k) → exec (.keyUnload p k) s = .next (State.wroteOk { s with
        vault := { s.vault with keys := adel k s.vault.keys }
        nv := { s.nv with wrapped := adel k s.nv.wrapped } })))
  ∧ (∀ (k j t : Nat) (v : Option (Nat × BitVec 256)) (s : State), s.vault.keyPending.find? (fun x => decide (x.1 = k)) = some (j, v, t) →
    (s.dealing = false ∨ (s.cad.trick = 0 ∧ t + 100000000 ≤ s.cad.startPs) →
      ∃ u, exec (.keySlotUpdate k) s = .next u ∧ aget j u.vault.keys = v
        ∧ aget j u.nv.wrapped = v.map (fun x => (x.1, Config.keyWrap x.2))
        ∧ (∀ i, i ≠ j → aget i u.vault.keys = aget i s.vault.keys ∧ aget i u.nv.wrapped = aget i s.nv.wrapped)
        ∧ u.vault.keyPending = s.vault.keyPending.erase (j, v, t)
        ∧ u.seats = s.seats ∧ u.dealer = s.dealer ∧ u.mem = s.mem ∧ u.host = s.host ∧ u.nv.images = s.nv.images ∧ u.nv.blocks = s.nv.blocks)
    ∧ (s.dealing = true → s.cad.trick ≠ 0 ∨ s.cad.startPs < t + 100000000 → exec (.keySlotUpdate k) s = .next s))

/-- R226, Table 8.5: a table image that meets every check waits for its slot, an empty value for its removal; at the first mark at least 100 µs after acceptance the slot holds it; an image refused records its reason and changes no slot. -/
def Obligations.TableSlotsChange : Prop :=
  (∀ (p : Path) (k : Nat) (v : Bytes) (s : State), s.gate p 0x2600 (k + 1) true = 0 → k < 32 → (v = [] ∨ (v.length = 3136 ∧ imageRsvd v = false)) →
    (s.tableReason k v = 0 → exec (.tableSlotWrite p k v) s = .next (State.wroteOk { s with svis := { s.svis with
      tablePending := s.svis.tablePending.filter (fun x => decide (x.1 ≠ k)) ++ [(k, v, s.now)] } }))
    ∧ (s.tableReason k v ≠ 0 → exec (.tableSlotWrite p k v) s = .next (State.answered { s with svis := { s.svis with
      tableRefusal := s.tableReason k v } } { status := 0x1A, detail := s.tableReason k v, data := [] })))
  ∧ (∀ (p : Path) (k : Nat) (v : Bytes) (s : State), s.gate p 0x2600 (k + 1) true = 0 → k < 32 → v ≠ [] → v.length ≠ 3136 →
    exec (.tableSlotWrite p k v) s = .next (State.wroteNot 0x17 { s with svis := { s.svis with tableRefusal := 1 } }))
  ∧ (∀ (k j t l : Nat) (v : Bytes) (s : State), s.svis.tablePending.find? (fun x => decide (x.1 = k)) = some (j, v, t) → s.cad.len = some l →
    (s.cad.trick = 0 → t + 100000000 ≤ s.cad.startPs →
      exec (.tableSlotUpdate k) s = .next { s with svis := { s.svis with
        tablePending := s.svis.tablePending.filter (fun x => decide (x.1 ≠ k)), tables := if v = [] then adel k s.svis.tables else aset k v s.svis.tables } })
    ∧ (s.cad.trick ≠ 0 ∨ s.cad.startPs < t + 100000000 → exec (.tableSlotUpdate k) s = .next s))

/-- R291 to R297: a header this device may keep allocates a WRITING entry; a record of its own position is written and authenticated, and one that fails its tag ends the pass here; at the end of a whole stream the entry is READY and an older entry of the image gone; the report posts VAULT and completes PASS with the highest status. R298: a scrubbed block that reads well but for a corrected error is rewritten and counted; one that fails its tag, or whose media fails, is counted (R301), marked DAMAGED with its image, and VAULT is posted; a block of no image is left alone. -/
def Obligations.PassesAndScrub : Prop :=
  ((∀ (v : Bytes) (t : Ticket) (s : State), s.vault.pass = none → s.vault.passCmd = some t → s.vault.passFrom = none → s.passRefusal v = none → (parsePassHead v).mend = false →
    s.dict.settings.passLink = 0xFF →
    ∃ u, exec (.passHeader v) s = .next u
      ∧ u.vault.pass = some { head := parsePassHead v, entry := some s.freeIndex, nextIdx := [], status := 0, ticket := some t, ended := false }
      ∧ u.vault.passCmd = none
      ∧ (∃ e, u.nv.images = aset s.freeIndex e s.nv.images ∧ e.id = le v 8 4 ∧ e.keyId = le v 0xC 4 ∧ e.gen = le v 0x10 4 ∧ e.state = 1 ∧ e.damaged = [])
      ∧ u.nv.blocks = s.nv.blocks ∧ u.vault.keys = s.vault.keys ∧ u.mem = s.mem ∧ u.seats = s.seats ∧ u.cascade = s.cascade)
  ∧ (∀ (v : Bytes) (m : Media) (p : PassRun) (i : Nat) (e : ImageEntry) (s : State),
    s.vault.pass = some p → s.vault.passFrom = none → p.ended = false → p.status = 0 → recordBad p v = false → s.dict.settings.passLink = 0xFF → p.head.mend = false →
    p.entry = some i → aget i s.nv.images = some e → byteAt v 0 % 16 = s.keptPos p.head → m = .good →
    let die := byteAt v 0 / 16 % 8
    let blk := (e.extents.getD die (0, 0)).1 + le v 4 4
    let q : PassRun := { p with nextIdx := aset (8 * (byteAt v 0 % 16) + die) (le v 4 4 + 1) p.nextIdx }
    let w : State := { s with vault := { s.vault with pass := some q }, nv := { s.nv with
      blocks := aset (blockKey die blk) ((v.drop 16).take 4096, BitVec.ofNat 128 (leAll (v.drop 4112).reverse)) s.nv.blocks
      written := aset die ((aget die s.nv.written).getD 0 + 4096) s.nv.written } }
    (match w.readBlock e die (le v 4 4) with
      | .ok (_, above) => exec (.passRecord v m) s = .next { w with
          vault := { w.vault with aboveLowest := w.vault.aboveLowest + boolNat above }
          nv := { w.nv with images := aset i { e with damaged := e.damaged.filter (fun x => decide (x ≠ (die, blk))) } s.nv.images } }
      | .error d => exec (.passRecord v m) s = .next { w.vaultFailure d die with
          vault := { s.vault with failures := s.vault.failures + 1, pass := some { q with status := 0x08, entry := none } }
          nv := { w.nv with images := adel i s.nv.images } }))
  ∧ (∀ (p : PassRun) (i : Nat) (e : ImageEntry) (s : State), s.vault.pass = some p → p.ended = false → p.status = 0 → p.whole = true → p.head.mend = false →
    p.entry = some i → aget i s.nv.images = some e →
    exec (.passStreamEnd false) s = .next { s with
      vault := { s.vault with lastStatus := 0, pass := some { p with ended := true } }
      nv := { s.nv with images := aset i { e with state := 2 } (s.nv.images.filter (fun x => decide (x.1 = i) || decide (x.2.id ≠ e.id))) } })
  ∧ (∀ (p : PassRun) (t : Ticket) (n : Nat) (s : State), s.vault.pass = some p → s.vault.passFrom = none → p.ended = true → p.ticket = some t → p.status ≤ n →
    exec (.passEndReport n) s = .next (State.completeWith
      { s.post { ev 0x0F 0 s.curDeal with w1 := p.status + 256 * n, w2 := p.head.id, w3 := p.head.gen } with
        vault := { s.vault with pass := none, passFrom := none } } t p.status n)))
  ∧ ((∀ (die block i j idx : Nat) (e e' : ImageEntry) (s : State), s.blockOwner die block = some (i, e, idx) → s.imageOf e.id = some (j, e') →
    (match s.readBlock e die idx with
      | .ok (_, above) => exec (.vaultScrub die block .corrected) s = .next { s with
            vault := { s.vault with corrected := s.vault.corrected + 1, aboveLowest := s.vault.aboveLowest + boolNat above }
            nv := { s.nv with written := aset die ((aget die s.nv.written).getD 0 + 4096) s.nv.written } }
          ∧ exec (.vaultScrub die block .good) s = .next { s with vault := { s.vault with aboveLowest := s.vault.aboveLowest + boolNat above } }
      | .error _ => (if s.keysOf e.keyId = [] then exec (.vaultScrub die block .good) s = .next s
          else ∃ t x, exec (.vaultScrub die block .good) s = .next t ∧ t.nv.images = aset j x s.nv.images ∧ x.state = 3 ∧ (die, block) ∈ x.damaged)))
  ∧ (∀ (die block i j idx : Nat) (e e' : ImageEntry) (s : State), s.blockOwner die block = some (i, e, idx) → s.imageOf e.id = some (j, e') →
    ∃ t, exec (.vaultScrub die block .failed) s = .next t
      ∧ (∃ x, t.nv.images = aset j x s.nv.images ∧ x.state = 3 ∧ (die, block) ∈ x.damaged ∧ x.id = e'.id ∧ x.extents = e'.extents)
      ∧ t.nv.blocks = s.nv.blocks ∧ t.vault = { s.vault with failures := s.vault.failures + 1 } ∧ t.mem = s.mem ∧ t.seats = s.seats ∧ t.forms = s.forms)
  ∧ (∀ (die block : Nat) (m : Media) (s : State), s.blockOwner die block = none → exec (.vaultScrub die block m) s = .next s))

/-! ## The object dictionary -/

/-- R84, R85, R262, R317, R444 to R446, R465, R467: a legal whole value written to an entry that keeps configuration takes the effect the entry names, answered OK; a write the gate turns away changes nothing but the answer. -/
def Obligations.ConfigurationWrites : Prop :=
  (∀ (p : Path) (e b : Nat) (v : Bytes) (s : State), s.gate p (0x2401 + e) (b + 1) true = 0 → e < 4 → b < 64 → v.length = 16 → le v 0 8 < 2 ^ 48 → le v 0 8 % 64 = 0 → nonzero v 0xE 2 = false →
    byteAt v 0xC ≤ 2 → (∀ x ∈ s.video.sessions, x.1 / 64 = e → x.2.state ≠ 0 → (poolRange x.2.desc).contains b = false) →
    exec (.poolEntryWrite p e b v) s = .next (State.wroteOk (s.setEngine e { s.engine e with
      pool := aset b { (s.engine e).entry b with va := le v 0 8, bytes := le v 8 4, mark := byteAt v 0xC } (s.engine e).pool })))
  ∧ (∀ (p : Path) (w : Nat) (v : Bytes) (s : State), s.gate p 0x2101 (w + 1) true = 0 → w < 128 → v.length = 32 → windowRsvd v = false →
    ((parseWindow v).enable = true → windowInRange (parseWindow v) = true) →
    (∀ x ∈ s.mem.windows, x.1 ≠ w → x.2.enable = true → overlaps x.2.devBase.toNat (windowSpan x.2) (parseWindow v).devBase.toNat (windowSpan (parseWindow v)) = false) →
    (s.windowPinned (s.pcieWindow w) = false →
      exec (.pcieWindowWrite p w v) s = .next (State.wroteOk { s with mem := { s.mem with windows := aset w (parseWindow v) s.mem.windows, windowPending := adel w s.mem.windowPending } }))
    ∧ (s.windowPinned (s.pcieWindow w) = true → (parseWindow v).enable = false →
      exec (.pcieWindowWrite p w v) s = .next (State.wroteOk { s with mem := { s.mem with windowPending := aset w (parseWindow v) s.mem.windowPending } })))
  ∧ (∀ (p : Path) (a : Nat) (s : State), s.gate p (0x3000 + a) 0x09 true = 0 → a < 4096 →
    exec (.accountCounterClear p a 1) s = .next (State.wroteOk (s.setAcct a { s.acct a with clearPending := true })))
  ∧ (∀ (p : Path) (s : State), s.gate p 0x2200 0x17 true = 0 →
    exec (.houseCounterClear p 1) s = .next (State.wroteOk { s with dealer := { s.dealer with houseClear := true } }))
  ∧ (∀ (p : Path) (v : Bytes) (s : State), s.gate p 0x2201 0x01 true = 0 → v.length = 4096 → (∀ x ∈ v, x.toNat < 64) →
    ∃ t, exec (.accountBinding p v) s = .next t ∧ (∀ a, a < 4096 → t.boundFn a = byteAt v a)
      ∧ t = State.wroteOk { s with host := { s.host with binding := t.host.binding } })
  ∧ (∀ (p : Path) (s : State), s.gate p 0x4000 0x05 true = 0 → exec (.logClear p 1) s = .next (State.wroteOk { s with log := { s.log with ring := [] } }))
  ∧ (∀ (p : Path) (s : State), s.gate p 0x1500 0x01 true = 0 → s.dict.storing = none → s.dict.seqInForce ≠ 0xFFFFFFFF →
    ∃ c, exec (.storeLayer p 0x53544F52#32) s = .next (State.wroteOk { s with dict := { s.dict with storeState := 1, storing := some c } })
      ∧ c.seq = s.dict.seqInForce + 1 ∧ c.brim = s.brimVersion ∧ (∀ r ∈ s.liveRecs, r ∈ c.recs) ∧ (∀ r ∈ s.dict.carried, r ∈ c.recs))
  ∧ (∀ (p : Path) (s : State), s.gate p 0x1500 0x03 true = 0 → s.dict.storing = none →
    exec (.restoreLayer p 0x4C4F4144#32) s = .next (State.wroteOk { s with dict := { s.dict with storeState := 1, storing := some { seq := 1, brim := s.brimVersion, recs := [] } } }))
  ∧ (∀ (c : UserCopy) (s : State), s.dict.storing = some c →
    (∃ t, exec (.storeComplete true true) s = .next t ∧ t.nv.userA = some c ∧ t.nv.userB = some c ∧ t.nv.stores = s.nv.stores + 1
      ∧ t.dict.storing = none ∧ t.dict.storeState = 2 ∧ t.dict.seqInForce = c.seq ∧ t.dict.settings = s.dict.settings ∧ t.seats = s.seats ∧ t.mem = s.mem)
    ∧ (∀ b, ∃ t, exec (.storeComplete false b) s = .next t ∧ t.dict.storing = none ∧ t.dict.storeState = 3 ∧ t.nv.stores = s.nv.stores
      ∧ (if s.dict.firstB then t.nv.userB = none ∧ t.nv.userA = s.nv.userA else t.nv.userA = none ∧ t.nv.userB = s.nv.userB)
      ∧ t.dict.settings = s.dict.settings ∧ t.seats = s.seats ∧ t.mem = s.mem))

/-- R371, R376, R381, R459, R475, R477, R480 to R487, R496, R523, R525, R530, R531, R532: a legal whole value written to an entry that controls the device takes the effect the entry names and is answered OK. -/
def Obligations.ControlWrites : Prop :=
  (∀ (p : Path) (d : Word64) (s : State), s.gate p 0x2500 0x09 true = 0 →
    exec (.joinMark p d) s = .next (State.wroteOk { s with cad := { s.cad with joinMark := some (d.toNat % 2 ^ 48), joinPs := s.now } }))
  ∧ (∀ (p : Path) (a : Nat) (s : State), s.gate p 0x2500 0x03 true = 0 → a ≤ 31 → s.cascade.isBanker = true → (∃ e ∈ s.hb.order, e.addr = a ∧ e.elig = true) → a ≠ s.hb.addr →
    s.cascade.handoverTo = none → exec (.handover p a) s = .next (State.wroteOk { s with cascade := { s.cascade with handoverTo := some a } }))
  ∧ (∀ (p : Path) (v : Bytes) (s : State), s.gate p 0x2500 0x10 true = 0 → v.length = 64 → nonzero v 5 3 = false → nonzero v 0x20 28 = false →
    (s.bindingStatus v = 0 → exec (.groupBinding p v) s = .next (State.wroteOk { s with group := { s.group with
      stored := some (if le v 0 2 = 0 then none else some (parseBinding v)) } }))
    ∧ (s.bindingStatus v ≠ 0 → exec (.groupBinding p v) s = .next (s.answered { status := 0x1A, detail := s.bindingStatus v, data := [] })))
  ∧ (∀ (p : Path) (v : Nat) (s : State), s.gate p 0x1400 0x0B true = 0 → v ≤ 1 → s.dealing = false → s.sec.preparing = false →
    exec (.dealerHalt p v) s = .next (State.wroteOk { s with dealer := { s.dealer with halted := decide (v = 1) } }))
  ∧ (∀ (p : Path) (n : Nat) (s : State), s.gate p 0x1400 0x0C true = 0 → 1 ≤ n → n ≤ 65535 → s.dealing = false → s.sec.preparing = false → s.dealer.halted = true →
    exec (.dealerStep p n) s = .next (State.wroteOk { s with dealer := { s.dealer with stepsDone := s.dealer.stepsDone + n } }))
  ∧ (∀ (p : Path) (s : State), s.gate p 0x1300 0x01 true = 0 →
    (s.power.phase = 0 → exec (.sleepRequest p) s = .next (State.wroteOk { s with power := { s.power with sleepReq := true } }))
    ∧ (s.power.phase = 0 → exec (.runRequest p) s = .next (State.wroteOk { s with power := { s.power with sleepReq := false } }))
    ∧ (s.power.phase = 1 → exec (.runRequest p) s = .next (State.wroteOk { s with power := { s.power with runReq := true } }))
    ∧ (s.power.phase = 2 → exec (.runRequest p) s = .next (State.wroteOk { s with power := { s.power with phase := 3 } })))
  ∧ (∀ (p : Path) (ok : Bool) (s : State), s.gate p 0x1400 0x03 true = 0 → s.sec.preparing = false →
    (s.sec.session = false → exec (.endDebugSession p ok) s = .next (State.wroteOk { s with sec := { s.sec with openWait := none } }))
    ∧ (s.sec.session = true → (s.sec.level = 2 → s.keysAllowed = true → ok = true) →
      ∃ t, exec (.endDebugSession p ok) s = .next t ∧ t.sec.session = false ∧ t.sec.level = baseLevel s.sec.lifeCycle ∧ t.sec.expiry = none ∧ t.sec.openWait = none
        ∧ (s.sec.level ≠ 2 → t.sec.events = s.sec.events + 1) ∧ t.dict.answer = some { status := 1, detail := 0, data := [] }
        ∧ t.seats = s.seats ∧ t.mem = s.mem ∧ t.svis = s.svis))
  ∧ (∀ (p : Path) (r : Bytes) (s : State), s.gate p 0x1400 0x02 true = 0 → r.length = 256 → signedRsvd 0 r = false → s.power.phase = 0 → s.signedRefusal 0 r = 0 →
    (byteAt r 6 = 1 → exec (.grantObserve p r) s = .next (State.wroteOk { s with sec := { s.sec with verifying := some (parseSigned 0 r) } }))
    ∧ (byteAt r 6 = 2 → exec (.grantOpen p r) s = .next (State.wroteOk { s with sec := { s.sec with verifying := some (parseSigned 0 r) } })))
  ∧ (∀ (p : Path) (s : State), s.gate p 0x1400 0x02 true = 0 → s.power.phase = 0 → s.sec.lifeCycle = 0 → s.securityBusy = false →
    ∃ t, exec (.blankOpenGrant p) s = .next t ∧ t.sec.level = 2 ∧ t.sec.session = true ∧ t.sec.path = 3 ∧ t.sec.expiry = none
      ∧ t.dict.answer = some { status := 1, detail := 0, data := [] } ∧ t.seats = s.seats ∧ t.mem = s.mem ∧ t.svis = s.svis ∧ t.nv.authSeq = s.nv.authSeq)
  ∧ (∀ (p : Path) (r : Bytes) (s : State), s.gate p 0x1500 0x14 true = 0 → r.length = 256 → signedRsvd 2 r = false → s.power.phase = 0 → s.signedRefusal 2 r = 0 →
    exec (.crownAuthorisation p r) s = .next (State.wroteOk { s with sec := { s.sec with verifying := some (parseSigned 2 r) } }))
  ∧ (∀ (p : Path) (k : Nat) (v : Bytes) (s : State), s.gate p 0x1500 (0x20 + k) true = 0 → k < 16 → v.length ≤ 1048576 →
    ∃ t, exec (.stagingPieceWrite p k v) s = .next t ∧ t.nv.staging = aset k v s.nv.staging ∧ t.nv.stagingState = 1 ∧ t.nv.rescueStaged = false ∧ t.start.auths = 0 ∧ t.boot.pend = 0
      ∧ t.dict.answer = some { status := 1, detail := 0, data := [] } ∧ t.nv.slotA = s.nv.slotA ∧ t.nv.slotB = s.nv.slotB ∧ t.nv.crown = s.nv.crown ∧ t.seats = s.seats ∧ t.mem = s.mem)
  ∧ (∀ (p : Path) (s : State), s.gate p 0x1500 0x11 true = 0 → s.nv.stagingState ≠ 2 →
    exec (.stageCheck p) s = .next (State.wroteOk { s with nv := { s.nv with stagingState := 2 } })
    ∧ ∃ t, exec (.discard p) s = .next t ∧ t.nv.staging = [] ∧ t.nv.stagingState = 0 ∧ t.nv.rescueStaged = false ∧ t.start.auths = 0 ∧ t.boot.pend = 0
      ∧ t.dict.answer = some { status := 1, detail := 0, data := [] } ∧ t.nv.slotA = s.nv.slotA ∧ t.nv.slotB = s.nv.slotB ∧ t.nv.crown = s.nv.crown)
  ∧ (∀ (p : Path) (s : State), s.gate p 0x1500 0x19 true = 0 → s.boot.slot (!s.start.runB) = 1 → s.boot.brimFloor ≤ svn (if s.start.runB then s.nv.slotA else s.nv.slotB).header →
    ∃ t, exec (.rollback p 0x4B434252#32 true) s = .next t ∧ t.boot.activeB = !s.start.runB ∧ t.boot.tried = false ∧ t.boot.last = 0xB6
      ∧ t.boot.slot s.start.runB = (if s.start.trial then 3 else s.boot.slot s.start.runB) ∧ t.boot.slot (!s.start.runB) = 1
      ∧ t.dict.answer = some { status := 1, detail := 0, data := [] } ∧ t.start = s.start ∧ t.nv.slotA = s.nv.slotA ∧ t.nv.slotB = s.nv.slotB)
  ∧ (∀ (p : Path) (s : State), s.gate p 0x1500 0x1E true = 0 → s.atBoundary = false →
    exec (.firmwareReset p 0x54455352#32) s = .next (State.wroteOk { s with start := { s.start with resetReq := true } }))
  ∧ (∀ (p : Path) (s : State), s.gate p 0x1500 0x1E true = 0 → s.atBoundary = true →
    exec (.firmwareReset p 0x54455352#32) s = .next (State.wroteOk (s.reboot 3)))


/-- R427 to R438, R447, R503: a legal value written to a user-overridable entry becomes its live value by every way of access, a read of a fixed entry answers its value and changes nothing but the answer, and a lapse drops the requester's snapshot or staging buffer. R433, R435: a write the intake turns away at its gate changes nothing but the answer, which carries the gate's status, whichever way it comes. R84, R85, R444, R446, R465, R467: a clear, a store or a restore that has a command of its own is the same write as an access to its entry, and takes its effect; the binding of accounts names each account's function. -/
def Obligations.AccessesReachTheEntry : Prop :=
  ((∀ (p : Path) (v : Bytes) (s : State), s.gate p 0x1300 0x23 true = 0 → v.length = 1 → 1 ≤ byteAt v 0 → byteAt v 0 ≤ 40 →
    let t : State := { s with dict := { s.dict with settings := { s.dict.settings with step := byteAt v 0 } } }
    exec (.dictionaryWrite { path := p, index := 0x1300, sub := 0x23, write := true, offset := 0, len := 1, data := v }) s = .next t.wroteOk
    ∧ (p = .tap → exec (.tapAccess { path := .tap, index := 0x1300, sub := 0x23, write := true, offset := 0, len := 1, data := v }) s = .next t.wroteOk)
    ∧ (∀ (r : MirrorReq), p = .mirror r.fn r.slot → s.dict.remote = [] → r.index = 0x1300 → r.sub = 0x23 → r.op = 0 → r.target = 0xFF → r.rsvd = false → r.offset = 0 → r.len = 1 → r.data = v → r.irq = false →
      exec (.mirrorWrite r) s = .next { t with dict := { t.dict with mirror := aset (16 * r.fn + r.slot) { tag := r.tag.toNat, status := 1, detail := 0, contrib := 0, alen := 0, data := [] } s.dict.mirror } }))
  ∧ (∀ (p : Path) (s : State), s.gate p 0x1300 0x23 false = 0 →
    (p = .tap → exec (.tapAccess { path := .tap, index := 0x1300, sub := 0x23, write := false, offset := 0, len := 1, data := [] }) s
      = .next (s.answered { status := 1, detail := 0, data := toLe s.dict.settings.step 1 }))
    ∧ (∀ (r : MirrorReq), p = .mirror r.fn r.slot → s.dict.remote = [] → r.index = 0x1300 → r.sub = 0x23 → r.op = 0 → r.target = 0xFF → r.rsvd = false → r.offset = 0 → r.len = 1 → r.irq = false →
      exec (.mirrorRead r) s = .next { s with dict := { s.dict with mirror := aset (16 * r.fn + r.slot) { tag := r.tag.toNat, status := 1, detail := 0, contrib := 0, alen := 1, data := toLe s.dict.settings.step 1 } s.dict.mirror } })
    ∧ (∀ (r : MirrorReq) (n : Nat) (x : Spdm), p = .secured n → s.spdmUp = true → s.spdmSession n = some x → x.state = 2 → r.index = 0x1300 → r.sub = 0x23 → r.op = 0 → r.target = 0xFF → r.rsvd = false → r.offset = 0 → r.len = 1 →
      exec (.vendorDefinedRequest n true r 0) s = .next (s.respond 0x7E
        (mirrorHeader r 0 { tag := r.tag.toNat, status := 1, detail := 0, contrib := 0, alen := 1, data := toLe s.dict.settings.step 1 } ++ toLe s.dict.settings.step 1))))
  ∧ (∀ (r : MirrorReq) (s : State), s.dict.remote = [] → r.fn = 0 → r.rsvd = false → r.op ≤ 2 → (r.len = 1 ∨ r.len = 2 ∨ r.len = 4 ∨ r.len = 8) →
    exec (.mirrorBroadcastRead r) s = .next { s with
      dict := { s.dict with remote := [{ req := r, kind := 2, secured := none, tag := s.hb.nextTag }] },
      hb := { s.hb with nextTag := (s.hb.nextTag + 1) % 256 } })
  ∧ (∀ (p : Path) (i j : Nat) (s : State), ∃ t, exec (.snapshotLapse p i j) s = .next t
      ∧ t.dict.snaps = s.dict.snaps.filter (fun x => !x.is (requester p) i j) ∧ t.dict.staging = s.dict.staging ∧ t.dict.settings = s.dict.settings ∧ t.nv = s.nv ∧ t.seats = s.seats)
  ∧ (∀ (p : Path) (i j : Nat) (s : State), exec (.stagingTimeout p i j) s
      = .next { s with dict := { s.dict with staging := s.dict.staging.filter (fun x => !x.is (requester p) i j) } }))
  ∧ (∀ (p : Path) (i j n : Nat) (v : Bytes) (s : State), s.gate p i j true = n → n ≠ 0 →
    exec (.dictionaryWrite { path := p, index := i, sub := j, write := true, offset := 0, len := v.length, data := v }) s
        = .next (State.wroteNot (if segUnit p < v.length then 6 else n) (if (i = 0x1400 ∧ j = 0x03) ∨ (i = 0x1500 ∧ j = 0x19) then { s with fresh := s.fresh + 1 } else s))
    ∧ (i = 0x2300 → j = 0x09 → exec (.keyLoad p v) s = .next (s.wroteNot n))
    ∧ (i = 0x1400 → j = 0x02 → exec (.grantOpen p v) s = .next (s.wroteNot n))
    ∧ (i = 0x1500 → j = 0x1E → exec (.firmwareReset p 0x54455352#32) s = .next (s.wroteNot n)))
  ∧ (∀ (p : Path) (s : State),
    let access := fun (i j n : Nat) (v : Bytes) => exec (.dictionaryWrite { path := p, index := i, sub := j, write := true, offset := 0, len := n, data := v }) s
    let ok := fun (t : State) => t.dict.answer = some { status := 1, detail := 0, data := [] } ∧ t.seats = s.seats ∧ t.mem = s.mem ∧ t.cad = s.cad ∧ t.nv = s.nv ∧ t.sec = s.sec
    (∀ a, a < 4096 → exec (.accountCounterClear p a 1) s = access (0x3000 + a) 0x09 1 [1] ∧ (s.gate p (0x3000 + a) 0x09 true = 0 →
      ∃ t, exec (.accountCounterClear p a 1) s = .next t ∧ (t.acct a).clearPending = true ∧ (∀ b, b ≠ a → t.acct b = s.acct b) ∧ ok t))
    ∧ (exec (.houseCounterClear p 1) s = access 0x2200 0x17 1 [1] ∧ (s.gate p 0x2200 0x17 true = 0 →
      ∃ t, exec (.houseCounterClear p 1) s = .next t ∧ t.dealer = { s.dealer with houseClear := true } ∧ ok t))
    ∧ (exec (.logClear p 1) s = access 0x4000 0x05 1 [1] ∧ (s.gate p 0x4000 0x05 true = 0 →
      ∃ t, exec (.logClear p 1) s = .next t ∧ t.log = { s.log with ring := [] } ∧ ok t))
    ∧ (exec (.storeLayer p 0x53544F52#32) s = access 0x1500 0x01 4 (toLe 0x53544F52 4) ∧ (s.gate p 0x1500 0x01 true = 0 → s.dict.storing = none → s.dict.seqInForce ≠ 0xFFFFFFFF →
      ∃ t, exec (.storeLayer p 0x53544F52#32) s = .next t ∧ t.dict.storeState = 1 ∧ t.dict.storing.isSome = true ∧ t.dict.settings = s.dict.settings ∧ ok t))
    ∧ (exec (.restoreLayer p 0x4C4F4144#32) s = access 0x1500 0x03 4 (toLe 0x4C4F4144 4) ∧ (s.gate p 0x1500 0x03 true = 0 → s.dict.storing = none →
      ∃ t c, exec (.restoreLayer p 0x4C4F4144#32) s = .next t ∧ t.dict.storeState = 1 ∧ t.dict.storing = some c ∧ c.recs = [] ∧ t.dict.settings = s.dict.settings ∧ ok t))
    ∧ (∀ v : Bytes, s.gate p 0x2201 0x01 true = 0 → v.length = 4096 → (∀ x ∈ v, x.toNat < 64) →
      ∃ t, exec (.accountBinding p v) s = .next t ∧ (∀ a f, a < 4096 → (t.boundFn a = f ↔ byteAt v a = f)) ∧ t.dealer = s.dealer ∧ ok t))

/-! ## The Hatband -/

/-- R411, R412, R414, R416, R422: a call for this node is answered once and its answer kept in its slot: a read of a fixed-width entry with its value, a write with its effect and, repeated under its tag, with the same answer and no second effect, a broadcast read with the node's contribution combined; a sleeping node answers SLEEPING, a caller of another rank BAD CLASS. -/
def Obligations.RingCallsAreAnswered : Prop :=
  (∀ (n : Nat) (c : HbCall) (e : OdEntry) (s : State), s.board.hbAlive = true → c.ok = true → c.used = true → c.caller ≠ s.hb.addr → c.target = s.hb.addr → s.hb.dup = false → c.status = 0 →
    let r : HbCall := { c with kind := 0 }
    let kept := fun (t : State) (x : HbCall) => ({ t with hb := { t.hb with answers := aset n x s.hb.answers } } : State)
    (s.responder = true → exec (.hbRead n c) s = .next (kept s (replied r 0x04 [])))
    ∧ (s.responder = false → s.sec.lifeCycle ≠ 4 → s.callAllowed n r = true → badCall r = false → s.gate (.ring n c.cls c.caller) c.index c.sub false = 0 →
      odEntry c.index c.sub = some e → e.slow = false → typeWidth e.type ≠ 0 → c.offset = 0 → typeWidth e.type ≤ c.len → c.index ≠ 0x2000 →
      exec (.hbRead n c) s = .next (kept s (replied r 0x01 (toLe (s.odNat c.index c.sub) (typeWidth e.type)))))
    ∧ (s.responder = false → s.sec.lifeCycle ≠ 4 → s.callAllowed n r = false →
      exec (.hbRead n c) s = .next (kept (s.security 0xAD c.caller 0 0 0) (replied r 0x03 []))))
  ∧ (∀ (n : Nat) (c : HbCall) (s : State), s.board.hbAlive = true → c.ok = true → c.used = true → c.caller ≠ s.hb.addr → c.target = s.hb.addr → s.hb.dup = false → c.status = 0 →
    s.responder = false → s.sec.lifeCycle ≠ 4 → s.callAllowed n { c with kind := 1 } = true → badCall { c with kind := 1 } = false →
    (∀ w, s.hb.lastWrites.find? (fun w => decide (w.caller = c.caller) && decide (w.tag = c.tag)) = some w →
      exec (.hbWrite n c) s = .next { s with hb := { s.hb with answers := aset n (replied { c with kind := 1 } w.status w.data) s.hb.answers } })
    ∧ (s.hb.lastWrites.find? (fun w => decide (w.caller = c.caller) && decide (w.tag = c.tag)) = none → s.gate (.ring n c.cls c.caller) 0x1300 0x23 true = 0 →
      c.index = 0x1300 → c.sub = 0x23 → c.offset = 0 → c.len = 1 → 1 ≤ byteAt c.data 0 → byteAt c.data 0 ≤ 40 →
      exec (.hbWrite n c) s = .next { s with
        dict := { s.dict with settings := { s.dict.settings with step := byteAt c.data 0 } },
        hb := { s.hb with lastWrites := s.hb.lastWrites.filter (fun w => decide (w.caller ≠ c.caller)) ++ [{ caller := c.caller, tag := c.tag, status := 1, data := [] }], answers := aset n (replied { c with kind := 1 } 0x01 []) s.hb.answers } }))
  ∧ (∀ (n : Nat) (c : HbCall) (s : State), s.board.hbAlive = true → c.ok = true → c.used = true → c.caller ≠ s.hb.addr →
    let r : HbCall := { c with kind := 2 }
    (∀ w, badCall r = false → s.callAllowed n r = true → (c.len = 1 ∨ c.len = 2 ∨ c.len = 4 ∨ c.len = 8) → s.responder = false →
      s.contribution (.ring n c.cls c.caller) c.index c.sub c.len = some w →
      exec (.hbBroadcastRead n c) s = .next { s with hb := { s.hb with answers := aset n { r with data := toLe (combine c.op c.len (leAll (c.data.take c.len)) w) c.len ++ c.data.drop c.len, contrib := c.contrib + 1 } s.hb.answers } })
    ∧ (s.contribution (.ring n c.cls c.caller) c.index c.sub c.len = none →
      exec (.hbBroadcastRead n c) s = .next { s with hb := { s.hb with answers := aset n r s.hb.answers } }))

/-- R402 to R411, R423, R424, R593: a node forwards a first-lap frame once, with its delay added and its bits in the standing block, and a second-lap frame with the block's order taken; the Banker originates rounds and measures their return; three missing blocks lose a node and three lost rounds break the ring, each event once. -/
def Obligations.RoundsGoRound : Prop :=
  (∀ (f : HbFrame) (s : State), s.board.hbAlive = true → s.cascade.isBanker = false → s.hb.seen.contains (f.header.round, f.header.bankerId) = false →
    (∀ c ∈ f.slots, c.used = false) → s.dict.remote = [] →
    ∃ t g, exec (.hbFirstLapFrame f) s = .next t ∧ t.hb.out = some g
      ∧ g.header = { f.header with accDelay := min 65535 (f.header.accDelay + s.dict.settings.seg + 320) }
      ∧ g.slots = f.slots ∧ g.serial = f.serial ∧ g.eofVoid = f.eofVoid
      ∧ (f.standing.ok = true → s.hb.dup = false → (∀ e ∈ f.standing.order, e.addr ≠ s.hb.addr) → g.standing.present = f.standing.present ||| maskBit s.hb.addr)
      ∧ (f.standing.ok = false → g.standing = f.standing)
      ∧ (f.standing.ok = true → s.hb.dup = false → (∃ e ∈ f.standing.order, e.addr = s.hb.addr) → t.hb.dup = true)
      ∧ t.hb.seen = ((f.header.round, f.header.bankerId) :: s.hb.seen).take 8
      ∧ t.hb.symErrs = s.hb.symErrs + BitVec.ofNat 32 f.symErrs)
  ∧ (∀ (f : HbFrame) (s : State), s.board.hbAlive = true → s.cascade.isBanker = false → s.hb.seen.contains (f.header.round, f.header.bankerId) = true →
    exec (.hbFirstLapFrame f) s = .next { s with now := s.now + f.dtPs, hb := { s.hb with symErrs := s.hb.symErrs + BitVec.ofNat 32 f.symErrs, out := none } })
  ∧ (∀ (f : HbFrame) (s : State), s.board.hbAlive = true → s.cascade.isBanker = false → (∀ c ∈ f.slots, c.used = false) → s.dict.remote = [] → f.standing.ok = true →
    exec (.hbSecondLapFrame f) s = .next { s with hb := { s.hb with
      symErrs := s.hb.symErrs + BitVec.ofNat 32 f.symErrs, order := f.standing.order, present := f.standing.present, out := some { f with symErrs := 0, dtPs := 0 } } })
  ∧ (∀ (s : State), s.board.hbAlive = true → s.cascade.isBanker = true → s.cascade.syncWait = false →
    (s.cascade.handoverTo = none → s.dict.remote = [] →
      ∃ t f, exec .roundOrigin s = .next t ∧ t.hb.out = some f ∧ f.header.round = s.hb.round ∧ f.header.bankerId = s.hb.addr ∧ f.header.accDelay < max 1 f.header.curPeriod
        ∧ f.standing.present.getLsbD s.hb.addr = decide (s.hb.addr < 32) ∧ f.slots.length = 18 ∧ t.hb.round = (s.hb.round + 1) % 65536
        ∧ t.hb.roundPs = some t.now ∧ t.now = max s.now (match s.hb.roundPs with | some p => p + 8000000 | none => s.cascade.genPs))
    ∧ (s.cascade.handoverTo.isSome = true → ∃ t, exec .roundOrigin s = .next t ∧ t.cascade.isBanker = false ∧ t.board.beatOut = false ∧ t.hb.out = s.hb.out ∧ t.seats = s.seats ∧ t.cad = s.cad))
  ∧ (∀ (f : HbFrame) (d : Nat) (x : Nat × Nat × Nat) (s : State), s.board.hbAlive = true → s.cascade.isBanker = true → s.hb.sent.find? (fun y => decide (y.1 = f.header.round)) = some x →
    d ≤ 16000 → (∀ c ∈ f.slots, c.used = false) → s.dict.remote = [] →
    ∃ t, exec (.frameReturn f d) s = .next t ∧ t.hb.dr = d ∧ t.hb.lag = max s.hb.lag (lagOf d) ∧ t.hb.broken = false
      ∧ t.hb.sent = s.hb.sent.filter (fun y => decide (x.2.1 < y.2.1)) ∧ t.now = max s.now (x.2.1 + 1000 * d)
      ∧ (f.standing.ok = true → t.hb.order = f.standing.order ∧ t.hb.present = f.standing.present ∧ t.hb.stretch = f.standing.stretch ∧ t.hb.floor = f.standing.floor ∧ t.hb.join = f.standing.join))
  ∧ (∀ (a : Nat) (s : State), s.cascade.isBanker = true → 3 ≤ (aget a s.hb.missing).getD 0 → s.hb.lost.getLsbD a = false →
    exec (.nodeLost a) s = .next (State.ringEvent { s with hb := { s.hb with lost := s.hb.lost ||| maskBit a } } 0x82 a))
  ∧ (∀ (s : State), s.cascade.isBanker = true → s.hb.broken = false → 3 ≤ (s.hb.sent.filter (fun x => decide (x.2.1 + 16000000 < s.now))).length →
    exec .ringBreak s = .next (State.ringEvent { s with hb := { s.hb with broken := true } } 0x84 0))
  ∧ (∀ (i j : Nat) (x : SlowPrep) (e : OdEntry) (s : State), s.dict.slow = [x] → x.index = i → x.sub = j → x.copy = none → odEntry i j = some e →
    exec (.slowEntryPrepared i j) s = .next { s with
      now := max s.now (x.firstPs + 1000000000),
      dict := { s.dict with slow := [{ x with copy := some (State.odValue { s with now := max s.now (x.firstPs + 1000000000) } e i j) }] } })

/-- R362, R399 to R401, R421, R596: whatever the line scrambler holds, the 500 symbols of a frame, every field at every value its bits hold and each section good or bad, read back as that frame and its lap; and the 256 bytes of a flit as that flit. -/
def Obligations.WiresCarryWhatIsSent : Prop :=
  (∀ (lap2 : Bool) (r : BitVec 23) (f : HbFrame), FrameFits f →
    (frameSymbols lap2 r f).length = 500 ∧ frameLap2 (frameSymbols lap2 r f) = lap2 ∧ parseFrame r (frameSymbols lap2 r f) = f)
  ∧ (∀ f : Flit, FlitFits f → (flitBytes f).length = 256 ∧ parseFlit (flitBytes f) = f)

/-! ## The cascade -/

/-- R361 to R365, R367: a training link comes UP with nothing outstanding; a link that falls is DOWN and counts its loss; IDENT tells the far end or holds the link; a NAK replays what is not acknowledged, and the 32nd without progress takes the link down; a bad flit is discarded, and a flit in order is taken with its ACK and credits, DATA gathering into a transfer, one of another deal landing nothing, the credit of a PASS flit withheld (R293). -/
def Obligations.DeckLinksCarryFlits : Prop :=
  (∀ (k : Nat) (s : State), s.start.stage = 2 → s.power.phase = 0 → (s.deckLink k).st = 0 ∨ (s.deckLink k).st = 1 →
    exec (.linkTrained k) s = .next (s.setLink k { st := 2, replayed := (s.deckLink k).replayed, losses := (s.deckLink k).losses }))
  ∧ (∀ (k : Nat) (s : State), (s.deckLink k).st = 2 → s.boundLinks.contains k = false →
    exec (.linkDown k) s = .next (s.setLink k { st := 0, replayed := (s.deckLink k).replayed, losses := (s.deckLink k).losses + 1 }))
  ∧ (∀ (k addr far : Nat) (n : Word64) (s : State), (s.deckLink k).st = 2 →
    (exec (.deckIdent k n addr far true) s = .next (s.setLink k { s.deckLink k with farValid := true, farAddr := addr % 256, farLink := far % 8 }))
    ∧ (s.boundLinks.contains k = false →
      exec (.deckIdent k n addr far false) s = .next (s.setLink k { st := 3, replayed := (s.deckLink k).replayed, losses := (s.deckLink k).losses })))
  ∧ (∀ (k a : Nat) (s : State), (s.deckLink k).st = 2 →
    let l := s.deckLink k
    ((l.acked a).length < l.sent.length →
      exec (.deckNak k a) s = .next (s.setLink k { l with sent := l.acked a, replayed := l.replayed + (l.acked a).length, nakRun := 0 }))
    ∧ (¬ (l.acked a).length < l.sent.length → l.nakRun ≠ 31 →
      exec (.deckNak k a) s = .next (s.setLink k { l with replayed := l.replayed + (l.acked a).length, nakRun := l.nakRun + 1 }))
    ∧ (¬ (l.acked a).length < l.sent.length → l.nakRun = 31 → s.boundLinks.contains k = false →
      exec (.deckNak k a) s = .next (s.setLink k { st := 0, replayed := l.replayed, losses := l.losses + 1 })))
  ∧ (∀ (k : Nat) (f : Flit) (s : State), (s.deckLink k).st = 2 →
    let l := (s.deckLink k).credit f.ack f.crData f.crNotice f.crPass
    let m : DeckLink := { l with rxNext := (l.rxNext + 1) % 4096, discarding := false, owed := owedFor f.type }
    (flitBad (s.deckLink k) f = true → exec (.deckDataFlit k f) s = .next (s.setLink k { s.deckLink k with discarding := true }))
    ∧ (flitBad (s.deckLink k) f = false → f.type = 2 → exec (.deckDataFlit k f) s = .next (s.setLink k m))
    ∧ (flitBad (s.deckLink k) f = false → f.type = 3 →
      exec (.deckDataFlit k f) s = .next { s.setLink k m with vault := { s.vault with passFrom := some k, passHeld := s.vault.passHeld + 1 } } ∧ m.owed = [0, 0, 0])
    ∧ (∀ x, flitBad (s.deckLink k) f = false → f.type = 1 →
      (if f.first then some (parseXfer (f.payload.take f.len)) else l.xfer.map (fun y => { y with data := y.data ++ f.payload.take f.len })) = some x →
      (x.data.length < 64 * x.count → exec (.deckDataFlit k f) s = .next (s.setLink k { m with xfer := some x }))
      ∧ (64 * x.count ≤ x.data.length → x.rsvd = true ∨ x.deal ≠ s.cad.deal % 65536 → exec (.deckDataFlit k f) s = .next (s.setLink k { m with xfer := none })))
    ∧ (flitBad (s.deckLink k) f = false → f.type = 1 → f.first = false → l.xfer = none → exec (.deckDataFlit k f) s = .next (s.setLink k m)))

/-- R381, R382, R386 to R392, R396: a record heard for the first time is held and sent on by every other bound link, and one already held, or from outside the group, does nothing; CAUSE brings the member's cause, or the divergence; NO_REDEAL drops the held re-deal; unequal selections make the next deal idle; a stored binding takes effect once no grouped plan is left. -/
def Obligations.GroupNoticesAndBindings : Prop :=
  (∀ (k : Nat) (n : Notice) (s : State),
    let forwarded := fun (kind : Nat) => (s.boundLinks.filter (fun j => decide (j ≠ k))).foldl (fun s j => s.deckSend j 2 (noticeBytes { kind, note := n }))
      { s with group := { s.group with records := s.group.records ++ [{ kind, note := n }] } }
    (s.hears k n = true → (∀ r ∈ s.group.records, r.note ≠ n) →
      exec (.selectNotice k n) s = .next (forwarded 1) ∧ exec (.foldNotice k n) s = .next (forwarded 3) ∧ exec (.leaveNotice k n) s = .next (forwarded 5)
      ∧ (s.dealing = true → s.cad.deal ≤ n.deal → bits n.arg.toNat 8 8 ≠ 0x74 →
        exec (.causeNotice k n) s = .next { forwarded 2 with dealer := { s.dealer with causes := s.dealer.causes ++ [
          { deal := n.deal, rank := bits n.arg.toNat 0 8, detail := bits n.arg.toNat 8 8, member := n.member, remote := true, slot := 0xFFF, die := 0, place := 0, repair := bit n.arg.toNat 16 }] } })
      ∧ (bits n.arg.toNat 8 8 = 0x74 → ∃ t, exec (.causeNotice k n) s = .next t ∧ t.group.diverged = true ∧ t.dealer.redeal = none)
      ∧ (s.dealer.redeal = none → exec (.noRedealNotice k n) s = .next (forwarded 4))
      ∧ (∃ t, exec (.noRedealNotice k n) s = .next t ∧ t.dealer.redeal = none))
    ∧ (s.hears k n = false → exec (.selectNotice k n) s = .next s ∧ exec (.causeNotice k n) s = .next s ∧ exec (.foldNotice k n) s = .next s
      ∧ exec (.noRedealNotice k n) s = .next s ∧ exec (.leaveNotice k n) s = .next s))
  ∧ (∀ (s : State), s.inGroup = true → s.cad.compared = false → s.dealing = true → s.atLeft 128 = true → outcomesDiffer (s.selects (s.cad.deal + 1)) = false →
    (s.selectsAgree (s.cad.deal + 1) = true → exec .groupCompare s = .next { s with cad := { s.cad with compared := true } })
    ∧ (s.selectsAgree (s.cad.deal + 1) = false →
      ∃ t, exec .groupCompare s = .next t ∧ t.cad.compared = true ∧ t.group.idleNext = true ∧ t.dealer.selected = none ∧ t.dealer.running = s.dealer.running
        ∧ t.dealer.redeal = s.dealer.redeal ∧ t.seats = s.seats ∧ t.mem.bytes = s.mem.bytes))
  ∧ (∀ (b : Option Binding) (s : State), s.group.stored = some b → s.groupedPlan s.dealer.running = false → s.groupedPlan s.dealer.selected = false → s.groupedPlan s.dealer.redeal = false →
    exec .bindingEffect s = .next { s with group := { s.group with binding := b, stored := none, records := [], diverged := false, idleNext := false } })
  ∧ (∀ (s : State), s.groupedPlan s.dealer.selected = true → exec .bindingEffect s = .next s)

/-- R373, R376 to R378, R393: a candidate that heard no header for 100 µs becomes the Banker at deal 0 with its plans; one that heard a header does not; the ranked successor takes over behind the last header with a lead-in; REF_IN lost puts the Banker in holdover once and found again in lock; SYNC_IN places its first mark on the next edge. -/
def Obligations.BankersComeAndGo : Prop :=
  (∀ (s : State), s.start.stage ≠ 0 → s.cascade.elected = false → s.cascade.isBanker = false → s.sec.lifeCycle ≠ 4 → s.board.bankerEn = true ∨ s.dict.settings.candidate = 1 →
    (s.hb.lastHdr = none → ∃ t, exec .bankerElectionTimeout s = .next t ∧ t.cascade.isBanker = true ∧ t.cascade.elected = true ∧ t.board.beatOut = true ∧ t.cascade.genDeal = 0
      ∧ t.cascade.genLen = s.dict.settings.lenPlan ∧ t.cascade.genPeriod = s.dict.settings.periodPlan ∧ t.cascade.leadIn = false ∧ t.now = max s.now (s.start.readyPs + 100000000)
      ∧ t.cascade.syncWait = (bit s.dict.settings.refSync 0 && bit s.dict.settings.refSync 1) ∧ t.cad = s.cad ∧ t.seats = s.seats ∧ t.dealer = s.dealer)
    ∧ (s.hb.lastHdr.isSome = true → ∃ t, exec .bankerElectionTimeout s = .next t ∧ t.cascade.isBanker = false ∧ t.cascade.elected = true ∧ t.board = s.board ∧ t.hb = s.hb))
  ∧ (∀ (h : HbHeader) (handover : Bool) (s : State), s.hb.lastHdr = some h → s.start.stage ≠ 0 → s.cascade.isBanker = false → s.sec.lifeCycle ≠ 4 → s.dict.settings.eligible ≠ 0 → s.hb.dup = false →
    ∃ t, exec (.bankerTakeover handover) s = .next t ∧ t.cascade.isBanker = true ∧ t.board.beatOut = true ∧ t.cascade.genDeal = h.curDeal + 1 ∧ t.cascade.leadIn = true
      ∧ t.cascade.genLen = 2048 ∧ t.cascade.genPeriod = h.nextPeriod ∧ t.cascade.nextLen = h.nextLen
      ∧ t.now = max s.now (s.hb.headerPs + (if handover then 0 else 24000000 + (s.bankerRank h.bankerId - 1) * 16000000)) ∧ t.cad = s.cad ∧ t.seats = s.seats)
  ∧ (∀ (s : State), s.cascade.isBanker = true → bit s.dict.settings.refSync 0 = true →
    (s.cascade.refState ≠ 2 → exec .refInLoss s = .next (State.post { s with cascade := { s.cascade with refState := 2 } } (ev 0x09 0 s.curDeal)))
    ∧ (s.cascade.refState = 2 → exec .refInLoss s = .next s)
    ∧ exec .refInLock s = .next { s with cascade := { s.cascade with refState := 1 } })
  ∧ (∀ (s : State), s.cascade.isBanker = true → s.cascade.syncWait = true → 0 < s.cascade.genPeriod →
    ∃ t, exec .syncIn s = .next t ∧ t.cascade.syncWait = false ∧ s.now < t.cascade.genPs ∧ (s.cascade.genPs ≤ s.now → t.cascade.genPs ≤ s.now + 1000 * s.cascade.genPeriod)
      ∧ t = { s with cascade := { s.cascade with syncWait := false, genPs := t.cascade.genPs } })

/-! ## Heat, power, Sleep -/

/-- R460, R461, R469, R491, R492, R494, R496, R586 to R588: each whole millisecond is metered, in Sleep with nothing else but the run of cool evaluations that releases a trip; power above its limit raises the stretch request by a step, a cool device that stayed so for WITHDRAW milliseconds withdraws it; a trip drives THERM_N and leaves the table until released; Sleep is entered at a boundary with the key slots empty and the stretch withdrawn, is complete when nothing is pinned or held, and the wake trains the links. -/
def Obligations.HeatAndSleep : Prop :=
  (∀ (r : Readings) (s : State), s.start.stage ≠ 0 →
    let ms := max (s.power.lastMs + 1) (s.now / 1000000000)
    (s.power.phase ≠ 0 → exec (.thermalEvaluation r) s = .next { s with
      now := max s.now (1000000000 * ms), power := { s.power with lastMs := ms, watts := r.power, energy := s.power.energy + r.power, tripCool := s.coolRun r.temps } })
    ∧ (s.power.phase = 0 → ∃ t, exec (.thermalEvaluation r) s = .next t ∧ t.power.lastMs = ms ∧ t.power.watts = r.power ∧ t.power.energy = s.power.energy + r.power
        ∧ t.power.temps = r.temps ∧ t.now = max s.now (1000000000 * ms) ∧ t.seats = s.seats ∧ t.mem = s.mem ∧ t.dealer = s.dealer
        ∧ (s.dict.settings.powerOn < r.power → s.power.thermal ≠ 1 → s.cad.stretchReq ≠ 160 →
            t.cad.stretchReq = min 160 (max (max s.cad.stretchReq s.cad.period) 40 + s.dict.settings.step) ∧ t.power.thermal = 1)
        ∧ (∀ x, hottest r.temps = some x → tempAtMost x s.dict.settings.stretchOff = true → tempAtLeast x s.dict.settings.stretchOn = false → (∀ i, i < 9 → r.temps.getD i none ≠ none) →
            s.power.blind = [] → 100 * r.power ≤ 95 * s.dict.settings.powerOn → s.power.cool = s.dict.settings.withdraw → t.cad.stretchReq = 0 ∧ t.power.thermal = 0)))
  ∧ (∀ (n : Int) (s : State), s.start.up = true → s.power.tripped = false →
    (1100 ≤ n → ∃ t, exec (.thermalTrip n) s = .next t ∧ t.board.thermN = true ∧ t.board.critN = s.board.critN ∧ t.power.tripped = true ∧ t.cad.holdThermal = true ∧ t.cad.st = .left)
    ∧ (1200 ≤ n → ∃ t, exec (.criticalTemperature n) s = .next t ∧ t.board.critN = true ∧ t.board.thermN = true ∧ t.power.tripped = true ∧ t.cad.st = .left)
    ∧ (n < 1100 → exec (.thermalTrip n) s = .next s ∧ exec (.criticalTemperature n) s = .next s))
  ∧ (∀ (s : State), s.power.tripped = true → 101 ≤ s.power.tripCool →
    exec .tripRelease s = .next { s with
      board := { s.board with thermN := false }, power := { s.power with tripped := false }, cad := { s.cad with holdThermal := false } })
  ∧ (∀ (l : List UnitRef) (s : State), s.power.sleepReq = true → s.power.phase = 0 → s.sec.preparing = false → s.atBoundary = true → s.cad.st ≠ .flywheel → s.sec.lifeCycle ≠ 4 →
    ∃ t, exec (.sleepEntry l) s = .next t ∧ t.power.phase = 1 ∧ t.power.sleepReq = false ∧ t.power.thermal = 0 ∧ t.vault.keys = [] ∧ t.vault.keyPending = []
      ∧ t.sec.level = (if s.sec.level = 2 then 1 else s.sec.level) ∧ t.sec.openWait = none ∧ t.svis.openWin = none)
  ∧ (∀ (l : List UnitRef) (s : State), s.atBoundary = false ∨ s.cad.st = .flywheel → exec (.sleepEntry l) s = .next s)
  ∧ (∀ (s : State), s.power.phase = 1 →
    (s.pins = [] → s.mem.deferred = [] → s.mem.windowPending = [] → s.videoIdle = true →
      exec .sleepComplete s = .next { s with
        power := { s.power with phase := if s.power.runReq then 3 else 2, runReq := false },
        cascade := { s.cascade with links := s.cascade.links.map (fun x => (x.1, if x.2.st = 3 then x.2 else { st := 0, replayed := x.2.replayed, losses := x.2.losses })) } })
    ∧ (s.pins ≠ [] ∨ s.mem.deferred ≠ [] → exec .sleepComplete s = .next s))
  ∧ (∀ (ok : Bool) (s : State), s.power.phase = 3 →
    ((s.power.wakeCheck = true → ok = true) → ∃ t, exec (.wakeComplete ok) s = .next t ∧ t.power.phase = 0 ∧ t.power.wakeCheck = false ∧ t.power.wakePs = s.now
      ∧ (∀ k, k < 8 → (s.deckLink k).st ≠ 3 → (t.deckLink k).st = 1) ∧ t.nv.wrapped = s.nv.wrapped ∧ t.seats = s.seats ∧ t.mem = s.mem
      ∧ (∀ w, s.nv.wrapped = [w] → s.keysAllowed = true → s.sec.lcBad = false →
          aget w.1 t.vault.keys = (match Config.keyUnwrap w.2.2 with | some x => some (w.2.1, x) | none => aget w.1 s.vault.keys)))
    ∧ (s.power.wakeCheck = true → ok = false → exec (.wakeComplete ok) s = .next ((s.security 0xA8 0 0 0 0).reboot 3)))

/-! ## Debug sessions and the life cycle -/

/-- R474, R475, R481 to R485, R488: a verified Observe grant takes effect at once and uses up its SEQ, an Open one in Provisioned or Deployed waits for its preparation, one that fails posts its code and changes nothing else; the preparation empties the key slots at a boundary, and Open begins when it is done, in Deployed over scrubbed seats and memory; at expiry the session ends at the base level. -/
def Obligations.DebugSessionsOpenAndEnd : Prop :=
  (∀ (ok : Bool) (r : SignedRec) (s : State), s.sec.verifying = some r →
    let v := s.verifyRefusal r
    (r.kind = 0 → r.action = 1 → s.sec.level ≠ 2 →
      ∃ t, exec (.recordVerified ok) s = .next t ∧ t.sec.verifying = none ∧ t.nv.authSeq = (if v = 0 then r.seq else s.nv.authSeq)
        ∧ (if v = 0 then t.sec.level = 1 ∧ t.sec.path = r.path ∧ t.sec.openWait = none ∧ t.sec.expiry = some (s.now + 1000000000000 * r.duration)
            else t.sec.level = s.sec.level ∧ t.sec.path = s.sec.path ∧ t.sec.expiry = s.sec.expiry)
        ∧ t.seats = s.seats ∧ t.mem = s.mem ∧ t.vault = s.vault)
    ∧ (r.kind = 0 → r.action = 2 → s.sec.level ≠ 2 → s.keysAllowed = true →
      ∃ t, exec (.recordVerified ok) s = .next t ∧ t.sec.verifying = none ∧ t.nv.authSeq = (if v = 0 then r.seq else s.nv.authSeq) ∧ t.sec.level = s.sec.level
        ∧ t.sec.openWait = (if v = 0 then some (r.path, s.now + 1000000000000 * r.duration) else s.sec.openWait) ∧ t.seats = s.seats ∧ t.mem = s.mem ∧ t.vault = s.vault)
    ∧ (r.kind = 1 →
      ∃ t, exec (.recordVerified ok) s = .next t ∧ t.sec.verifying = none ∧ t.nv.authSeq = (if v = 0 then r.seq else s.nv.authSeq)
        ∧ t.sec.command = (if v = 0 then some r.action else s.sec.command) ∧ t.sec.level = s.sec.level ∧ t.seats = s.seats ∧ t.mem = s.mem ∧ t.vault = s.vault)
    ∧ (r.seq ≤ s.nv.authSeq → (v = 5 ∨ v = 6) ∧
      exec (.recordVerified ok) s = .next (State.security { s with sec := { s.sec with verifying := none } } (0xA1 + (v - 5)) 0 0 v 0)))
  ∧ (∀ (w : Nat × Nat) (s : State), s.sec.openWait = some w → s.sec.preparing = false →
    (s.power.sleepReq = false → s.power.phase = 0 → s.keysAllowed = true → s.atBoundary = true → s.cad.st ≠ .flywheel →
      ∃ t, exec .openPreparation s = .next t ∧ t.sec.preparing = true ∧ t.sec.openWait = some w ∧ t.vault.keys = [] ∧ t.vault.keyPending = [] ∧ t.sec.level = s.sec.level
        ∧ t.nv.scrubOwed = decide (s.sec.lifeCycle = 2) ∧ t.seats = s.seats ∧ t.mem.bytes = s.mem.bytes)
    ∧ (s.atBoundary = false ∨ s.cad.st = .flywheel → exec .openPreparation s = .next s))
  ∧ (∀ (path expiry : Nat) (s : State), s.sec.openWait = some (path, expiry) → s.sec.preparing = true → s.sec.lifeCycle = 1 ∨ s.sec.lifeCycle = 2 →
    ∃ t, exec .openPreparationDone s = .next t ∧ t.sec.level = 2 ∧ t.sec.session = true ∧ t.sec.path = path ∧ t.sec.expiry = some expiry ∧ t.sec.openWait = none ∧ t.sec.preparing = false
      ∧ t.nv.scrubOwed = false ∧ (if s.sec.lifeCycle = 2 then Scrubbed s t else t.seats = s.seats ∧ t.mem = s.mem))
  ∧ (∀ (e : Nat) (ok : Bool) (s : State), s.sec.openWait = none → s.sec.expiry = some e → s.sec.session = true → s.sec.preparing = false → (s.sec.level = 2 → s.keysAllowed = true → ok = true) →
    ∃ t, exec (.grantExpiry ok) s = .next t ∧ t.sec.session = false ∧ t.sec.level = baseLevel s.sec.lifeCycle ∧ t.sec.expiry = none ∧ e ≤ t.now ∧ t.seats = s.seats ∧ t.mem = s.mem)
  ∧ (∀ (w : Nat × Nat) (ok : Bool) (s : State), s.sec.openWait = some w → s.sec.preparing = false → s.sec.level ≠ 2 →
    ∃ t, exec (.grantExpiry ok) s = .next t ∧ t.sec.openWait = none ∧ w.2 ≤ t.now ∧ (s.sec.session = true → t.sec.level = baseLevel s.sec.lifeCycle ∧ t.sec.session = false) ∧ t.seats = s.seats ∧ t.mem = s.mem)

/-- R471, R489, R490, R533: at a boundary the command that waits takes the device to its new state with the level that state starts at and any session ended; PROVISION, UNDEPLOY and RETURN leave seats, HBM and stores empty, RETURN no key, image or wrapped key; before the boundary nothing happens. -/
def Obligations.LifeCycleMoves : Prop :=
  ∀ (s : State),
    (s.commandDue 1 = true → ∃ t, exec .provision s = .next t ∧ t.sec.lifeCycle = 1 ∧ t.nv.lifeCycle = 1 ∧ t.sec.level = 0 ∧ t.sec.session = false ∧ t.sec.command = none ∧ t.sec.spdm = []
      ∧ Scrubbed s t ∧ t.nv.fuse = s.nv.fuse)
    ∧ (s.commandDue 2 = true → ∃ t, exec .deploy s = .next t ∧ t.sec.lifeCycle = 2 ∧ t.nv.lifeCycle = 2 ∧ t.sec.level = 0 ∧ t.sec.session = false ∧ t.sec.command = none ∧ t.sec.spdm = []
      ∧ t.seats = s.seats ∧ t.mem = s.mem ∧ t.nv.images = s.nv.images ∧ t.nv.fuse = s.nv.fuse ∧ (s.sec.lifeCycle = 1 → t.start.auths = 0))
    ∧ (s.commandDue 3 = true → ∃ t, exec .undeploy s = .next t ∧ t.sec.lifeCycle = 1 ∧ t.nv.lifeCycle = 1 ∧ t.sec.level = 0 ∧ t.sec.session = false ∧ t.sec.command = none ∧ t.sec.spdm = []
      ∧ Scrubbed s t ∧ t.nv.fuse = s.nv.fuse)
    ∧ (s.commandDue 4 = true → ∃ t, exec .returnCmd s = .next t ∧ t.sec.lifeCycle = 3 ∧ t.nv.lifeCycle = 3 ∧ t.nv.fuse = 3 ∧ t.sec.level = 1 ∧ t.sec.session = false ∧ t.sec.command = none ∧ t.sec.spdm = []
      ∧ Scrubbed s t ∧ t.vault.keys = [] ∧ t.nv.wrapped = [] ∧ t.nv.images = [])
    ∧ (s.commandDue 1 = false → exec .provision s = .next s) ∧ (s.commandDue 2 = false → exec .deploy s = .next s)
    ∧ (s.commandDue 3 = false → exec .undeploy s = .next s) ∧ (s.commandDue 4 = false → exec .returnCmd s = .next s)

/-- R501 to R504: the SPDM responder takes GET_VERSION, GET_CAPABILITIES and NEGOTIATE_ALGORITHMS in that order and answers the rest after them; a session is established by KEY_EXCHANGE and FINISH, four at most, and ended by END_SESSION; the measurements are those of OD 0x1400.08; IDE streams are keyed in a session, and a failed integrity check makes one insecure. -/
def Obligations.SpdmAnswers : Prop :=
  ∀ (s : State), s.spdmUp = true →
    exec .getVersion s = .next { s with sec := { s.sec with spdmPhase := 1, response := [(0x04, [0x13])] } }
    ∧ (s.sec.spdmPhase = 1 → exec .getCapabilities s = .next { s with fresh := s.fresh + 1, sec := { s.sec with spdmPhase := 2, response := [(0x61, Config.message 0x61 s.fresh)] } })
    ∧ (s.sec.spdmPhase = 2 → exec (.negotiateAlgorithms 0x80 2 0x10 2) s = .next { s with sec := { s.sec with spdmPhase := 3, response := [(0x63, [0x80, 0, 0, 0, 2, 0, 0, 0, 0x10, 0, 2, 0])] } })
    ∧ (s.sec.spdmPhase < 3 → ∀ n b, exec (.challenge n b) s = .next (s.respond 0x7F [4]) ∧ exec .getDigests s = .next (s.respond 0x7F [4]) ∧ exec (.keyExchange n) s = .next (s.respond 0x7F [4]))
    ∧ (3 ≤ s.sec.spdmPhase →
      exec .getDigests s = .next (s.respond 0x01 (1 :: digestBytes (Config.sha384 Config.certChain)))
      ∧ (∀ o l, o ≤ Config.certChain.length → exec (.getCertificate 0 o l) s = .next (s.respond 0x02 ((Config.certChain.drop o).take l)))
      ∧ (∀ b, exec (.challenge 0 b) s = .next { s with fresh := s.fresh + 1, sec := { s.sec with response := [(0x03, Config.message 0x03 s.fresh)] } })
      ∧ exec (.getMeasurements 0) s = .next (s.respond 0x60 [5])
      ∧ (∀ k, 1 ≤ k → k ≤ 4 → exec (.getMeasurements k) s = .next (s.respond 0x60 (s.measure k)))
      ∧ exec (.getMeasurements 5) s = .next (s.respond 0x60 (toLe (s.sec.lifeCycle + 256 * s.sec.level) 4))
      ∧ (s.sec.spdm.length < 4 → exec (.keyExchange 0) s = .next { s with
          fresh := s.fresh + 1, sec := { s.sec with spdm := s.sec.spdm ++ [{ id := s.sec.nextSpdm, state := 1 }], nextSpdm := s.sec.nextSpdm + 1, response := [(0x64, Config.message 0x64 s.fresh)] } })
      ∧ (4 ≤ s.sec.spdm.length → exec (.keyExchange 0) s = .next (s.respond 0x7F [0x0A])))
    ∧ (∀ n x, s.spdmSession n = some x →
      (x.state = 1 → exec (.finish n true) s = .next { s with
          fresh := s.fresh + 1, sec := { s.sec with spdm := s.sec.spdm.map (fun y => if y.id = n then { y with state := 2 } else y), response := [(0x65, Config.message 0x65 s.fresh)] } })
      ∧ (x.state = 1 → exec (.finish n false) s = .next { s with sec := { s.sec with spdm := s.sec.spdm.filter (fun y => decide (y.id ≠ n)), response := [(0x7F, [6])] } })
      ∧ (x.state = 2 →
        exec (.keyUpdate n) s = .next { s with fresh := s.fresh + 1, sec := { s.sec with response := [(0x69, Config.message 0x69 s.fresh)] } }
        ∧ exec (.heartbeat n) s = .next (s.respond 0x68 [])
        ∧ exec (.endSession n) s = .next { s with sec := { s.sec with spdm := s.sec.spdm.filter (fun y => decide (y.id ≠ n)), response := [(0x6C, [])] } }
        ∧ (∀ k, k ≤ 4 → exec (.ideKmRequest n k false) s = .next { s with
            fresh := s.fresh + 1, sec := { s.sec with ideStreams := sins k s.sec.ideStreams, ideBad := sdel k s.sec.ideBad, ide := max s.sec.ide 1, response := [(0x7E, Config.message 0x7E s.fresh)] } })
        ∧ (∀ k, k ≤ 4 → s.sec.ideStreams.contains k = true → exec (.ideKmRequest n k true) s = .next { s with
            fresh := s.fresh + 1, sec := { s.sec with ideStreams := sins k s.sec.ideStreams, ide := 2, response := [(0x7E, Config.message 0x7E s.fresh)] } })))
    ∧ (∀ n, s.spdmSession n = none → exec (.heartbeat n) s = .next (s.respond 0x7F [2]))
    ∧ (∀ k, s.sec.ideStreams.contains k = true → exec (.ideIntegrityFail k) s = .next (State.security { s with sec := { s.sec with ideBad := sins k s.sec.ideBad } } 0xAA 0 0 0 0))
    ∧ (∀ k, s.sec.ideStreams.contains k = false → exec (.ideIntegrityFail k) s = .next s)

/-! ## Start, update, reset -/

/-- R509, R512 to R517, R520 to R522, R527, R568, R580: release with good rails and a sound boot record starts the Brim of the active slot, a first trial marked as tried, one already tried giving way; a Crown that does not verify makes the device Lamed, no Brim that does the rescue; the Brim takes the ring, its units come up, and Run-ready follows when all stand. -/
def Obligations.DevicesStart : Prop :=
  (∀ (st : Straps) (ck : BootChecks) (s : State), s.start.up = false → s.start.railFault = false →
    (st.railsOk = false → exec (.resetRelease st ck) s = .next { s with
      board := { s.board with bankerEn := st.bankerEn, hbAddr := st.hbAddr % 32 }, start := { s.start with railFault := true } })
    ∧ (∀ b, st.railsOk = true → s.nv.fuse ≠ 4 → s.bootRec = some b → b.crownCopy = false → b.pend = 0 →
      (ck.crownOk = false → ∃ t, exec (.resetRelease st ck) s = .next t ∧ t.nv.fuse = 4 ∧ t.sec.lifeCycle = 4 ∧ t.start.up = true ∧ t.start.stage = s.start.stage)
      ∧ (ck.crownOk = true → (if b.activeB then ck.slotBOk else ck.slotAOk) = true → b.slot b.activeB = 1 →
        ∃ t, exec (.resetRelease st ck) s = .next t ∧ t.start.up = true ∧ t.start.runB = b.activeB ∧ t.start.trial = false ∧ t.start.stage = s.start.stage ∧ t.board.hbAlive = true
          ∧ t.board.bankerEn = st.bankerEn ∧ t.board.hbAddr = st.hbAddr % 32 ∧ t.hb.addr = (if b.ringValid then b.ringAddr else st.hbAddr % 32)
          ∧ t.nv.slotA = s.nv.slotA ∧ t.nv.slotB = s.nv.slotB ∧ t.nv.crown = s.nv.crown ∧ t.nv.fuse = s.nv.fuse)
      ∧ (ck.crownOk = true → (if b.activeB then ck.slotBOk else ck.slotAOk) = true → b.slot b.activeB = 2 → b.tried = false →
        ∃ t, exec (.resetRelease st ck) s = .next t ∧ t.start.up = true ∧ t.start.runB = b.activeB ∧ t.start.trial = true ∧ t.boot.tried = true)
      ∧ (ck.crownOk = true → (if b.activeB then ck.slotAOk else ck.slotBOk) = true → b.slot b.activeB = 2 → b.slot (!b.activeB) = 1 → b.tried = true →
        ∃ t, exec (.resetRelease st ck) s = .next t ∧ t.start.up = true ∧ t.start.runB = !b.activeB ∧ t.start.trial = false ∧ t.boot.last = 0xB5 ∧ t.boot.slot b.activeB = 3)
      ∧ (ck.crownOk = true → ck.slotAOk = false → ck.slotBOk = false → b.tried = false →
        ∃ t, exec (.resetRelease st ck) s = .next t ∧ t.start.up = true ∧ t.start.stage = 4)))
  ∧ (∀ (nv : NvChecks) (s : State), s.start.up = true → s.start.stage = 0 → s.start.factoryBad = false → s.sec.lifeCycle ≠ 4 →
    (nv.factoryOk = true → ∃ t, exec (.hatbandReady nv) s = .next t ∧ t.start.stage = 1 ∧ t.start.readyPs = s.now ∧ t.nv.field = (fieldAtStart nv s.nv).getD {}
      ∧ t.sec.lifeCycle = (if s.nv.fuse = 3 then 3 else if nv.lifeOk then s.nv.lifeCycle else 2) ∧ t.nv.scrubOwed = false ∧ t.seats = s.seats)
    ∧ (nv.factoryOk = false → s.start.trial = false → exec (.hatbandReady nv) s = .next { s with start := { s.start with factoryBad := true } }))
  ∧ (∀ (s : State), s.starting = true →
    (s.start.hbm = false → exec (.hbmTrained true) s = .next { s with start := { s.start with hbm := true } })
    ∧ (s.start.hbm = false → s.start.trial = false → s.start.stage = 1 → ∃ t, exec (.hbmTrained false) s = .next t ∧ t.start.stage = 3 ∧ t.start.heldCause = 1 ∧ t.start.hbm = false)
    ∧ (s.start.vault = false → ∃ t, exec (.vaultMounted true) s = .next t ∧ t.start.vault = true ∧ t.nv.images = s.nv.images.filter (fun i => decide (i.2.state ≠ 1)) ∧ t.start.hbm = s.start.hbm ∧ t.nv.blocks = s.nv.blocks)
    ∧ (s.start.vault = false → s.start.trial = false → s.start.stage = 1 → ∃ t, exec (.vaultMounted false) s = .next t ∧ t.start.stage = 3 ∧ t.start.heldCause = 2))
  ∧ (∀ (s : State), s.start.stage = 1 → s.start.bist = true → s.start.hbm = true → s.start.vault = true → s.boundMissed = false →
    ∃ t, exec .runReady s = .next t ∧ t.start.stage = 2 ∧ t.start.outcome = s.boot.last ∧ t.boot.last = 0 ∧ t.seats = s.seats ∧ t.forms = s.forms ∧ t.mem = s.mem
      ∧ (∀ k, k < 8 → (s.deckLink k).st ≠ 3 → (t.deckLink k).st = 1))
  ∧ (∀ (s : State), s.start.bist = false ∨ s.start.hbm = false ∨ s.start.vault = false → exec .runReady s = .next s)
  ∧ (∀ (s : State), s.start.stage = 1 → s.start.bist = true → s.start.hbm = true → s.start.vault = true → s.start.trial = true → s.start.boundPs < s.now →
    ∃ t, exec .runReady s = .next t ∧ t.start.up = false ∧ t.start.reason = 3 ∧ t.nv.bootA = s.nv.bootA)
  ∧ (∀ (sig orphan : Bool) (s : State), s.nv.stagingState = 2 →
    ∃ t, exec (.checkComplete sig orphan) s = .next t ∧ t.nv.staging = s.nv.staging ∧ t.nv.slotA = s.nv.slotA ∧ t.nv.slotB = s.nv.slotB ∧ t.nv.crown = s.nv.crown ∧ t.seats = s.seats
      ∧ (if s.stageRefusal sig orphan = 0 then
          (if byteAt s.stagedHeader 6 = 2 then t.nv.stagingState = 4 ∧ t.boot.pend = s.boot.pend else t.nv.stagingState = 3 ∧ t.boot.pend = 1)
        else t.nv.stagingState = 5 ∧ t.start.refusal = s.stageRefusal sig orphan ∧ t.boot = s.boot))
  ∧ (∀ (s : State), s.start.trial = true → s.start.stage = 2 →
    (100 ≤ s.confirmDeals → ∃ t, exec .brimConfirm s = .next t ∧ t.start.trial = false ∧ t.boot.slot s.start.runB = 1 ∧ t.boot.tried = false
      ∧ t.boot.brimFloor = max s.boot.brimFloor (svn s.brim.header) ∧ 30000000000000 ≤ t.now ∧ t.seats = s.seats ∧ t.dealer = s.dealer)
    ∧ (s.confirmDeals < 100 → exec .brimConfirm s = .next s))

/-- R498, R520, R531, R539, R540, R566, R567: a reset of the device leaves the hub store, the factory records and the commands that wait, and everything else as State.reset has it, with its reason; R445: a user layer stored whole stands in both copies after a reset; a low pulse under 10 µs does nothing; FLR empties the rings and registers of its function and stops its queues, and no other function's registers change. -/
def Obligations.ResetsKeepTheHubStore : Prop :=
  (∀ (s : State), s.dict.storing = none →
    let fresh := fun (reason : Nat) => ({ State.reset with pending := s.pending, fresh := s.fresh + 1, factory := s.factory, nv := s.nv, start := { reason } } : State)
    (∀ us, 10 ≤ us → exec (.resetNPulse us) s = .next (fresh 1))
    ∧ exec .pwrGoodFall s = .next (fresh 0) ∧ exec .pcieReset s = .next (fresh 2)
    ∧ (s.start.up = true → exec .watchdogExpiry s = .next (fresh 3)) ∧ (s.start.up = false → exec .watchdogExpiry s = .next s))
  ∧ (∀ (c : UserCopy) (s : State), s.dict.storing = some c →
    ∃ t u, exec (.storeComplete true true) s = .next t ∧ t.dict.storing = none ∧ t.dict.storeState = 2 ∧ t.nv.userA = some c ∧ t.nv.userB = some c ∧ t.seats = s.seats ∧ t.mem = s.mem
      ∧ exec .pcieReset t = .next u ∧ u.nv = t.nv ∧ u.dict.storing = none)
  ∧ (∀ (us : Nat) (s : State), us < 10 → exec (.resetNPulse us) s = .next s)
  ∧ (∀ (f : Nat) (s : State), s.queuesOf f = [] →
    (f ≠ 0 → exec (.flr f) s = .next (s.setFn f { epoch := (s.fn f).epoch + 1 }))
    ∧ (f = 0 → ∃ t, exec (.flr 0) s = .next t ∧ t.fn 0 = { epoch := (s.fn 0).epoch + 1 } ∧ (∀ g, g ≠ 0 → t.fn g = s.fn g) ∧ t.host.sheetStat = []
        ∧ (∀ x ∈ t.dealer.sheets, x.mute = true) ∧ t.dealer.sheets.map (fun x => x.tag) = s.dealer.sheets.map (fun x => x.tag) ∧ t.seats = s.seats ∧ t.mem = s.mem ∧ t.cad = s.cad))
  ∧ (∀ (f q : Nat) (s : State), s.queuesOf f = [q] → (s.queue q).stopped = false →
    ∃ t, exec (.flr f) s = .next t ∧ (t.queue q).stopped = true ∧ (t.queue q).status = 0x09 ∧ t.fn f = { epoch := (s.fn f).epoch + 1 } ∧ t.seats = s.seats ∧ t.mem = s.mem)

/-! ## The host's registers and rings -/

/-- R2, R541 to R544, R551 to R553, R557: EV_HEAD and CPL_HEAD move on and let one held record in; each register takes what Table 19.3 gives it, an offset no table names nothing; a doorbell past the ring's room, or before Run-ready, only sets its error bit; a due vector is raised once, no sooner than 2 µs after its last. -/
def Obligations.HostRegistersAndHeads : Prop :=
  (∀ (f h : Nat) (s : State), h < 2048 → ringCount 2048 h (s.fn f).evHead ≤ ringCount 2048 (s.fn f).evTail (s.fn f).evHead → (s.fn f).lostRun = 0 →
    ((s.fn f).evHeld = [] → exec (.evHead f h) s = .next (s.setFn f { s.fn f with evHead := h }))
    ∧ (∀ e, (s.fn f).evHeld = [e] → ringCount 2048 (s.fn f).evTail h < 2047 →
      ∃ t, exec (.evHead f h) s = .next t ∧ (t.fn f).evHead = h ∧ (t.fn f).evHeld = [] ∧ aget (s.fn f).evTail (t.fn f).evRing = some e ∧ (t.fn f).evTail = ((s.fn f).evTail + 1) % 2048
        ∧ 0 ∈ (t.fn f).msixDue ∧ (∀ g, g ≠ f → t.fn g = s.fn g) ∧ t.seats = s.seats ∧ t.mem = s.mem ∧ t.dealer = s.dealer))
  ∧ (∀ (f h : Nat) (s : State), h < 1024 → ringCount 1024 h (s.fn f).cplHead ≤ ringCount 1024 (s.fn f).cplTail (s.fn f).cplHead →
    ((s.fn f).cplHeld = [] → exec (.cplHead f h) s = .next (s.setFn f { s.fn f with cplHead := h }))
    ∧ (∀ r, (s.fn f).cplHeld = [(r, false)] → ringCount 1024 (s.fn f).cplTail h < 1023 →
      ∃ t, exec (.cplHead f h) s = .next t ∧ (t.fn f).cplHead = h ∧ (t.fn f).cplHeld = [] ∧ aget (s.fn f).cplTail (t.fn f).cplRing = some (r, (s.fn f).cplPhase)
        ∧ (t.fn f).cplTail = ((s.fn f).cplTail + 1) % 1024 ∧ (∀ g, g ≠ f → t.fn g = s.fn g) ∧ t.seats = s.seats ∧ t.mem = s.mem ∧ t.dealer = s.dealer))
  ∧ (∀ (f : Nat) (v : Word64) (s : State),
    exec (.registerWrite f 0x028 v) s = .next (s.setFn f { s.fn f with err := (s.fn f).err &&& ~~~(v.setWidth 4) })
    ∧ exec (.registerWrite f 0x030 v) s = .next (s.setFn f { s.fn f with apAcct := v.toNat % 4096, apValid := bit v.toNat 15 })
    ∧ (∀ o, 0x8000 ≤ o → o < 0x8000 + 16 * msixSize f → o % 8 = 0 →
      exec (.registerWrite f o v) s = .next (s.setFn f { s.fn f with msixTable := aset ((o - 0x8000) / 8) v (s.fn f).msixTable }))
    ∧ (∀ q, q < 64 → s.seesQueue f q = true → exec (.registerWrite f (0x180024 + 64 * q) v) s = .next (s.setQueue q { s.queue q with vec := v.toNat % 2 ^ 32 }))
    ∧ (∀ k x, k < 256 → aget k s.video.sessions = some x → s.acts f x.account = true →
      exec (.registerWrite f (0x200004 + 64 * k) v) s = .next { s with video := { s.video with sessions := aset k { x with vec := v.toNat % 2 ^ 32 } s.video.sessions } })
    ∧ exec (.registerWrite f 0x020 v) s = .next s
    ∧ (s.start.stage = 2 → v.toNat < 64 → ringCount 64 (s.fn f).cmdTail (s.fn f).cmdHead + ringCount 64 v.toNat (s.fn f).cmdTail ≤ 63 →
      exec (.registerWrite f 0x1000 v) s = .next (s.setFn f { s.fn f with cmdTail := v.toNat }))
    ∧ (s.start.stage = 2 → 64 ≤ v.toNat → v.toNat < 2 ^ 32 → exec (.registerWrite f 0x1000 v) s = .next (s.setFn f { s.fn f with err := (s.fn f).err ||| 1 }))
    ∧ (s.start.stage ≠ 2 → exec (.registerWrite f 0x1000 v) s = .next (s.setFn f { s.fn f with err := (s.fn f).err ||| 8 })))
  ∧ (∀ (f n : Nat) (s : State),
    ((s.fn f).msixDue.contains n = true →
      let at' := match aget n (s.fn f).msixLast with | some p => max s.now (p + 2000000) | none => s.now
      exec (.msiXRaise f n) s = .next (State.setFn { s with now := at' } f { s.fn f with
        msixDue := sdel n (s.fn f).msixDue, msixLast := aset n at' (s.fn f).msixLast, msixRaised := (s.fn f).msixRaised + 1 }))
    ∧ ((s.fn f).msixDue.contains n = false → exec (.msiXRaise f n) s = .next s))

/-! ## The whole machine -/

/-- Where the spec gives a value for reset, State.reset holds it: UNLOCKED, no position, no seat or form in use, nothing logged or posted, the start not begun, the defaults of the user-overridable entries (Tables 2.7, 12.8, 13.9, 14.11, 16.5), and HBM in its canonical form. -/
def Obligations.ResetValues : Prop :=
  State.reset.cad.st = .unlocked ∧ State.reset.curDeal = 0 ∧ State.reset.seats = [] ∧ State.reset.forms = [] ∧ State.reset.log.ring = [] ∧ State.reset.log.seq = 0
    ∧ State.reset.start.stage = 0 ∧ State.reset.pending = [] ∧ State.reset.cad.trim = 0
    ∧ State.reset.setting 0x1300 0x20 = 0x42BE0000 ∧ State.reset.setting 0x1300 0x21 = 0x42B40000 ∧ State.reset.setting 0x1300 0x22 = 1650 ∧ State.reset.setting 0x1300 0x23 = 4
    ∧ State.reset.setting 0x1300 0x24 = 100 ∧ State.reset.setting 0x2000 0x13 = 65536 ∧ State.reset.setting 0x2500 0x01 = 0 ∧ State.reset.setting 0x2500 0x02 = 1
    ∧ State.reset.setting 0x2500 0x06 = 0xFF ∧ State.reset.setting 0x2500 0x07 = 131072 ∧ State.reset.setting 0x2500 0x08 = 40
    ∧ State.reset.mem.wf = true

/-- R132, R134, Tables 5.4 to 5.12: the words of Cases 1 and 2 of chapter 5 decode to the MMA with its batch loop and to the REPEAT that the cases spell; an opcode no table gives, a rsvd bit and a missing extension word are refused each by its reason. -/
def Obligations.SvisWordsDecode : Prop :=
  decodeSvis false 0x00805DC02C7108009004021040CC8000#128 (some 0x41020020100100000000040000000000#128)
      = .ok ({ issue := 768005, pe := 1, post := 3, we := 1, wait := 2, need := 1, abase := 0 },
          .mma { aAddr := 0, bSpace := 1, bAddr := 512, cAddr := 64, mt := 4, nt := 4, kt := 16, fmtA := 3, fmtB := 3, order := 0, acc := 1, mode := 0, mparam := 0 }
            (.batch { count := 4, sa := 16, sb := 16, sc := 16 } { count := 1, sa := 0, sb := 0, sc := 0 } { count := 1, sa := 0, sb := 0, sc := 0 }))
  ∧ decodeSvis false 0xA10007D00000000040000800001A0010#128 none
      = .ok ({ issue := 64000, pe := 0, post := 0, we := 0, wait := 0, need := 0, abase := 0 }, .repeatF { count := 8, period := 4096, body := 3, stepreg := 4, step := 16 })
  ∧ decodeSvis false 0x18000000000000000000000000000000#128 none = .error .opcode
  ∧ decodeSvis false 0xA0000000000000000000000000000001#128 none = .error .reserved
  ∧ decodeSvis false 0x00800000000000000000000000000000#128 none = .error .extension

/-- R132 to R134: every instruction the Blocker admits, in either mode, with every operand at every value its fields hold, is read back from its own word and extension word, whatever word follows it. -/
def Obligations.SvisDecodeOfEncode : Prop :=
  ∀ (region : Bool) (b : Base) (op : SvisOp) (next : Option (BitVec 128)), svisLegal region b op = true →
    decodeSvis region (encodeSvis b op).1 ((encodeSvis b op).2.or next) = .ok (b, op)

/-- Every step keeps HBM in its canonical form, from every state that has it, and so equal memories are equal lists; it holds at reset (ResetValues). -/
def Obligations.StepKeepsMemoryCanonical : Prop :=
  ∀ (s t : State), s.mem.wf = true → step s = .next t → t.mem.wf = true
end

