-- ==== Sys2Proof/Laws/Dict.lean ====
section
/-!
SUPPORT. Laws/Dict.lean: what a dictionary write does, said once: turned away by the gate, or its value's effect.
-/
namespace Sys2Proof.Machine

/-- A whole value that the gate lets in and that the entry has room for reaches the entry's own effect. -/
theorem State.wholeWrite_fits (s : State) (p : Path) (i j : Nat) (b : Bytes) (ok : Bool) (e : OdEntry) (hg : s.gate p i j true = 0) (he : odEntry i j = some e)
    (hf : if typeWidth e.type = 0 then b.length ≤ e.max else b.length = typeWidth e.type) :
    s.wholeWrite p i j b ok = s.dictWrite (s.securedPath p) ok i j b := by
  unfold State.wholeWrite
  simp only [hg, he]
  split at hf
  · next h => simp [h, Nat.not_lt.mpr hf, State.wholeValue]
  · next h => simp [h, State.wholeValue, hf]

/-- A write the gate turns away leaves the state alone and answers the gate's status. -/
theorem State.wholeWrite_gate (s : State) (p : Path) (i j : Nat) (b : Bytes) (ok : Bool) (hg : s.gate p i j true ≠ 0) :
    s.wholeWrite p i j b ok = (s.gate p i j true, 0, s) := by
  unfold State.wholeWrite
  split
  · next h _ => exact absurd h hg
  · rfl

theorem State.written_gate (s : State) (p : Path) (i j : Nat) (b : Bytes) (hg : s.gate p i j true ≠ 0) :
    s.written p i j b = .next (s.wroteNot (s.gate p i j true)) := by
  simp [State.written, State.wholeWrite_gate _ _ _ _ _ _ hg, answerWrite, State.wroteNot]

/-- The bytes of a small number are as many as asked for. -/
@[simp] theorem toLe_length (v n : Nat) : (toLe v n).length = n := by
  induction n generalizing v with
  | zero => rfl
  | succ n ih => simp [toLe, ih]

/-- A number that fits is read back from its bytes. -/
theorem leAll_toLe (v n : Nat) (h : v < 256 ^ n) : leAll (toLe v n) = v := by
  induction n generalizing v with
  | zero => simp at h; subst h; rfl
  | succ n ih =>
    have h2 : v / 256 < 256 ^ n := by rw [Nat.div_lt_iff_lt_mul (by decide)]; rwa [Nat.pow_succ] at h
    simp [toLe, leAll, ih _ h2]
    omega

end Sys2Proof.Machine
end

