-- ==== Sys2Proof/Laws/Keyed.lean ====
section
/-!
SUPPORT. Laws/Keyed.lean: keyed lists: what is put reads back, other keys are kept, and the last of two puts stands.
-/
namespace Sys2Proof.Machine

@[simp] theorem aget_aset_same {α : Type} (k : Nat) (v : α) (l : List (Nat × α)) : aget k (aset k v l) = some v := by
  induction l with
  | nil => simp [aset, aget]
  | cons p t ih =>
    obtain ⟨j, w⟩ := p
    by_cases hj : j = k
    · simp [aset, aget, hj]
    · by_cases hk : k < j
      · simp [aset, aget, hj, hk]
      · simp [aset, aget, hj, hk, ih]

theorem aget_aset_other {α : Type} (j k : Nat) (v : α) (l : List (Nat × α)) (h : j ≠ k) : aget j (aset k v l) = aget j l := by
  induction l with
  | nil => simp [aset, aget, Ne.symm h]
  | cons p t ih =>
    obtain ⟨i, w⟩ := p
    by_cases hi : i = k
    · subst hi; simp [aset, aget, Ne.symm h]
    · by_cases hk : k < i
      · simp [aset, aget, hi, hk, Ne.symm h]
      · simp [aset, aget, hi, hk, ih]

theorem aget_adel_same {α : Type} (k : Nat) (l : List (Nat × α)) : aget k (adel k l) = none := by
  induction l with
  | nil => rfl
  | cons x t ih =>
    by_cases h : x.1 = k
    · simpa [adel, h] using ih
    · simp only [adel, List.filter_cons, ne_eq, h, not_false_eq_true, decide_true, if_true, aget, if_false]; exact ih

theorem aget_adel_other {α : Type} (j k : Nat) (l : List (Nat × α)) (h : j ≠ k) : aget j (adel k l) = aget j l := by
  induction l with
  | nil => rfl
  | cons x t ih =>
    by_cases hx : x.1 = k
    · have : x.1 ≠ j := by omega
      simp only [adel, List.filter_cons, hx, ne_eq, not_true_eq_false, decide_false, Bool.false_eq_true, if_false, aget, if_neg (show ¬ k = j by omega)]; exact ih
    · simp only [adel, List.filter_cons, ne_eq, hx, not_false_eq_true, decide_true, if_true, aget]
      split
      · rfl
      · exact ih

@[simp] theorem aset_aset {α : Type} (k : Nat) (v w : α) (l : List (Nat × α)) : aset k v (aset k w l) = aset k v l := by
  induction l with
  | nil => simp [aset]
  | cons p t ih =>
    obtain ⟨j, u⟩ := p
    by_cases hj : j = k
    · simp [aset, hj]
    · by_cases hk : k < j
      · simp [aset, hj, hk]
      · simp [aset, hj, hk, ih]

/-! ## The functions of the host interface -/

@[simp] theorem State.fn_setFn_same (s : State) (f : Nat) (v : Fn) : (s.setFn f v).fn f = v := by simp [State.fn, State.setFn]

theorem State.fn_setFn_other (s : State) (f g : Nat) (v : Fn) (h : g ≠ f) : (s.setFn f v).fn g = s.fn g := by
  simp [State.fn, State.setFn, aget_aset_other g f v _ h]

@[simp] theorem State.setFn_setFn (s : State) (f : Nat) (v w : Fn) : (s.setFn f w).setFn f v = s.setFn f v := by simp [State.setFn]

/-! ## Seats and accounts -/

@[simp] theorem State.seat_setSeat_same (s : State) (i : Nat) (v : Seat) : (s.setSeat i v).seat i = v := by simp [State.seat, State.setSeat]

theorem State.seat_setSeat_other (s : State) (i j : Nat) (v : Seat) (h : j ≠ i) : (s.setSeat i v).seat j = s.seat j := by
  simp [State.seat, State.setSeat, aget_aset_other j i v _ h]

@[simp] theorem State.acct_setAcct_same (s : State) (i : Nat) (v : Acct) : (s.setAcct i v).acct i = v := by simp [State.acct, State.setAcct]

theorem State.acct_setAcct_other (s : State) (i j : Nat) (v : Acct) (h : j ≠ i) : (s.setAcct i v).acct j = s.acct j := by
  simp [State.acct, State.setAcct, aget_aset_other j i v _ h]

end Sys2Proof.Machine
end

