-- ==== Sys2Proof/Laws/Intake.lean ====
section
/-!
SUPPORT. Laws/Intake.lean: what taking a host command and completing it do, said once.
-/
namespace Sys2Proof.Machine

/-- An admitted command reaches its own effect with CMD_HEAD moved on. -/
theorem hostCommand_admitted (s : State) (op : Nat) (c : CmdSlot) (pf0 : Bool) (acct : Option Nat) (k : State → Ticket → State) (h : Admitted s c pf0 acct) :
    s.hostCommand op c pf0 acct k = k (s.cmdTaken c) (ticketOf s op c) := by
  have h1 : ¬ (s.devStage ≠ 2) := by simp [State.devStage, h.ready]
  have h3 : ¬ ((pf0 && decide (c.fn ≠ 0)) = true) := by
    cases pf0 with
    | false => simp
    | true => simp [h.own rfl]
  unfold State.hostCommand
  rw [if_neg h1]
  dsimp only
  rw [if_neg (by simp [h.clean]), if_neg h3, if_neg]
  · simp only [State.cmdTaken, ticketOf, State.fn_setFn_same]
  · cases acct with
    | none => simp
    | some a =>
      have := h.mine a rfl
      have h5 : (s.setFn c.fn { s.fn c.fn with cmdHead := (c.slot + 1) % 64 }).acts c.fn a = s.acts c.fn a := rfl
      simp [h5, this]

/-- A command turned away before its own checks: not Run-ready. -/
theorem hostCommand_early (s : State) (op : Nat) (c : CmdSlot) (pf0 : Bool) (acct : Option Nat) (k : State → Ticket → State) (h : s.start.stage ≠ 2) :
    s.hostCommand op c pf0 acct k = s.doorbellEarly c.fn := by
  unfold State.hostCommand; rw [if_pos]; exact h

/-- A rsvd field of the slot completes it BAD_COMMAND. -/
theorem hostCommand_rsvd (s : State) (op : Nat) (c : CmdSlot) (pf0 : Bool) (acct : Option Nat) (k : State → Ticket → State) (h : s.start.stage = 2) (hr : c.rsvd = true) :
    s.hostCommand op c pf0 acct k = s.cmdDone op c 0xE0 0 := by
  unfold State.hostCommand
  rw [if_neg (by simp [State.devStage, h])]
  simp [hr, State.complete, State.completeWith, State.owed, State.postCpl, State.cmdDone, cplOf]

/-- Completing the command just taken. -/
theorem completeWith_taken (s : State) (op : Nat) (c : CmdSlot) (status v0 : Nat) :
    (s.cmdTaken c).completeWith (ticketOf s op c) status v0 = s.cmdDone op c status v0 := by
  simp [State.completeWith, State.owed, State.postCpl, State.cmdDone, State.cmdTaken, ticketOf, cplOf]

theorem complete_taken (s : State) (op : Nat) (c : CmdSlot) (status : Nat) :
    (s.cmdTaken c).complete (ticketOf s op c) status = s.cmdDone op c status 0 := completeWith_taken s op c status 0

/-- Completing the command just taken after an effect that leaves the host interface alone. -/
theorem completeWith_after (s u : State) (op : Nat) (c : CmdSlot) (status v0 : Nat) (h : u.host = (s.cmdTaken c).host) :
    u.completeWith (ticketOf s op c) status v0 = State.cmdDone { u with host := s.host } op c status v0 := by
  have h2 : u = { (s.cmdTaken c) with
      pending := u.pending, now := u.now, fresh := u.fresh, cad := u.cad, dealer := u.dealer, seats := u.seats, accts := u.accts, forms := u.forms
      repair := u.repair, log := u.log, mem := u.mem, ldma := u.ldma, coh := u.coh, kitty := u.kitty, svis := u.svis, cascade := u.cascade, group := u.group, vault := u.vault
      video := u.video, sec := u.sec, power := u.power, dict := u.dict, hb := u.hb, factory := u.factory, board := u.board, start := u.start, nv := u.nv } := by
    cases u; cases h; rfl
  rw [h2]
  simp [State.completeWith, State.owed, State.postCpl, State.cmdDone, State.cmdTaken, ticketOf, cplOf, State.setFn, State.fn]

theorem complete_after (s u : State) (op : Nat) (c : CmdSlot) (status : Nat) (h : u.host = (s.cmdTaken c).host) :
    u.complete (ticketOf s op c) status = State.cmdDone { u with host := s.host } op c status 0 := completeWith_after s u op c status 0 h

/-- The ticket depends on the host interface alone. -/
theorem ticketOf_congr (s t : State) (op : Nat) (c : CmdSlot) (h : t.host = s.host) : ticketOf t op c = ticketOf s op c := by
  simp [ticketOf, State.fn, h]

end Sys2Proof.Machine
end

