-- ==== Sys2Proof/Laws/Memory.lean ====
section
/-!
SUPPORT. Laws/Memory.lean: byte stores in canonical form: reads after writes, other bytes kept, and the form kept by every write.
-/
namespace Sys2Proof.Machine

/-! ## Reads -/

/-- A byte below every key reads 0. -/
theorem cellGet_below (a l : Nat) (c : List Host.Cell) (h : cellsAbove (some l) c = true) (ha : a ≤ l) : cellGet a c = 0 := by
  cases c with
  | nil => rfl
  | cons p t =>
    obtain ⟨k, v⟩ := p
    simp only [cellsAbove, Bool.and_eq_true, decide_eq_true_eq] at h
    have h1 : k ≠ a := by omega
    have h2 : a < k := by omega
    simp [cellGet, h1, h2]

/-- A byte reads as it was last written. -/
theorem cellGet_cellSet_same (a : Nat) (v : Byte) (lo : Option Nat) (c : List Host.Cell) (h : cellsAbove lo c = true) :
    cellGet a (cellSet a v c) = v := by
  induction c generalizing lo with
  | nil => by_cases hv : v = 0#8 <;> simp [cellSet, cellGet, hv]
  | cons p t ih =>
    obtain ⟨k, w⟩ := p
    have ht : cellsAbove (some k) t = true := by
      simp only [cellsAbove, Bool.and_eq_true] at h; exact h.2
    by_cases hk : k = a
    · subst hk
      by_cases hv : v = 0#8
      · simp [cellSet, hv, cellGet_below k k t ht (Nat.le_refl k)]
      · simp [cellSet, hv, cellGet]
    · by_cases hl : a < k
      · by_cases hv : v = 0#8 <;> simp [cellSet, cellGet, hk, hl, hv]
      · simp [cellSet, cellGet, hk, hl, ih _ ht]

/-- A write changes no other byte. -/
theorem cellGet_cellSet_other (a b : Nat) (v : Byte) (lo : Option Nat) (c : List Host.Cell) (h : cellsAbove lo c = true) (hab : b ≠ a) :
    cellGet b (cellSet a v c) = cellGet b c := by
  induction c generalizing lo with
  | nil =>
    by_cases hv : v = 0#8
    · simp [cellSet, hv]
    · simp [cellSet, cellGet, hv, Ne.symm hab]
  | cons p t ih =>
    obtain ⟨k, w⟩ := p
    have ht : cellsAbove (some k) t = true := by
      simp only [cellsAbove, Bool.and_eq_true] at h; exact h.2
    by_cases hk : k = a
    · subst hk
      have hkb : k ≠ b := Ne.symm hab
      by_cases hv : v = 0#8
      · by_cases hb : b < k
        · simp [cellSet, cellGet, hv, hkb, hb, cellGet_below b k t ht (by omega)]
        · simp [cellSet, cellGet, hv, hkb, hb]
      · simp [cellSet, cellGet, hv, hkb]
    · by_cases hl : a < k
      · by_cases hv : v = 0#8
        · simp [cellSet, hk, hl, hv]
        · by_cases hb : b < a
          · have h1 : k ≠ b := by omega
            have h2 : b < k := by omega
            simp [cellSet, cellGet, hk, hl, hv, Ne.symm hab, hb, h1, h2]
          · simp [cellSet, cellGet, hk, hl, hv, Ne.symm hab, hb]
      · simp [cellSet, cellGet, hk, hl, ih _ ht]

/-! ## The canonical form -/

theorem cellsAbove_mono (l m : Nat) (c : List Host.Cell) (h : cellsAbove (some m) c = true) (hl : l ≤ m) : cellsAbove (some l) c = true := by
  cases c with
  | nil => rfl
  | cons p t =>
    obtain ⟨k, v⟩ := p
    simp only [cellsAbove, Bool.and_eq_true, decide_eq_true_eq] at h ⊢
    exact ⟨⟨by omega, h.1.2⟩, h.2⟩

/-- Keys above `lo`, as a bound on a number. -/
def aboveKey (lo : Option Nat) (a : Nat) : Prop := match lo with | none => True | some l => l < a

/-- One byte written above the bound keeps the form. -/
theorem cellSet_keeps (a : Nat) (v : Byte) (lo : Option Nat) (c : List Host.Cell) (h : cellsAbove lo c = true) (ha : aboveKey lo a) :
    cellsAbove lo (cellSet a v c) = true := by
  induction c generalizing lo with
  | nil =>
    by_cases hv : v = 0#8
    · simp [cellSet, hv, cellsAbove]
    · cases lo <;> simp_all [cellSet, cellsAbove, aboveKey]
  | cons p t ih =>
    obtain ⟨k, w⟩ := p
    have ht : cellsAbove (some k) t = true := by
      simp only [cellsAbove, Bool.and_eq_true] at h; exact h.2
    have hw : (w ≠ 0#8) := by
      simp only [cellsAbove, Bool.and_eq_true, decide_eq_true_eq] at h; exact h.1.2
    by_cases hk : k = a
    · subst hk
      by_cases hv : v = 0#8
      · simp only [cellSet, hv, if_true]
        cases lo with
        | none =>
          cases t with
          | nil => rfl
          | cons q u => simp_all [cellsAbove]
        | some l => exact cellsAbove_mono l k t ht (by simp only [aboveKey] at ha; omega)
      · cases lo <;> simp_all [cellSet, cellsAbove, aboveKey]
    · by_cases hl : a < k
      · by_cases hv : v = 0#8
        · simp only [cellSet, hk, hl, hv, if_true, if_false]; exact h
        · cases lo <;> simp_all [cellSet, cellsAbove, aboveKey]
      · have hak : k < a := by omega
        have := ih (some k) ht (by simpa [aboveKey] using hak)
        rw [cellSet, if_neg hk, if_neg hl]
        cases lo <;> simp_all [cellsAbove]

/-- A run of bytes written keeps the form. -/
theorem writeBytes_keeps (c : List Host.Cell) (a : Nat) (b : Bytes) (h : cellsAbove none c = true) : cellsAbove none (writeBytes c a b) = true := by
  induction b generalizing c a with
  | nil => exact h
  | cons x t ih => exact ih _ _ (cellSet_keeps a x none c h trivial)

/-- Bytes outside the run written are kept. -/
theorem cellGet_writeBytes_outside (c : List Host.Cell) (a n : Nat) (b : Bytes) (h : cellsAbove none c = true) (hn : n < a ∨ a + b.length ≤ n) :
    cellGet n (writeBytes c a b) = cellGet n c := by
  induction b generalizing c a with
  | nil => rfl
  | cons x t ih =>
    have hne : n ≠ a := by simp only [List.length_cons] at hn; omega
    rw [writeBytes, ih _ _ (cellSet_keeps a x none c h trivial) (by simp only [List.length_cons] at hn; omega)]
    exact cellGet_cellSet_other a n x none c h hne

/-- The bytes written read back. -/
theorem readBytes_writeBytes (c : List Host.Cell) (a : Nat) (b : Bytes) (h : cellsAbove none c = true) : readBytes (writeBytes c a b) a b.length = b := by
  induction b generalizing c a with
  | nil => rfl
  | cons x t ih =>
    have hc := cellSet_keeps a x none c h trivial
    have h0 : cellGet a (writeBytes (cellSet a x c) (a + 1) t) = x := by
      rw [cellGet_writeBytes_outside _ _ _ _ hc (by omega)]
      exact cellGet_cellSet_same a x none c h
    simp only [writeBytes, List.length_cons, readBytes, h0, ih _ _ hc]

/-! ## HBM -/

/-- A write to HBM keeps the canonical form. -/
theorem State.hbmWrite_wf (s : State) (pa : Nat) (b : Bytes) (h : s.mem.wf = true) : (s.hbmWrite pa b).mem.wf = true := writeBytes_keeps _ _ _ h

/-- Clearing poison leaves the bytes alone. -/
theorem State.clearPoison_wf (s : State) (pa : Nat) : (s.clearPoison pa).mem.wf = s.mem.wf := rfl

/-- A full-line write keeps the canonical form. -/
theorem State.writeLine_wf (s : State) (pa : Nat) (b : Bytes) (h : s.mem.wf = true) : (s.writeLine pa b).mem.wf = true := State.hbmWrite_wf _ _ _ h

/-- Bytes outside a write keep their value. -/
theorem State.hbmByte_hbmWrite_outside (s : State) (pa n : Nat) (b : Bytes) (h : s.mem.wf = true) (hn : n < pa ∨ pa + b.length ≤ n) :
    (s.hbmWrite pa b).hbmByte n = s.hbmByte n := cellGet_writeBytes_outside _ _ _ _ h hn

/-- A write reads back. -/
theorem State.hbmRead_hbmWrite (s : State) (pa : Nat) (b : Bytes) (h : s.mem.wf = true) : (s.hbmWrite pa b).hbmRead pa b.length = b :=
  readBytes_writeBytes _ _ _ h

/-- HBM as reset leaves it is canonical. -/
theorem State.reset_mem_wf : State.reset.mem.wf = true := rfl

end Sys2Proof.Machine
end

