-- ==== Sys2Proof/Laws/State.lean ====
section
/-!
SUPPORT. Laws/State.lean: what each shared update of the state leaves alone, one lemma an update (simp reads a conjunction as one rule a field), and what the shared operations do.
-/
namespace Sys2Proof.Machine

/-! ## Updates of one part -/

/-- Moving the clock moves nothing else. -/
@[simp] theorem State.advanceTo_frame (s : State) (t : Nat) :
    (s.advanceTo t).pending = s.pending ∧ (s.advanceTo t).fresh = s.fresh ∧ (s.advanceTo t).cad = s.cad ∧ (s.advanceTo t).dealer = s.dealer ∧ (s.advanceTo t).seats = s.seats
    ∧ (s.advanceTo t).accts = s.accts ∧ (s.advanceTo t).forms = s.forms ∧ (s.advanceTo t).repair = s.repair ∧ (s.advanceTo t).log = s.log ∧ (s.advanceTo t).host = s.host
    ∧ (s.advanceTo t).mem = s.mem ∧ (s.advanceTo t).ldma = s.ldma ∧ (s.advanceTo t).coh = s.coh ∧ (s.advanceTo t).kitty = s.kitty ∧ (s.advanceTo t).svis = s.svis ∧ (s.advanceTo t).cascade = s.cascade
    ∧ (s.advanceTo t).group = s.group ∧ (s.advanceTo t).vault = s.vault ∧ (s.advanceTo t).video = s.video ∧ (s.advanceTo t).sec = s.sec ∧ (s.advanceTo t).power = s.power
    ∧ (s.advanceTo t).dict = s.dict ∧ (s.advanceTo t).hb = s.hb ∧ (s.advanceTo t).factory = s.factory ∧ (s.advanceTo t).board = s.board ∧ (s.advanceTo t).start = s.start
    ∧ (s.advanceTo t).nv = s.nv := by
  and_intros <;> rfl

/-- Writing a function touches the host interface alone. -/
@[simp] theorem State.setFn_frame (s : State) (f : Nat) (v : Fn) :
    (s.setFn f v).pending = s.pending ∧ (s.setFn f v).now = s.now ∧ (s.setFn f v).fresh = s.fresh ∧ (s.setFn f v).cad = s.cad ∧ (s.setFn f v).dealer = s.dealer
    ∧ (s.setFn f v).seats = s.seats ∧ (s.setFn f v).accts = s.accts ∧ (s.setFn f v).forms = s.forms ∧ (s.setFn f v).repair = s.repair ∧ (s.setFn f v).log = s.log
    ∧ (s.setFn f v).mem = s.mem ∧ (s.setFn f v).ldma = s.ldma ∧ (s.setFn f v).coh = s.coh ∧ (s.setFn f v).kitty = s.kitty ∧ (s.setFn f v).svis = s.svis ∧ (s.setFn f v).cascade = s.cascade
    ∧ (s.setFn f v).group = s.group ∧ (s.setFn f v).vault = s.vault ∧ (s.setFn f v).video = s.video ∧ (s.setFn f v).sec = s.sec ∧ (s.setFn f v).power = s.power
    ∧ (s.setFn f v).dict = s.dict ∧ (s.setFn f v).hb = s.hb ∧ (s.setFn f v).factory = s.factory ∧ (s.setFn f v).board = s.board ∧ (s.setFn f v).start = s.start
    ∧ (s.setFn f v).nv = s.nv := by
  and_intros <;> rfl

@[simp] theorem State.setFn_binding (s : State) (f : Nat) (v : Fn) : (s.setFn f v).host.binding = s.host.binding := rfl

@[simp] theorem State.setSeat_frame (s : State) (i : Nat) (v : Seat) :
    (s.setSeat i v).pending = s.pending ∧ (s.setSeat i v).now = s.now ∧ (s.setSeat i v).fresh = s.fresh ∧ (s.setSeat i v).cad = s.cad ∧ (s.setSeat i v).dealer = s.dealer
    ∧ (s.setSeat i v).accts = s.accts ∧ (s.setSeat i v).forms = s.forms ∧ (s.setSeat i v).repair = s.repair ∧ (s.setSeat i v).log = s.log ∧ (s.setSeat i v).host = s.host
    ∧ (s.setSeat i v).mem = s.mem ∧ (s.setSeat i v).ldma = s.ldma ∧ (s.setSeat i v).coh = s.coh ∧ (s.setSeat i v).kitty = s.kitty ∧ (s.setSeat i v).svis = s.svis ∧ (s.setSeat i v).cascade = s.cascade
    ∧ (s.setSeat i v).group = s.group ∧ (s.setSeat i v).vault = s.vault ∧ (s.setSeat i v).video = s.video ∧ (s.setSeat i v).sec = s.sec ∧ (s.setSeat i v).power = s.power
    ∧ (s.setSeat i v).dict = s.dict ∧ (s.setSeat i v).hb = s.hb ∧ (s.setSeat i v).factory = s.factory ∧ (s.setSeat i v).board = s.board ∧ (s.setSeat i v).start = s.start
    ∧ (s.setSeat i v).nv = s.nv := by
  and_intros <;> rfl

@[simp] theorem State.setAcct_frame (s : State) (a : Nat) (v : Acct) :
    (s.setAcct a v).pending = s.pending ∧ (s.setAcct a v).now = s.now ∧ (s.setAcct a v).fresh = s.fresh ∧ (s.setAcct a v).cad = s.cad ∧ (s.setAcct a v).dealer = s.dealer
    ∧ (s.setAcct a v).seats = s.seats ∧ (s.setAcct a v).forms = s.forms ∧ (s.setAcct a v).repair = s.repair ∧ (s.setAcct a v).log = s.log ∧ (s.setAcct a v).host = s.host
    ∧ (s.setAcct a v).mem = s.mem ∧ (s.setAcct a v).ldma = s.ldma ∧ (s.setAcct a v).coh = s.coh ∧ (s.setAcct a v).kitty = s.kitty ∧ (s.setAcct a v).svis = s.svis ∧ (s.setAcct a v).cascade = s.cascade
    ∧ (s.setAcct a v).group = s.group ∧ (s.setAcct a v).vault = s.vault ∧ (s.setAcct a v).video = s.video ∧ (s.setAcct a v).sec = s.sec ∧ (s.setAcct a v).power = s.power
    ∧ (s.setAcct a v).dict = s.dict ∧ (s.setAcct a v).hb = s.hb ∧ (s.setAcct a v).factory = s.factory ∧ (s.setAcct a v).board = s.board ∧ (s.setAcct a v).start = s.start
    ∧ (s.setAcct a v).nv = s.nv := by
  and_intros <;> rfl

@[simp] theorem State.setQueue_frame (s : State) (q : Nat) (v : LdmaQueue) :
    (s.setQueue q v).pending = s.pending ∧ (s.setQueue q v).now = s.now ∧ (s.setQueue q v).fresh = s.fresh ∧ (s.setQueue q v).cad = s.cad ∧ (s.setQueue q v).dealer = s.dealer
    ∧ (s.setQueue q v).seats = s.seats ∧ (s.setQueue q v).accts = s.accts ∧ (s.setQueue q v).forms = s.forms ∧ (s.setQueue q v).repair = s.repair ∧ (s.setQueue q v).log = s.log
    ∧ (s.setQueue q v).host = s.host ∧ (s.setQueue q v).mem = s.mem ∧ (s.setQueue q v).coh = s.coh ∧ (s.setQueue q v).kitty = s.kitty ∧ (s.setQueue q v).svis = s.svis ∧ (s.setQueue q v).cascade = s.cascade
    ∧ (s.setQueue q v).group = s.group ∧ (s.setQueue q v).vault = s.vault ∧ (s.setQueue q v).video = s.video ∧ (s.setQueue q v).sec = s.sec ∧ (s.setQueue q v).power = s.power
    ∧ (s.setQueue q v).dict = s.dict ∧ (s.setQueue q v).hb = s.hb ∧ (s.setQueue q v).factory = s.factory ∧ (s.setQueue q v).board = s.board ∧ (s.setQueue q v).start = s.start
    ∧ (s.setQueue q v).nv = s.nv := by
  and_intros <;> rfl

@[simp] theorem State.setLink_frame (s : State) (k : Nat) (v : DeckLink) :
    (s.setLink k v).pending = s.pending ∧ (s.setLink k v).now = s.now ∧ (s.setLink k v).fresh = s.fresh ∧ (s.setLink k v).cad = s.cad ∧ (s.setLink k v).dealer = s.dealer
    ∧ (s.setLink k v).seats = s.seats ∧ (s.setLink k v).accts = s.accts ∧ (s.setLink k v).forms = s.forms ∧ (s.setLink k v).repair = s.repair ∧ (s.setLink k v).log = s.log
    ∧ (s.setLink k v).host = s.host ∧ (s.setLink k v).mem = s.mem ∧ (s.setLink k v).ldma = s.ldma ∧ (s.setLink k v).coh = s.coh ∧ (s.setLink k v).kitty = s.kitty ∧ (s.setLink k v).svis = s.svis
    ∧ (s.setLink k v).group = s.group ∧ (s.setLink k v).vault = s.vault ∧ (s.setLink k v).video = s.video ∧ (s.setLink k v).sec = s.sec ∧ (s.setLink k v).power = s.power
    ∧ (s.setLink k v).dict = s.dict ∧ (s.setLink k v).hb = s.hb ∧ (s.setLink k v).factory = s.factory ∧ (s.setLink k v).board = s.board ∧ (s.setLink k v).start = s.start
    ∧ (s.setLink k v).nv = s.nv := by
  and_intros <;> rfl

@[simp] theorem State.setSession_frame (s : State) (k : Nat) (v : Session) :
    (s.setSession k v).pending = s.pending ∧ (s.setSession k v).now = s.now ∧ (s.setSession k v).fresh = s.fresh ∧ (s.setSession k v).cad = s.cad ∧ (s.setSession k v).dealer = s.dealer
    ∧ (s.setSession k v).seats = s.seats ∧ (s.setSession k v).accts = s.accts ∧ (s.setSession k v).forms = s.forms ∧ (s.setSession k v).repair = s.repair ∧ (s.setSession k v).log = s.log
    ∧ (s.setSession k v).host = s.host ∧ (s.setSession k v).mem = s.mem ∧ (s.setSession k v).ldma = s.ldma ∧ (s.setSession k v).coh = s.coh ∧ (s.setSession k v).kitty = s.kitty ∧ (s.setSession k v).svis = s.svis
    ∧ (s.setSession k v).cascade = s.cascade ∧ (s.setSession k v).group = s.group ∧ (s.setSession k v).vault = s.vault ∧ (s.setSession k v).sec = s.sec ∧ (s.setSession k v).power = s.power
    ∧ (s.setSession k v).dict = s.dict ∧ (s.setSession k v).hb = s.hb ∧ (s.setSession k v).factory = s.factory ∧ (s.setSession k v).board = s.board ∧ (s.setSession k v).start = s.start
    ∧ (s.setSession k v).nv = s.nv := by
  and_intros <;> rfl

@[simp] theorem State.setEngine_frame (s : State) (k : Nat) (v : Engine) :
    (s.setEngine k v).pending = s.pending ∧ (s.setEngine k v).now = s.now ∧ (s.setEngine k v).fresh = s.fresh ∧ (s.setEngine k v).cad = s.cad ∧ (s.setEngine k v).dealer = s.dealer
    ∧ (s.setEngine k v).seats = s.seats ∧ (s.setEngine k v).accts = s.accts ∧ (s.setEngine k v).forms = s.forms ∧ (s.setEngine k v).repair = s.repair ∧ (s.setEngine k v).log = s.log
    ∧ (s.setEngine k v).host = s.host ∧ (s.setEngine k v).mem = s.mem ∧ (s.setEngine k v).ldma = s.ldma ∧ (s.setEngine k v).coh = s.coh ∧ (s.setEngine k v).kitty = s.kitty ∧ (s.setEngine k v).svis = s.svis
    ∧ (s.setEngine k v).cascade = s.cascade ∧ (s.setEngine k v).group = s.group ∧ (s.setEngine k v).vault = s.vault ∧ (s.setEngine k v).sec = s.sec ∧ (s.setEngine k v).power = s.power
    ∧ (s.setEngine k v).dict = s.dict ∧ (s.setEngine k v).hb = s.hb ∧ (s.setEngine k v).factory = s.factory ∧ (s.setEngine k v).board = s.board ∧ (s.setEngine k v).start = s.start
    ∧ (s.setEngine k v).nv = s.nv := by
  and_intros <;> rfl

@[simp] theorem State.setPass_frame (s : State) (p : PassRun) :
    (s.setPass p).pending = s.pending ∧ (s.setPass p).now = s.now ∧ (s.setPass p).fresh = s.fresh ∧ (s.setPass p).cad = s.cad ∧ (s.setPass p).dealer = s.dealer
    ∧ (s.setPass p).seats = s.seats ∧ (s.setPass p).accts = s.accts ∧ (s.setPass p).forms = s.forms ∧ (s.setPass p).repair = s.repair ∧ (s.setPass p).log = s.log
    ∧ (s.setPass p).host = s.host ∧ (s.setPass p).mem = s.mem ∧ (s.setPass p).ldma = s.ldma ∧ (s.setPass p).coh = s.coh ∧ (s.setPass p).kitty = s.kitty ∧ (s.setPass p).svis = s.svis
    ∧ (s.setPass p).cascade = s.cascade ∧ (s.setPass p).group = s.group ∧ (s.setPass p).video = s.video ∧ (s.setPass p).sec = s.sec ∧ (s.setPass p).power = s.power
    ∧ (s.setPass p).dict = s.dict ∧ (s.setPass p).hb = s.hb ∧ (s.setPass p).factory = s.factory ∧ (s.setPass p).board = s.board ∧ (s.setPass p).start = s.start
    ∧ (s.setPass p).nv = s.nv := by
  and_intros <;> rfl

@[simp] theorem State.setDir_frame (s : State) (l : Nat) (d : DirState) :
    (s.setDir l d).pending = s.pending ∧ (s.setDir l d).now = s.now ∧ (s.setDir l d).fresh = s.fresh ∧ (s.setDir l d).cad = s.cad ∧ (s.setDir l d).dealer = s.dealer
    ∧ (s.setDir l d).seats = s.seats ∧ (s.setDir l d).accts = s.accts ∧ (s.setDir l d).forms = s.forms ∧ (s.setDir l d).repair = s.repair ∧ (s.setDir l d).log = s.log
    ∧ (s.setDir l d).host = s.host ∧ (s.setDir l d).mem = s.mem ∧ (s.setDir l d).ldma = s.ldma ∧ (s.setDir l d).kitty = s.kitty ∧ (s.setDir l d).svis = s.svis ∧ (s.setDir l d).cascade = s.cascade
    ∧ (s.setDir l d).group = s.group ∧ (s.setDir l d).vault = s.vault ∧ (s.setDir l d).video = s.video ∧ (s.setDir l d).sec = s.sec ∧ (s.setDir l d).power = s.power
    ∧ (s.setDir l d).dict = s.dict ∧ (s.setDir l d).hb = s.hb ∧ (s.setDir l d).factory = s.factory ∧ (s.setDir l d).board = s.board ∧ (s.setDir l d).start = s.start
    ∧ (s.setDir l d).nv = s.nv := by
  and_intros <;> rfl

@[simp] theorem State.setCore_frame (s : State) (k : Nat) (c : Core) :
    (s.setCore k c).pending = s.pending ∧ (s.setCore k c).now = s.now ∧ (s.setCore k c).fresh = s.fresh ∧ (s.setCore k c).cad = s.cad ∧ (s.setCore k c).dealer = s.dealer
    ∧ (s.setCore k c).seats = s.seats ∧ (s.setCore k c).accts = s.accts ∧ (s.setCore k c).forms = s.forms ∧ (s.setCore k c).repair = s.repair ∧ (s.setCore k c).log = s.log
    ∧ (s.setCore k c).host = s.host ∧ (s.setCore k c).mem = s.mem ∧ (s.setCore k c).ldma = s.ldma ∧ (s.setCore k c).coh = s.coh ∧ (s.setCore k c).kitty = s.kitty ∧ (s.setCore k c).cascade = s.cascade
    ∧ (s.setCore k c).group = s.group ∧ (s.setCore k c).vault = s.vault ∧ (s.setCore k c).video = s.video ∧ (s.setCore k c).sec = s.sec ∧ (s.setCore k c).power = s.power
    ∧ (s.setCore k c).dict = s.dict ∧ (s.setCore k c).hb = s.hb ∧ (s.setCore k c).factory = s.factory ∧ (s.setCore k c).board = s.board ∧ (s.setCore k c).start = s.start
    ∧ (s.setCore k c).nv = s.nv := by
  and_intros <;> rfl

@[simp] theorem State.setCstore_frame (s : State) (k : Nat) (c : Cluster) :
    (s.setCstore k c).pending = s.pending ∧ (s.setCstore k c).now = s.now ∧ (s.setCstore k c).fresh = s.fresh ∧ (s.setCstore k c).cad = s.cad ∧ (s.setCstore k c).dealer = s.dealer
    ∧ (s.setCstore k c).seats = s.seats ∧ (s.setCstore k c).accts = s.accts ∧ (s.setCstore k c).forms = s.forms ∧ (s.setCstore k c).repair = s.repair ∧ (s.setCstore k c).log = s.log
    ∧ (s.setCstore k c).host = s.host ∧ (s.setCstore k c).mem = s.mem ∧ (s.setCstore k c).ldma = s.ldma ∧ (s.setCstore k c).coh = s.coh ∧ (s.setCstore k c).kitty = s.kitty ∧ (s.setCstore k c).cascade = s.cascade
    ∧ (s.setCstore k c).group = s.group ∧ (s.setCstore k c).vault = s.vault ∧ (s.setCstore k c).video = s.video ∧ (s.setCstore k c).sec = s.sec ∧ (s.setCstore k c).power = s.power
    ∧ (s.setCstore k c).dict = s.dict ∧ (s.setCstore k c).hb = s.hb ∧ (s.setCstore k c).factory = s.factory ∧ (s.setCstore k c).board = s.board ∧ (s.setCstore k c).start = s.start
    ∧ (s.setCstore k c).nv = s.nv := by
  and_intros <;> rfl

/-- A store written: nothing outside the fabric changes. -/
@[simp] theorem State.setStore_frame (s : State) (r : StoreRef) (c : List Host.Cell) (m : List Nat) :
    (s.setStore r c m).pending = s.pending ∧ (s.setStore r c m).now = s.now ∧ (s.setStore r c m).fresh = s.fresh ∧ (s.setStore r c m).cad = s.cad ∧ (s.setStore r c m).dealer = s.dealer
    ∧ (s.setStore r c m).seats = s.seats ∧ (s.setStore r c m).accts = s.accts ∧ (s.setStore r c m).forms = s.forms ∧ (s.setStore r c m).repair = s.repair ∧ (s.setStore r c m).log = s.log
    ∧ (s.setStore r c m).host = s.host ∧ (s.setStore r c m).mem = s.mem ∧ (s.setStore r c m).ldma = s.ldma ∧ (s.setStore r c m).coh = s.coh ∧ (s.setStore r c m).kitty = s.kitty ∧ (s.setStore r c m).cascade = s.cascade
    ∧ (s.setStore r c m).group = s.group ∧ (s.setStore r c m).vault = s.vault ∧ (s.setStore r c m).video = s.video ∧ (s.setStore r c m).sec = s.sec ∧ (s.setStore r c m).power = s.power
    ∧ (s.setStore r c m).dict = s.dict ∧ (s.setStore r c m).hb = s.hb ∧ (s.setStore r c m).factory = s.factory ∧ (s.setStore r c m).board = s.board ∧ (s.setStore r c m).start = s.start
    ∧ (s.setStore r c m).nv = s.nv := by
  cases r <;> and_intros <;> rfl

@[simp] theorem State.setRegions_frame (s : State) (r : StoreRef) (l : List StoreRegion) :
    (s.setRegions r l).pending = s.pending ∧ (s.setRegions r l).now = s.now ∧ (s.setRegions r l).fresh = s.fresh ∧ (s.setRegions r l).cad = s.cad ∧ (s.setRegions r l).dealer = s.dealer
    ∧ (s.setRegions r l).seats = s.seats ∧ (s.setRegions r l).accts = s.accts ∧ (s.setRegions r l).forms = s.forms ∧ (s.setRegions r l).repair = s.repair ∧ (s.setRegions r l).log = s.log
    ∧ (s.setRegions r l).host = s.host ∧ (s.setRegions r l).mem = s.mem ∧ (s.setRegions r l).ldma = s.ldma ∧ (s.setRegions r l).coh = s.coh ∧ (s.setRegions r l).kitty = s.kitty ∧ (s.setRegions r l).cascade = s.cascade
    ∧ (s.setRegions r l).group = s.group ∧ (s.setRegions r l).vault = s.vault ∧ (s.setRegions r l).video = s.video ∧ (s.setRegions r l).sec = s.sec ∧ (s.setRegions r l).power = s.power
    ∧ (s.setRegions r l).dict = s.dict ∧ (s.setRegions r l).hb = s.hb ∧ (s.setRegions r l).factory = s.factory ∧ (s.setRegions r l).board = s.board ∧ (s.setRegions r l).start = s.start
    ∧ (s.setRegions r l).nv = s.nv := by
  cases r <;> and_intros <;> rfl

@[simp] theorem State.bumpGeneration_frame (s : State) :
    (s.bumpGeneration).pending = s.pending ∧ (s.bumpGeneration).now = s.now ∧ (s.bumpGeneration).fresh = s.fresh ∧ (s.bumpGeneration).cad = s.cad ∧ (s.bumpGeneration).dealer = s.dealer
    ∧ (s.bumpGeneration).seats = s.seats ∧ (s.bumpGeneration).accts = s.accts ∧ (s.bumpGeneration).forms = s.forms ∧ (s.bumpGeneration).log = s.log ∧ (s.bumpGeneration).host = s.host
    ∧ (s.bumpGeneration).mem = s.mem ∧ (s.bumpGeneration).ldma = s.ldma ∧ (s.bumpGeneration).coh = s.coh ∧ (s.bumpGeneration).kitty = s.kitty ∧ (s.bumpGeneration).svis = s.svis ∧ (s.bumpGeneration).cascade = s.cascade
    ∧ (s.bumpGeneration).group = s.group ∧ (s.bumpGeneration).vault = s.vault ∧ (s.bumpGeneration).video = s.video ∧ (s.bumpGeneration).sec = s.sec ∧ (s.bumpGeneration).power = s.power
    ∧ (s.bumpGeneration).dict = s.dict ∧ (s.bumpGeneration).hb = s.hb ∧ (s.bumpGeneration).factory = s.factory ∧ (s.bumpGeneration).board = s.board ∧ (s.bumpGeneration).start = s.start
    ∧ (s.bumpGeneration).nv = s.nv := by
  and_intros <;> rfl

@[simp] theorem State.writeField_frame (s : State) (m : RepairMap) :
    (s.writeField m).pending = s.pending ∧ (s.writeField m).now = s.now ∧ (s.writeField m).fresh = s.fresh ∧ (s.writeField m).cad = s.cad ∧ (s.writeField m).dealer = s.dealer
    ∧ (s.writeField m).seats = s.seats ∧ (s.writeField m).accts = s.accts ∧ (s.writeField m).forms = s.forms ∧ (s.writeField m).repair = s.repair ∧ (s.writeField m).log = s.log
    ∧ (s.writeField m).host = s.host ∧ (s.writeField m).mem = s.mem ∧ (s.writeField m).ldma = s.ldma ∧ (s.writeField m).coh = s.coh ∧ (s.writeField m).kitty = s.kitty ∧ (s.writeField m).svis = s.svis
    ∧ (s.writeField m).cascade = s.cascade ∧ (s.writeField m).group = s.group ∧ (s.writeField m).vault = s.vault ∧ (s.writeField m).video = s.video ∧ (s.writeField m).sec = s.sec
    ∧ (s.writeField m).power = s.power ∧ (s.writeField m).dict = s.dict ∧ (s.writeField m).hb = s.hb ∧ (s.writeField m).factory = s.factory ∧ (s.writeField m).board = s.board
    ∧ (s.writeField m).start = s.start := by
  and_intros <;> rfl

@[simp] theorem State.respond_frame (s : State) (c : Nat) (b : Bytes) :
    (s.respond c b).pending = s.pending ∧ (s.respond c b).now = s.now ∧ (s.respond c b).fresh = s.fresh ∧ (s.respond c b).cad = s.cad ∧ (s.respond c b).dealer = s.dealer
    ∧ (s.respond c b).seats = s.seats ∧ (s.respond c b).accts = s.accts ∧ (s.respond c b).forms = s.forms ∧ (s.respond c b).repair = s.repair ∧ (s.respond c b).log = s.log
    ∧ (s.respond c b).host = s.host ∧ (s.respond c b).mem = s.mem ∧ (s.respond c b).ldma = s.ldma ∧ (s.respond c b).coh = s.coh ∧ (s.respond c b).kitty = s.kitty ∧ (s.respond c b).svis = s.svis
    ∧ (s.respond c b).cascade = s.cascade ∧ (s.respond c b).group = s.group ∧ (s.respond c b).vault = s.vault ∧ (s.respond c b).video = s.video ∧ (s.respond c b).power = s.power
    ∧ (s.respond c b).dict = s.dict ∧ (s.respond c b).hb = s.hb ∧ (s.respond c b).factory = s.factory ∧ (s.respond c b).board = s.board ∧ (s.respond c b).start = s.start
    ∧ (s.respond c b).nv = s.nv := by
  and_intros <;> rfl

@[simp] theorem State.putSettings_frame (s : State) (g : Settings) :
    (s.putSettings g).pending = s.pending ∧ (s.putSettings g).now = s.now ∧ (s.putSettings g).fresh = s.fresh ∧ (s.putSettings g).cad = s.cad ∧ (s.putSettings g).dealer = s.dealer
    ∧ (s.putSettings g).seats = s.seats ∧ (s.putSettings g).accts = s.accts ∧ (s.putSettings g).forms = s.forms ∧ (s.putSettings g).repair = s.repair ∧ (s.putSettings g).log = s.log
    ∧ (s.putSettings g).host = s.host ∧ (s.putSettings g).mem = s.mem ∧ (s.putSettings g).ldma = s.ldma ∧ (s.putSettings g).coh = s.coh ∧ (s.putSettings g).kitty = s.kitty ∧ (s.putSettings g).svis = s.svis
    ∧ (s.putSettings g).cascade = s.cascade ∧ (s.putSettings g).group = s.group ∧ (s.putSettings g).vault = s.vault ∧ (s.putSettings g).video = s.video ∧ (s.putSettings g).sec = s.sec
    ∧ (s.putSettings g).power = s.power ∧ (s.putSettings g).hb = s.hb ∧ (s.putSettings g).factory = s.factory ∧ (s.putSettings g).board = s.board ∧ (s.putSettings g).start = s.start
    ∧ (s.putSettings g).nv = s.nv := by
  and_intros <;> rfl

/-- HBM written: nothing outside memory changes, and in memory nothing but the bytes. -/
@[simp] theorem State.hbmWrite_frame (s : State) (pa : Nat) (b : Bytes) :
    (s.hbmWrite pa b).pending = s.pending ∧ (s.hbmWrite pa b).now = s.now ∧ (s.hbmWrite pa b).fresh = s.fresh ∧ (s.hbmWrite pa b).cad = s.cad ∧ (s.hbmWrite pa b).dealer = s.dealer
    ∧ (s.hbmWrite pa b).seats = s.seats ∧ (s.hbmWrite pa b).accts = s.accts ∧ (s.hbmWrite pa b).forms = s.forms ∧ (s.hbmWrite pa b).repair = s.repair ∧ (s.hbmWrite pa b).log = s.log
    ∧ (s.hbmWrite pa b).host = s.host ∧ (s.hbmWrite pa b).ldma = s.ldma ∧ (s.hbmWrite pa b).coh = s.coh ∧ (s.hbmWrite pa b).kitty = s.kitty ∧ (s.hbmWrite pa b).svis = s.svis ∧ (s.hbmWrite pa b).cascade = s.cascade
    ∧ (s.hbmWrite pa b).group = s.group ∧ (s.hbmWrite pa b).vault = s.vault ∧ (s.hbmWrite pa b).video = s.video ∧ (s.hbmWrite pa b).sec = s.sec ∧ (s.hbmWrite pa b).power = s.power
    ∧ (s.hbmWrite pa b).dict = s.dict ∧ (s.hbmWrite pa b).hb = s.hb ∧ (s.hbmWrite pa b).factory = s.factory ∧ (s.hbmWrite pa b).board = s.board ∧ (s.hbmWrite pa b).start = s.start
    ∧ (s.hbmWrite pa b).nv = s.nv := by
  and_intros <;> rfl

@[simp] theorem State.hbmWrite_mem (s : State) (pa : Nat) (b : Bytes) :
    (s.hbmWrite pa b).mem.poison = s.mem.poison ∧ (s.hbmWrite pa b).mem.contexts = s.mem.contexts ∧ (s.hbmWrite pa b).mem.cached = s.mem.cached
    ∧ (s.hbmWrite pa b).mem.windows = s.mem.windows ∧ (s.hbmWrite pa b).mem.poisoned = s.mem.poisoned := ⟨rfl, rfl, rfl, rfl, rfl⟩

@[simp] theorem State.clearPoison_frame (s : State) (pa : Nat) :
    (s.clearPoison pa).pending = s.pending ∧ (s.clearPoison pa).now = s.now ∧ (s.clearPoison pa).fresh = s.fresh ∧ (s.clearPoison pa).cad = s.cad ∧ (s.clearPoison pa).dealer = s.dealer
    ∧ (s.clearPoison pa).seats = s.seats ∧ (s.clearPoison pa).accts = s.accts ∧ (s.clearPoison pa).forms = s.forms ∧ (s.clearPoison pa).repair = s.repair ∧ (s.clearPoison pa).log = s.log
    ∧ (s.clearPoison pa).host = s.host ∧ (s.clearPoison pa).ldma = s.ldma ∧ (s.clearPoison pa).coh = s.coh ∧ (s.clearPoison pa).kitty = s.kitty ∧ (s.clearPoison pa).svis = s.svis ∧ (s.clearPoison pa).cascade = s.cascade
    ∧ (s.clearPoison pa).group = s.group ∧ (s.clearPoison pa).vault = s.vault ∧ (s.clearPoison pa).video = s.video ∧ (s.clearPoison pa).sec = s.sec ∧ (s.clearPoison pa).power = s.power
    ∧ (s.clearPoison pa).dict = s.dict ∧ (s.clearPoison pa).hb = s.hb ∧ (s.clearPoison pa).factory = s.factory ∧ (s.clearPoison pa).board = s.board ∧ (s.clearPoison pa).start = s.start
    ∧ (s.clearPoison pa).nv = s.nv := by
  and_intros <;> rfl

@[simp] theorem State.writeLine_frame (s : State) (pa : Nat) (b : Bytes) :
    (s.writeLine pa b).pending = s.pending ∧ (s.writeLine pa b).now = s.now ∧ (s.writeLine pa b).fresh = s.fresh ∧ (s.writeLine pa b).cad = s.cad ∧ (s.writeLine pa b).dealer = s.dealer
    ∧ (s.writeLine pa b).seats = s.seats ∧ (s.writeLine pa b).accts = s.accts ∧ (s.writeLine pa b).forms = s.forms ∧ (s.writeLine pa b).repair = s.repair ∧ (s.writeLine pa b).log = s.log
    ∧ (s.writeLine pa b).host = s.host ∧ (s.writeLine pa b).ldma = s.ldma ∧ (s.writeLine pa b).coh = s.coh ∧ (s.writeLine pa b).kitty = s.kitty ∧ (s.writeLine pa b).svis = s.svis ∧ (s.writeLine pa b).cascade = s.cascade
    ∧ (s.writeLine pa b).group = s.group ∧ (s.writeLine pa b).vault = s.vault ∧ (s.writeLine pa b).video = s.video ∧ (s.writeLine pa b).sec = s.sec ∧ (s.writeLine pa b).power = s.power
    ∧ (s.writeLine pa b).dict = s.dict ∧ (s.writeLine pa b).hb = s.hb ∧ (s.writeLine pa b).factory = s.factory ∧ (s.writeLine pa b).board = s.board ∧ (s.writeLine pa b).start = s.start
    ∧ (s.writeLine pa b).nv = s.nv := by
  and_intros <;> rfl

/-! ## Completions and events -/

@[simp] theorem State.postCpl_frame (s : State) (f : Nat) (r : CplRec) (raise : Bool) :
    (s.postCpl f r raise).pending = s.pending ∧ (s.postCpl f r raise).now = s.now ∧ (s.postCpl f r raise).fresh = s.fresh ∧ (s.postCpl f r raise).cad = s.cad ∧ (s.postCpl f r raise).dealer = s.dealer
    ∧ (s.postCpl f r raise).seats = s.seats ∧ (s.postCpl f r raise).accts = s.accts ∧ (s.postCpl f r raise).forms = s.forms ∧ (s.postCpl f r raise).repair = s.repair ∧ (s.postCpl f r raise).log = s.log
    ∧ (s.postCpl f r raise).mem = s.mem ∧ (s.postCpl f r raise).ldma = s.ldma ∧ (s.postCpl f r raise).coh = s.coh ∧ (s.postCpl f r raise).kitty = s.kitty ∧ (s.postCpl f r raise).svis = s.svis ∧ (s.postCpl f r raise).cascade = s.cascade
    ∧ (s.postCpl f r raise).group = s.group ∧ (s.postCpl f r raise).vault = s.vault ∧ (s.postCpl f r raise).video = s.video ∧ (s.postCpl f r raise).sec = s.sec ∧ (s.postCpl f r raise).power = s.power
    ∧ (s.postCpl f r raise).dict = s.dict ∧ (s.postCpl f r raise).hb = s.hb ∧ (s.postCpl f r raise).factory = s.factory ∧ (s.postCpl f r raise).board = s.board ∧ (s.postCpl f r raise).start = s.start
    ∧ (s.postCpl f r raise).nv = s.nv := by
  simp [State.postCpl]

/-- A completion owed changes the host interface alone. -/
@[simp] theorem State.owed_frame (s : State) (t : Ticket) (r : CplRec) (raise : Bool) :
    (s.owed t r raise).pending = s.pending ∧ (s.owed t r raise).now = s.now ∧ (s.owed t r raise).fresh = s.fresh ∧ (s.owed t r raise).cad = s.cad ∧ (s.owed t r raise).dealer = s.dealer
    ∧ (s.owed t r raise).seats = s.seats ∧ (s.owed t r raise).accts = s.accts ∧ (s.owed t r raise).forms = s.forms ∧ (s.owed t r raise).repair = s.repair ∧ (s.owed t r raise).log = s.log
    ∧ (s.owed t r raise).mem = s.mem ∧ (s.owed t r raise).ldma = s.ldma ∧ (s.owed t r raise).coh = s.coh ∧ (s.owed t r raise).kitty = s.kitty ∧ (s.owed t r raise).svis = s.svis ∧ (s.owed t r raise).cascade = s.cascade
    ∧ (s.owed t r raise).group = s.group ∧ (s.owed t r raise).vault = s.vault ∧ (s.owed t r raise).video = s.video ∧ (s.owed t r raise).sec = s.sec ∧ (s.owed t r raise).power = s.power
    ∧ (s.owed t r raise).dict = s.dict ∧ (s.owed t r raise).hb = s.hb ∧ (s.owed t r raise).factory = s.factory ∧ (s.owed t r raise).board = s.board ∧ (s.owed t r raise).start = s.start
    ∧ (s.owed t r raise).nv = s.nv := by
  unfold State.owed; split <;> simp

@[simp] theorem State.completeWith_frame (s : State) (t : Ticket) (a b : Nat) :
    (s.completeWith t a b).pending = s.pending ∧ (s.completeWith t a b).now = s.now ∧ (s.completeWith t a b).fresh = s.fresh ∧ (s.completeWith t a b).cad = s.cad ∧ (s.completeWith t a b).dealer = s.dealer
    ∧ (s.completeWith t a b).seats = s.seats ∧ (s.completeWith t a b).accts = s.accts ∧ (s.completeWith t a b).forms = s.forms ∧ (s.completeWith t a b).repair = s.repair ∧ (s.completeWith t a b).log = s.log
    ∧ (s.completeWith t a b).mem = s.mem ∧ (s.completeWith t a b).ldma = s.ldma ∧ (s.completeWith t a b).coh = s.coh ∧ (s.completeWith t a b).kitty = s.kitty ∧ (s.completeWith t a b).svis = s.svis ∧ (s.completeWith t a b).cascade = s.cascade
    ∧ (s.completeWith t a b).group = s.group ∧ (s.completeWith t a b).vault = s.vault ∧ (s.completeWith t a b).video = s.video ∧ (s.completeWith t a b).sec = s.sec ∧ (s.completeWith t a b).power = s.power
    ∧ (s.completeWith t a b).dict = s.dict ∧ (s.completeWith t a b).hb = s.hb ∧ (s.completeWith t a b).factory = s.factory ∧ (s.completeWith t a b).board = s.board ∧ (s.completeWith t a b).start = s.start
    ∧ (s.completeWith t a b).nv = s.nv := by
  simp [State.completeWith]

@[simp] theorem State.complete_frame (s : State) (t : Ticket) (a : Nat) :
    (s.complete t a).pending = s.pending ∧ (s.complete t a).now = s.now ∧ (s.complete t a).fresh = s.fresh ∧ (s.complete t a).cad = s.cad ∧ (s.complete t a).dealer = s.dealer
    ∧ (s.complete t a).seats = s.seats ∧ (s.complete t a).accts = s.accts ∧ (s.complete t a).forms = s.forms ∧ (s.complete t a).repair = s.repair ∧ (s.complete t a).log = s.log
    ∧ (s.complete t a).mem = s.mem ∧ (s.complete t a).ldma = s.ldma ∧ (s.complete t a).coh = s.coh ∧ (s.complete t a).kitty = s.kitty ∧ (s.complete t a).svis = s.svis ∧ (s.complete t a).cascade = s.cascade
    ∧ (s.complete t a).group = s.group ∧ (s.complete t a).vault = s.vault ∧ (s.complete t a).video = s.video ∧ (s.complete t a).sec = s.sec ∧ (s.complete t a).power = s.power
    ∧ (s.complete t a).dict = s.dict ∧ (s.complete t a).hb = s.hb ∧ (s.complete t a).factory = s.factory ∧ (s.complete t a).board = s.board ∧ (s.complete t a).start = s.start
    ∧ (s.complete t a).nv = s.nv := by
  simp [State.complete]

@[simp] theorem State.sheetCpl_frame (s : State) (a b c d e : Nat) :
    (s.sheetCpl a b c d e).pending = s.pending ∧ (s.sheetCpl a b c d e).now = s.now ∧ (s.sheetCpl a b c d e).fresh = s.fresh ∧ (s.sheetCpl a b c d e).cad = s.cad ∧ (s.sheetCpl a b c d e).dealer = s.dealer
    ∧ (s.sheetCpl a b c d e).seats = s.seats ∧ (s.sheetCpl a b c d e).accts = s.accts ∧ (s.sheetCpl a b c d e).forms = s.forms ∧ (s.sheetCpl a b c d e).repair = s.repair ∧ (s.sheetCpl a b c d e).log = s.log
    ∧ (s.sheetCpl a b c d e).mem = s.mem ∧ (s.sheetCpl a b c d e).ldma = s.ldma ∧ (s.sheetCpl a b c d e).coh = s.coh ∧ (s.sheetCpl a b c d e).kitty = s.kitty ∧ (s.sheetCpl a b c d e).svis = s.svis ∧ (s.sheetCpl a b c d e).cascade = s.cascade
    ∧ (s.sheetCpl a b c d e).group = s.group ∧ (s.sheetCpl a b c d e).vault = s.vault ∧ (s.sheetCpl a b c d e).video = s.video ∧ (s.sheetCpl a b c d e).sec = s.sec ∧ (s.sheetCpl a b c d e).power = s.power
    ∧ (s.sheetCpl a b c d e).dict = s.dict ∧ (s.sheetCpl a b c d e).hb = s.hb ∧ (s.sheetCpl a b c d e).factory = s.factory ∧ (s.sheetCpl a b c d e).board = s.board ∧ (s.sheetCpl a b c d e).start = s.start
    ∧ (s.sheetCpl a b c d e).nv = s.nv := by
  simp [State.sheetCpl]

@[simp] theorem State.sheetDone_frame (s : State) (x : Sheet) (a : Nat) :
    (s.sheetDone x a).pending = s.pending ∧ (s.sheetDone x a).now = s.now ∧ (s.sheetDone x a).fresh = s.fresh ∧ (s.sheetDone x a).cad = s.cad ∧ (s.sheetDone x a).dealer = s.dealer
    ∧ (s.sheetDone x a).seats = s.seats ∧ (s.sheetDone x a).accts = s.accts ∧ (s.sheetDone x a).forms = s.forms ∧ (s.sheetDone x a).repair = s.repair ∧ (s.sheetDone x a).log = s.log
    ∧ (s.sheetDone x a).mem = s.mem ∧ (s.sheetDone x a).ldma = s.ldma ∧ (s.sheetDone x a).coh = s.coh ∧ (s.sheetDone x a).kitty = s.kitty ∧ (s.sheetDone x a).svis = s.svis ∧ (s.sheetDone x a).cascade = s.cascade
    ∧ (s.sheetDone x a).group = s.group ∧ (s.sheetDone x a).vault = s.vault ∧ (s.sheetDone x a).video = s.video ∧ (s.sheetDone x a).sec = s.sec ∧ (s.sheetDone x a).power = s.power
    ∧ (s.sheetDone x a).dict = s.dict ∧ (s.sheetDone x a).hb = s.hb ∧ (s.sheetDone x a).factory = s.factory ∧ (s.sheetDone x a).board = s.board ∧ (s.sheetDone x a).start = s.start
    ∧ (s.sheetDone x a).nv = s.nv := by
  unfold State.sheetDone; split <;> simp

/-- The log takes a record; of the hub store only its persistent part may. -/
@[simp] theorem State.logAppend_frame (s : State) (r : EvReq) :
    (s.logAppend r).pending = s.pending ∧ (s.logAppend r).now = s.now ∧ (s.logAppend r).fresh = s.fresh ∧ (s.logAppend r).cad = s.cad ∧ (s.logAppend r).dealer = s.dealer
    ∧ (s.logAppend r).seats = s.seats ∧ (s.logAppend r).accts = s.accts ∧ (s.logAppend r).forms = s.forms ∧ (s.logAppend r).repair = s.repair ∧ (s.logAppend r).host = s.host
    ∧ (s.logAppend r).mem = s.mem ∧ (s.logAppend r).ldma = s.ldma ∧ (s.logAppend r).coh = s.coh ∧ (s.logAppend r).kitty = s.kitty ∧ (s.logAppend r).svis = s.svis ∧ (s.logAppend r).cascade = s.cascade
    ∧ (s.logAppend r).group = s.group ∧ (s.logAppend r).vault = s.vault ∧ (s.logAppend r).video = s.video ∧ (s.logAppend r).sec = s.sec ∧ (s.logAppend r).power = s.power
    ∧ (s.logAppend r).dict = s.dict ∧ (s.logAppend r).hb = s.hb ∧ (s.logAppend r).factory = s.factory ∧ (s.logAppend r).board = s.board ∧ (s.logAppend r).start = s.start := by
  and_intros <;> rfl

theorem State.logAppend_nv (s : State) (r : EvReq) :
    (s.logAppend r).nv = { s.nv with plog := (s.logAppend r).nv.plog } ∧ (persistentClass r.cls = false → (s.logAppend r).nv = s.nv) := by
  refine ⟨?_, fun h => ?_⟩
  · by_cases h : persistentClass r.cls = true <;> simp [State.logAppend, h]
  · simp [State.logAppend, h]

/-- The ring's SEQ moves on by one, 0 left out, and holds 16,384 records at most. -/
theorem State.logAppend_seq (s : State) (r : EvReq) : (s.logAppend r).log.seq = if s.log.seq = 0xFFFFFFFF#32 then 1#32 else s.log.seq + 1 := rfl

theorem State.logAppend_length (s : State) (r : EvReq) (h : s.log.ring.length ≤ 16384) : (s.logAppend r).log.ring.length ≤ 16384 := by
  simp only [State.logAppend, List.length_append, List.length_singleton]
  split
  · simp only [List.length_drop]; omega
  · rename_i h'
    simp only [Nat.not_le] at h'
    omega

/-- Delivery changes the host interface alone. -/
@[simp] theorem State.deliverTo_frame (s : State) (r : EvReq) (e : EvRec) (n : Nat) :
    (s.deliverTo r e n).pending = s.pending ∧ (s.deliverTo r e n).now = s.now ∧ (s.deliverTo r e n).fresh = s.fresh ∧ (s.deliverTo r e n).cad = s.cad ∧ (s.deliverTo r e n).dealer = s.dealer
    ∧ (s.deliverTo r e n).seats = s.seats ∧ (s.deliverTo r e n).accts = s.accts ∧ (s.deliverTo r e n).forms = s.forms ∧ (s.deliverTo r e n).repair = s.repair ∧ (s.deliverTo r e n).log = s.log
    ∧ (s.deliverTo r e n).mem = s.mem ∧ (s.deliverTo r e n).ldma = s.ldma ∧ (s.deliverTo r e n).coh = s.coh ∧ (s.deliverTo r e n).kitty = s.kitty ∧ (s.deliverTo r e n).svis = s.svis ∧ (s.deliverTo r e n).cascade = s.cascade
    ∧ (s.deliverTo r e n).group = s.group ∧ (s.deliverTo r e n).vault = s.vault ∧ (s.deliverTo r e n).video = s.video ∧ (s.deliverTo r e n).sec = s.sec ∧ (s.deliverTo r e n).power = s.power
    ∧ (s.deliverTo r e n).dict = s.dict ∧ (s.deliverTo r e n).hb = s.hb ∧ (s.deliverTo r e n).factory = s.factory ∧ (s.deliverTo r e n).board = s.board ∧ (s.deliverTo r e n).start = s.start
    ∧ (s.deliverTo r e n).nv = s.nv := by
  induction n generalizing s with
  | zero => simp [State.deliverTo]
  | succ n ih =>
    simp only [State.deliverTo]
    split
    · have h := ih (s := s.setFn n ((s.fn n).deliver n e))
      simpa using h
    · exact ih s

/-- Every function below `n` that receives the event takes it, and no other changes. -/
theorem State.fn_deliverTo (r : EvReq) (e : EvRec) (n g : Nat) : ∀ s : State,
    (s.deliverTo r e n).fn g = if g < n ∧ s.receives g r = true then (s.fn g).deliver g e else s.fn g := by
  induction n with
  | zero => intro s; simp [State.deliverTo]
  | succ n ih =>
    intro s
    have hr : ∀ v, (s.setFn n v).receives g r = s.receives g r := fun v => rfl
    simp only [State.deliverTo]
    by_cases hn : s.receives n r = true
    · simp only [hn, if_true, ih, hr]
      by_cases hg : g = n
      · subst hg
        simp [hn, State.fn, State.setFn]
      · have h1 : (s.setFn n ((s.fn n).deliver n e)).fn g = s.fn g := by
          simp [State.fn, State.setFn, aget_aset_other, hg]
        have h2 : (g < n + 1) = (g < n) := by simp only [eq_iff_iff]; omega
        simp only [h1, h2]
    · simp only [hn, ih]
      by_cases hg : g = n
      · subst hg
        simp [hn]
      · have h2 : (g < n + 1) = (g < n) := by simp only [eq_iff_iff]; omega
        simp [h2]

/-- An event posted: the log, its persistent part, and the rings; nothing else. -/
@[simp] theorem State.post_frame (s : State) (r : EvReq) :
    (s.post r).pending = s.pending ∧ (s.post r).now = s.now ∧ (s.post r).fresh = s.fresh ∧ (s.post r).cad = s.cad ∧ (s.post r).dealer = s.dealer
    ∧ (s.post r).seats = s.seats ∧ (s.post r).accts = s.accts ∧ (s.post r).forms = s.forms ∧ (s.post r).repair = s.repair ∧ (s.post r).mem = s.mem
    ∧ (s.post r).ldma = s.ldma ∧ (s.post r).coh = s.coh ∧ (s.post r).kitty = s.kitty ∧ (s.post r).svis = s.svis ∧ (s.post r).cascade = s.cascade ∧ (s.post r).group = s.group
    ∧ (s.post r).vault = s.vault ∧ (s.post r).video = s.video ∧ (s.post r).sec = s.sec ∧ (s.post r).power = s.power ∧ (s.post r).dict = s.dict
    ∧ (s.post r).hb = s.hb ∧ (s.post r).factory = s.factory ∧ (s.post r).board = s.board ∧ (s.post r).start = s.start := by
  unfold State.post; dsimp only; split <;> simp

/-- What the log and the hub store hold after an event is what they hold after its record. -/
@[simp] theorem State.post_log (s : State) (r : EvReq) : (s.post r).log = (s.logAppend r).log ∧ (s.post r).nv = (s.logAppend r).nv := by
  unfold State.post; dsimp only; split <;> simp

/-- A record logged without being posted reaches no ring. -/
theorem State.post_logOnly (s : State) (r : EvReq) (h : r.logOnly = true) : s.post r = s.logAppend r := by
  simp [State.post, h]

@[simp] theorem State.postAll_frame (s : State) (l : List EvReq) :
    (s.postAll l).pending = s.pending ∧ (s.postAll l).now = s.now ∧ (s.postAll l).fresh = s.fresh ∧ (s.postAll l).cad = s.cad ∧ (s.postAll l).dealer = s.dealer
    ∧ (s.postAll l).seats = s.seats ∧ (s.postAll l).accts = s.accts ∧ (s.postAll l).forms = s.forms ∧ (s.postAll l).repair = s.repair ∧ (s.postAll l).mem = s.mem
    ∧ (s.postAll l).ldma = s.ldma ∧ (s.postAll l).coh = s.coh ∧ (s.postAll l).kitty = s.kitty ∧ (s.postAll l).svis = s.svis ∧ (s.postAll l).cascade = s.cascade ∧ (s.postAll l).group = s.group
    ∧ (s.postAll l).vault = s.vault ∧ (s.postAll l).video = s.video ∧ (s.postAll l).sec = s.sec ∧ (s.postAll l).power = s.power ∧ (s.postAll l).dict = s.dict
    ∧ (s.postAll l).hb = s.hb ∧ (s.postAll l).factory = s.factory ∧ (s.postAll l).board = s.board ∧ (s.postAll l).start = s.start := by
  unfold State.postAll
  induction l generalizing s with
  | nil => simp
  | cons r l ih =>
    have h := ih (s := s.post r)
    simpa using h

/-- A SECURITY event: counted, logged and posted. -/
@[simp] theorem State.security_frame (s : State) (d a b c e : Nat) :
    (s.security d a b c e).pending = s.pending ∧ (s.security d a b c e).now = s.now ∧ (s.security d a b c e).fresh = s.fresh ∧ (s.security d a b c e).cad = s.cad ∧ (s.security d a b c e).dealer = s.dealer
    ∧ (s.security d a b c e).seats = s.seats ∧ (s.security d a b c e).accts = s.accts ∧ (s.security d a b c e).forms = s.forms ∧ (s.security d a b c e).repair = s.repair ∧ (s.security d a b c e).mem = s.mem
    ∧ (s.security d a b c e).ldma = s.ldma ∧ (s.security d a b c e).coh = s.coh ∧ (s.security d a b c e).kitty = s.kitty ∧ (s.security d a b c e).svis = s.svis ∧ (s.security d a b c e).cascade = s.cascade ∧ (s.security d a b c e).group = s.group
    ∧ (s.security d a b c e).vault = s.vault ∧ (s.security d a b c e).video = s.video ∧ (s.security d a b c e).power = s.power ∧ (s.security d a b c e).dict = s.dict ∧ (s.security d a b c e).hb = s.hb
    ∧ (s.security d a b c e).factory = s.factory ∧ (s.security d a b c e).board = s.board ∧ (s.security d a b c e).start = s.start := by
  simp [State.security, State.securityFor]

@[simp] theorem State.security_sec (s : State) (d a b c e : Nat) : (s.security d a b c e).sec = { s.sec with events := s.sec.events + 1 } := by
  simp [State.security, State.securityFor]

/-- A line marked: memory and the log. -/
@[simp] theorem State.markPoison_frame (s : State) (pa : Nat) :
    (s.markPoison pa).pending = s.pending ∧ (s.markPoison pa).now = s.now ∧ (s.markPoison pa).fresh = s.fresh ∧ (s.markPoison pa).cad = s.cad ∧ (s.markPoison pa).dealer = s.dealer
    ∧ (s.markPoison pa).seats = s.seats ∧ (s.markPoison pa).accts = s.accts ∧ (s.markPoison pa).forms = s.forms ∧ (s.markPoison pa).repair = s.repair ∧ (s.markPoison pa).ldma = s.ldma
    ∧ (s.markPoison pa).coh = s.coh ∧ (s.markPoison pa).kitty = s.kitty ∧ (s.markPoison pa).svis = s.svis ∧ (s.markPoison pa).cascade = s.cascade ∧ (s.markPoison pa).group = s.group ∧ (s.markPoison pa).vault = s.vault
    ∧ (s.markPoison pa).video = s.video ∧ (s.markPoison pa).sec = s.sec ∧ (s.markPoison pa).power = s.power ∧ (s.markPoison pa).dict = s.dict ∧ (s.markPoison pa).hb = s.hb
    ∧ (s.markPoison pa).factory = s.factory ∧ (s.markPoison pa).board = s.board ∧ (s.markPoison pa).start = s.start := by
  simp [State.markPoison]

theorem State.markPoison_mem (s : State) (pa : Nat) : (s.markPoison pa).mem = { s.mem with poison := sins (pa / 64) s.mem.poison, poisoned := s.mem.poisoned + 1, lastPoison := pa / 64 * 64 } := by
  simp [State.markPoison]

/-! ## Links, notices and causes -/

/-- What is sent over a link changes the links alone. -/
@[simp] theorem State.deckSend_frame (s : State) (k c : Nat) (b : Bytes) :
    (s.deckSend k c b).pending = s.pending ∧ (s.deckSend k c b).now = s.now ∧ (s.deckSend k c b).fresh = s.fresh ∧ (s.deckSend k c b).cad = s.cad ∧ (s.deckSend k c b).dealer = s.dealer
    ∧ (s.deckSend k c b).seats = s.seats ∧ (s.deckSend k c b).accts = s.accts ∧ (s.deckSend k c b).forms = s.forms ∧ (s.deckSend k c b).repair = s.repair ∧ (s.deckSend k c b).log = s.log
    ∧ (s.deckSend k c b).host = s.host ∧ (s.deckSend k c b).mem = s.mem ∧ (s.deckSend k c b).ldma = s.ldma ∧ (s.deckSend k c b).coh = s.coh ∧ (s.deckSend k c b).kitty = s.kitty ∧ (s.deckSend k c b).svis = s.svis
    ∧ (s.deckSend k c b).group = s.group ∧ (s.deckSend k c b).vault = s.vault ∧ (s.deckSend k c b).video = s.video ∧ (s.deckSend k c b).sec = s.sec ∧ (s.deckSend k c b).power = s.power
    ∧ (s.deckSend k c b).dict = s.dict ∧ (s.deckSend k c b).hb = s.hb ∧ (s.deckSend k c b).factory = s.factory ∧ (s.deckSend k c b).board = s.board ∧ (s.deckSend k c b).start = s.start
    ∧ (s.deckSend k c b).nv = s.nv := by
  unfold State.deckSend; split <;> simp

/-- A notice changes the links and the records held. -/
@[simp] theorem State.sendNotice_frame (s : State) (k d a : Nat) :
    (s.sendNotice k d a).pending = s.pending ∧ (s.sendNotice k d a).now = s.now ∧ (s.sendNotice k d a).fresh = s.fresh ∧ (s.sendNotice k d a).cad = s.cad ∧ (s.sendNotice k d a).dealer = s.dealer
    ∧ (s.sendNotice k d a).seats = s.seats ∧ (s.sendNotice k d a).accts = s.accts ∧ (s.sendNotice k d a).forms = s.forms ∧ (s.sendNotice k d a).repair = s.repair ∧ (s.sendNotice k d a).log = s.log
    ∧ (s.sendNotice k d a).host = s.host ∧ (s.sendNotice k d a).mem = s.mem ∧ (s.sendNotice k d a).ldma = s.ldma ∧ (s.sendNotice k d a).coh = s.coh ∧ (s.sendNotice k d a).kitty = s.kitty ∧ (s.sendNotice k d a).svis = s.svis
    ∧ (s.sendNotice k d a).vault = s.vault ∧ (s.sendNotice k d a).video = s.video ∧ (s.sendNotice k d a).sec = s.sec ∧ (s.sendNotice k d a).power = s.power ∧ (s.sendNotice k d a).dict = s.dict
    ∧ (s.sendNotice k d a).hb = s.hb ∧ (s.sendNotice k d a).factory = s.factory ∧ (s.sendNotice k d a).board = s.board ∧ (s.sendNotice k d a).start = s.start ∧ (s.sendNotice k d a).nv = s.nv := by
  have h : ∀ (l : List Nat) (b : Bytes) (s : State), (l.foldl (fun s k => s.deckSend k 2 b) s).pending = s.pending ∧ (l.foldl (fun s k => s.deckSend k 2 b) s).now = s.now ∧ (l.foldl (fun s k => s.deckSend k 2 b) s).fresh = s.fresh ∧ (l.foldl (fun s k => s.deckSend k 2 b) s).cad = s.cad ∧ (l.foldl (fun s k => s.deckSend k 2 b) s).dealer = s.dealer ∧ (l.foldl (fun s k => s.deckSend k 2 b) s).seats = s.seats ∧ (l.foldl (fun s k => s.deckSend k 2 b) s).accts = s.accts ∧ (l.foldl (fun s k => s.deckSend k 2 b) s).forms = s.forms ∧ (l.foldl (fun s k => s.deckSend k 2 b) s).repair = s.repair ∧ (l.foldl (fun s k => s.deckSend k 2 b) s).log = s.log ∧ (l.foldl (fun s k => s.deckSend k 2 b) s).host = s.host ∧ (l.foldl (fun s k => s.deckSend k 2 b) s).mem = s.mem ∧ (l.foldl (fun s k => s.deckSend k 2 b) s).ldma = s.ldma ∧ (l.foldl (fun s k => s.deckSend k 2 b) s).coh = s.coh ∧ (l.foldl (fun s k => s.deckSend k 2 b) s).kitty = s.kitty ∧ (l.foldl (fun s k => s.deckSend k 2 b) s).svis = s.svis ∧ (l.foldl (fun s k => s.deckSend k 2 b) s).group = s.group ∧ (l.foldl (fun s k => s.deckSend k 2 b) s).vault = s.vault ∧ (l.foldl (fun s k => s.deckSend k 2 b) s).video = s.video ∧ (l.foldl (fun s k => s.deckSend k 2 b) s).sec = s.sec ∧ (l.foldl (fun s k => s.deckSend k 2 b) s).power = s.power ∧ (l.foldl (fun s k => s.deckSend k 2 b) s).dict = s.dict ∧ (l.foldl (fun s k => s.deckSend k 2 b) s).hb = s.hb ∧ (l.foldl (fun s k => s.deckSend k 2 b) s).factory = s.factory ∧ (l.foldl (fun s k => s.deckSend k 2 b) s).board = s.board ∧ (l.foldl (fun s k => s.deckSend k 2 b) s).start = s.start ∧ (l.foldl (fun s k => s.deckSend k 2 b) s).nv = s.nv := by
    intro l b
    induction l with
    | nil => intro s; simp
    | cons k l ih => intro s; simpa using ih (s.deckSend k 2 b)
  unfold State.sendNotice
  split
  · simp
  · simp [h]

/-- A cause of a given deal changes the causes registered, and in a group the notice of it. -/
@[simp] theorem State.addCauseAt_frame (s : State) (n a b c d e : Nat) :
    (s.addCauseAt n a b c d e).pending = s.pending ∧ (s.addCauseAt n a b c d e).now = s.now ∧ (s.addCauseAt n a b c d e).fresh = s.fresh ∧ (s.addCauseAt n a b c d e).cad = s.cad ∧ (s.addCauseAt n a b c d e).seats = s.seats
    ∧ (s.addCauseAt n a b c d e).accts = s.accts ∧ (s.addCauseAt n a b c d e).forms = s.forms ∧ (s.addCauseAt n a b c d e).repair = s.repair ∧ (s.addCauseAt n a b c d e).log = s.log ∧ (s.addCauseAt n a b c d e).host = s.host
    ∧ (s.addCauseAt n a b c d e).mem = s.mem ∧ (s.addCauseAt n a b c d e).ldma = s.ldma ∧ (s.addCauseAt n a b c d e).coh = s.coh ∧ (s.addCauseAt n a b c d e).kitty = s.kitty ∧ (s.addCauseAt n a b c d e).svis = s.svis ∧ (s.addCauseAt n a b c d e).vault = s.vault
    ∧ (s.addCauseAt n a b c d e).video = s.video ∧ (s.addCauseAt n a b c d e).sec = s.sec ∧ (s.addCauseAt n a b c d e).power = s.power ∧ (s.addCauseAt n a b c d e).dict = s.dict ∧ (s.addCauseAt n a b c d e).hb = s.hb
    ∧ (s.addCauseAt n a b c d e).factory = s.factory ∧ (s.addCauseAt n a b c d e).board = s.board ∧ (s.addCauseAt n a b c d e).start = s.start ∧ (s.addCauseAt n a b c d e).nv = s.nv := by
  unfold State.addCauseAt; split <;> simp

/-- A cause changes the causes registered, and in a group the notice of it. -/
@[simp] theorem State.addCause_frame (s : State) (a b c d e : Nat) :
    (s.addCause a b c d e).pending = s.pending ∧ (s.addCause a b c d e).now = s.now ∧ (s.addCause a b c d e).fresh = s.fresh ∧ (s.addCause a b c d e).cad = s.cad ∧ (s.addCause a b c d e).seats = s.seats
    ∧ (s.addCause a b c d e).accts = s.accts ∧ (s.addCause a b c d e).forms = s.forms ∧ (s.addCause a b c d e).repair = s.repair ∧ (s.addCause a b c d e).log = s.log ∧ (s.addCause a b c d e).host = s.host
    ∧ (s.addCause a b c d e).mem = s.mem ∧ (s.addCause a b c d e).ldma = s.ldma ∧ (s.addCause a b c d e).coh = s.coh ∧ (s.addCause a b c d e).kitty = s.kitty ∧ (s.addCause a b c d e).svis = s.svis ∧ (s.addCause a b c d e).vault = s.vault
    ∧ (s.addCause a b c d e).video = s.video ∧ (s.addCause a b c d e).sec = s.sec ∧ (s.addCause a b c d e).power = s.power ∧ (s.addCause a b c d e).dict = s.dict ∧ (s.addCause a b c d e).hb = s.hb
    ∧ (s.addCause a b c d e).factory = s.factory ∧ (s.addCause a b c d e).board = s.board ∧ (s.addCause a b c d e).start = s.start ∧ (s.addCause a b c d e).nv = s.nv :=
  by simp [State.addCause]

/-- Nothing is registered while nothing is dealt. -/
theorem State.addCause_idle (s : State) (a b c d e : Nat) (h : s.dealing = false) : s.addCause a b c d e = s := by
  simp [State.addCause, State.addCauseAt, h]

/-- While a deal is dealt the cause is registered with the deal it belongs to (R26). -/
theorem State.addCause_dealer (s : State) (a b c d e : Nat) (h : s.dealing = true) :
    (s.addCause a b c d e).dealer = { s.dealer with causes := s.dealer.causes ++ [{ deal := s.causeDeal, rank := a, detail := b, member := s.member, remote := false, slot := c, die := d, place := e, repair := repairRank a }] } := by
  simp [State.addCause, State.addCauseAt, h]

end Sys2Proof.Machine
end

