-- ==== Sys2Proof/Machine/HostView.lean ====
section
/-!
DEFINITION. Machine/HostView.lean: what a function finds in its BAR0: registers, records in their byte layouts, queue and session registers, the seat store (R1, R541, R549, R551, R552, R555, Tables 16.10, 19.2, 19.3, 19.6).
A read of BAR0 changes nothing, so no command stands for one; these are what it answers.
-/
namespace Sys2Proof.Machine

/-- An event record's 32 bytes: the head of Table 16.10 with POSTED set, then W0 to W3 (R555). -/
def eventBytes (e : EvRec) : Bytes :=
  toLe e.seq.toNat 4 ++ toLe e.cls 1 ++ toLe e.cause 1 ++ toLe e.detail 1 ++ toLe (1 + 2 * boolNat e.remote) 1
    ++ toLe (e.deal % 2 ^ 48 + 2 ^ 48 * e.member) 8 ++ toLe e.w0 4 ++ toLe e.w1 4 ++ toLe e.w2 4 ++ toLe e.w3 4

/-- A completion record's 32 bytes with its PHASE bit (Table 19.6). -/
def completionBytes (r : CplRec) (phase : Bool) : Bytes :=
  toLe r.kind 1 ++ toLe r.status 1 ++ toLe r.opcode 1 ++ toLe 0 1 ++ toLe r.tag 4 ++ toLe r.v0 8 ++ toLe r.v1 8 ++ toLe r.index 2 ++ toLe 0 4 ++ toLe (boolNat phase) 2

/-- A loose DMA descriptor's 32 bytes (Table 9.6). -/
def ldmaBytes (d : LdmaDesc) : Bytes :=
  toLe d.src 8 ++ toLe d.dst 8 ++ toLe d.len 4 ++ toLe (boolNat d.srcHost + 2 * boolNat d.dstHost + 4 * boolNat d.irq) 2 ++ toLe 0 2 ++ toLe d.tag 4 ++ toLe 0 4

/-- Byte `off` of a record ring of 32-byte records. -/
def ringByte (l : Option Bytes) (off : Nat) : Byte := match l with | some b => b.getD (off % 32) 0 | none => 0

/-- A function register (Table 19.3). -/
def State.fnReg (s : State) (f off : Nat) : Nat :=
  let x := s.fn f
  if 0x40 ≤ off && off < 0x80 then
    (if f = 0 then (aget ((off - 0x40) / 4) s.host.sheetStat).getD 0 + 2 ^ 8 * boolNat (s.host.sheetBusy.contains ((off - 0x40) / 4)) else 0)
  else match off with
  | 0x000 => f + 2 ^ 8 * boolNat (f = 0)
  | 0x004 => s.devStage % 8 + 2 ^ 3 * s.power.phase + 2 ^ 6 * s.sec.lifeCycle
  | 0x008 => x.cmdHead
  | 0x010 => x.cplTail
  | 0x014 => x.cplHead
  | 0x018 => x.evTail
  | 0x01C => x.evHead
  | 0x020 => x.evLost
  | 0x024 => x.cplLost
  | 0x028 => x.err.toNat
  | 0x030 => x.apAcct + 2 ^ 15 * boolNat x.apValid
  | 0x038 => x.apBase % 2 ^ 32
  | 0x03C => x.apBase / 2 ^ 32
  | _ => 0

/-- A loose DMA queue's register, for a function that sees the queue (R549, R550). -/
def State.queueReg (s : State) (f q off : Nat) : Nat :=
  let x := s.queue q
  if !s.seesQueue f q then 0 else
  match off with
  | 0x00 => x.tail
  | 0x04 => x.head
  | 0x08 => x.status + 2 ^ 8 * boolNat x.stopped
  | 0x0C => x.stopIndex
  | 0x10 => x.bytesDone
  | 0x18 => x.faultAddr % 2 ^ 32
  | 0x1C => x.faultAddr / 2 ^ 32
  | 0x24 => x.vec
  | 0x28 => match x.account with | some a => a % 4096 + 2 ^ 15 | none => 0
  | _ => 0

/-- A video session's register, for a function that may act for its account (R551). -/
def State.sessionReg (s : State) (f key off : Nat) : Nat :=
  let x := s.vsession key
  if !s.acts f x.account then 0 else
  match off with
  | 0x00 => x.hostRead % 2 ^ x.desc.bsLog
  | 0x04 => x.vec
  | 0x08 => x.state
  | 0x0C => x.seq
  | _ => 0

/-- One byte of a 32-bit register. -/
def regByte (v off : Nat) : Byte := BitVec.ofNat 8 (v / 2 ^ (8 * (off % 4)))

/-- Byte `off` of function `f`'s BAR0 (Table 19.2): zero where nothing is held, or where the function may not look. -/
def State.bar0 (s : State) (f off : Nat) : Byte :=
  let x := s.fn f
  if off < 0x1000 then regByte (s.fnReg f (off / 4 * 4)) off
  else if 0x8000 ≤ off && off < 0x8000 + 16 * msixSize f then BitVec.ofNat 8 (((aget ((off - 0x8000) / 8) x.msixTable).getD 0).toNat / 2 ^ (8 * (off % 8)))
  else if 0xC000 ≤ off && off < 0xC040 then BitVec.ofNat 8 (((List.range 8).map (fun i => 2 ^ i * boolNat (x.msixDue.contains (8 * (off - 0xC000) + i)))).sum)
  else if 0x40000 ≤ off && off < 0x48000 then ringByte ((aget ((off - 0x40000) / 32) x.cplRing).map (fun r => completionBytes r.1 r.2)) off
  else if 0x50000 ≤ off && off < 0x60000 then ringByte ((aget ((off - 0x50000) / 32) x.evRing).map eventBytes) off
  else if 0x100000 ≤ off && off < 0x180000 then
    (let q := (off - 0x100000) / 8192
     if s.seesQueue f q then ringByte ((aget ((off - 0x100000) / 32 % 256) (s.queue q).ring).map ldmaBytes) off else 0)
  else if 0x180000 ≤ off && off < 0x181000 then regByte (s.queueReg f ((off - 0x180000) / 64) (off % 64 / 4 * 4)) off
  else if 0x200000 ≤ off && off < 0x204000 then regByte (s.sessionReg f ((off - 0x200000) / 64) (off % 64 / 4 * 4)) off
  else if 0x2000000 ≤ off && off < 0x4000000 && f = 0 then (seatBytes (s.seat ((off - 0x2000000) / 256))).getD (off % 256) 0
  else 0

end Sys2Proof.Machine
end

