-- ==== Sys2Proof/Tests/Slice0.lean ====
section
/-!
SUPPORT. Tests/Slice0.lean: small checks of the model, and for every statement that has hypotheses a state and operands that meet them.
-/
namespace Sys2Proof.Tests
open Sys2Proof.Machine

theorem all_some {α : Type} {o : Option α} {x : α} {P : α → Prop} (h : o = some x) (p : P x) : ∀ y, o = some y → P y := by
  intro y hy
  rw [h] at hy
  cases hy
  exact p

theorem admitted_of {s : State} {c : CmdSlot} {p : Bool} {a : Option Nat}
    (h : (decide (s.start.stage = 2) && !c.rsvd && (!p || decide (c.fn = 0)) && (match a with | none => true | some x => s.acts c.fn x)) = true) : Admitted s c p a := by
  simp only [Bool.and_eq_true, Bool.or_eq_true, Bool.not_eq_true', decide_eq_true_eq] at h
  obtain ⟨⟨⟨h1, h2⟩, h3⟩, h4⟩ := h
  refine ⟨h1, h2, fun hp => ?_, fun x hx => ?_⟩
  · rcases h3 with h3 | h3
    · simp [hp] at h3
    · exact h3
  · subst hx
    exact h4

theorem videoAdmitted_of {s : State} {c : CmdSlot} {ok : Session → Bool}
    (h : (decide (s.start.stage = 2) && !c.rsvd && !vArgBad c && decide (c.arg2 = 0) && ok (s.vsession (vKeyOf c)) && s.acts c.fn (s.vsession (vKeyOf c)).account) = true) : VideoAdmitted s c ok := by
  simp only [Bool.and_eq_true, Bool.not_eq_true', decide_eq_true_eq] at h
  obtain ⟨⟨⟨⟨⟨h1, h2⟩, h3⟩, h4⟩, h5⟩, h6⟩ := h
  exact ⟨⟨h1, h2, nofun, nofun⟩, h3, h4, h5, h6⟩

/-- The CRC-32C fold, each step evaluated before the next. -/
def crcGo : BitVec 32 → Bytes → BitVec 32
  | c, [] => c
  | c, b :: t => if crc32cByte c b = 0 then crcGo 0 t else crcGo (crc32cByte c b) t

theorem crcGo_eq (l : Bytes) : ∀ c, l.foldl crc32cByte c = crcGo c l := by
  induction l with
  | nil => intro c; rfl
  | cons b t ih =>
    intro c
    simp only [List.foldl_cons, crcGo, ih]
    split
    · rename_i h
      rw [h]
    · rfl

/-- The CRC-64 fold, each step evaluated before the next. -/
def crc64Go : BitVec 64 → Bytes → BitVec 64
  | c, [] => c
  | c, b :: t => if crc64Byte c b = 0 then crc64Go 0 t else crc64Go (crc64Byte c b) t

theorem crc64Go_eq (l : Bytes) : ∀ c, l.foldl crc64Byte c = crc64Go c l := by
  induction l with
  | nil => intro c; rfl
  | cons b t ih =>
    intro c
    simp only [List.foldl_cons, crc64Go, ih]
    split
    · rename_i h
      rw [h]
    · rfl

theorem byteAt_zeros (n i : Nat) : byteAt (List.replicate n 0) i = 0 := by
  simp only [byteAt, List.getD_eq_getElem?_getD, List.getElem?_replicate]
  split <;> rfl

theorem leAll_zeros (n : Nat) : leAll (List.replicate n 0) = 0 := by
  induction n with
  | zero => rfl
  | succ n ih => simpa [List.replicate_succ, leAll] using ih

theorem le_zeros (n i k : Nat) : le (List.replicate n 0) i k = 0 := by
  simp only [le, List.drop_replicate, List.take_replicate, leAll_zeros]

theorem nonzero_zeros (n i k : Nat) : nonzero (List.replicate n 0) i k = false := by
  simp only [nonzero, List.drop_replicate, List.take_replicate, List.any_replicate]
  simp

/-- Run-ready, nothing dealt. -/
def run : State := { start := { up := true, stage := 2, bist := true, hbm := true, vault := true } }

/-- Run-ready and dealing deal 5 of 1024 tricks, 40 ns each, in trick `k`. -/
def deals (k : Nat) : State := { run with now := 41000000, cad := { st := .dealing, deal := 5, trick := k, len := some 1024, period := 40, startPs := 40000000 } }

/-- A command of PF0 from slot 3 of its ring. -/
def cmd (a0 a1 a2 : Word64) (p : Bytes) : CmdSlot := { fn := 0, slot := 3, irq := false, rsvd := false, tag := 7, arg0 := a0, arg1 := a1, arg2 := a2, payload := p }

/-- A plan of an idle deal. -/
def idlePlan : Plan := { source := .idle, formId := none, tag := 0, owed := none, entries := [], slotFolds := [], windows := [], pins := [], redealOf := none, lastRenege := [], streak := 0, repairIdle := false, poisonPages := [], vaultFailed := [], shortFill := false }

/-- A form of one slot, loaded as form 9. -/
def form9 : Form :=
  { id := 9, len := 1024, cutoff := 700, dieMask := 1, shortMask := 0, mode := 0, groupSize := 1, member := 0, stageOffset := 0, weightImage := 0
    slots := [{ cls := 1, cap := 2, group := 0, region := 0, cost := 100, scratch := 0, footFirst := 0, footCount := 0 }], wins := [], foots := []
    cert := { ctVersion := 0x00080001, tmin := [40, 40, 40, 40], maxTerms := 0, accBound := 0, repairHops := 0, lastIssue := 100, drain := 10, hbmPeak := 0, vaultPeak := 0, deckPeak := 0, digest := List.replicate 48 1 }
    native := { tables := 0, msets := [], streams := [] }, account := 0, predecessor := none, revoked := false, unload := [] }

/-- A plan of a deal of form 9. -/
def plan9 : Plan := { idlePlan with source := .queued, formId := some 9, entries := [{ slot := 0, pos := 0, seat := 4, void := false, cause := none, descs := 0 }] }

/-- A record of `n` bytes with little-endian fields (offset, width, value), all else zero. -/
def record (n : Nat) (l : List (Nat × Nat × Nat)) : Bytes := l.foldl (fun b x => b.take x.1 ++ toLe x.2.2 x.2.1 ++ b.drop (x.1 + x.2.1)) (List.replicate n 0)

/-- A sheet for form 9 that fills slot 0 with seat 4 (Tables 3.8, 3.9), without its CHECK. -/
def sheetBody (flags target : Nat) : Bytes := record 80 [(0, 2, 9), (2, 2, flags), (4, 2, 1), (8, 8, target), (0x10, 4, 0x77), (0x14, 4, 1), (0x18, 4, 16), (64, 8, 0x1000), (72, 4, 4)]

/-- The sheet with its CHECK. -/
def sheet (flags target : Nat) : Bytes := (sheetBody flags target).take 0x1C ++ toLe (crc32cSkip 0x1C (sheetBody flags target)) 4 ++ (sheetBody flags target).drop 0x20

/-- What the sheet says. -/
def sheet9 (cut standing : Bool) (target : Nat) : Sheet := { formId := 9, cut, standing, target, tag := 0x77, fills := [{ slot := 0, affinity := false, seats := [4] }] }

/-- Deal 5 runs with form 9, at trick `k`. -/
def deals9 (k : Nat) : State := { deals k with forms := [form9], dealer := { running := some plan9 }, seats := [(4, { state := 2 })] }

/-- Buffer 15 holds a sheet and is busy. -/
def sheetIn (s : State) (b : Bytes) : State := { s with host := { s.host with sheetBuf := [(15, b)], sheetBusy := [15] } }

/-- A load image of a form of one slot: the header of Table 4.2 for FORM_ID 9, one slot, no window, no footprint, a certificate. -/
def image9 : FormImage :=
  { header := record 128 [(0, 4, 0x4D524F46), (4, 2, 1), (6, 2, 9), (8, 4, 1024), (0xC, 4, 700), (0x10, 2, 1), (0x13, 1, 1), (0x16, 1, 1),
      (0x20, 4, 128), (0x24, 4, 32), (0x28, 4, 192), (0x38, 4, 192), (0x40, 4, 192), (0x44, 4, 96)]
    slots := record 32 [(0, 1, 1), (2, 2, 2), (8, 4, 100)], windows := [], foot := [], cert := record 96 [(0, 4, 0x00080001), (4, 4, 0x28282828)], native := { tables := 0, msets := [], streams := [] } }

/-- The form image9 describes, in account 0's context. -/
def formOf9 : Form := parseForm image9 0 none

/-- A ticket of PF0's slot 3. -/
def ticket (op : Nat) : Ticket := { fn := 0, op, tag := 7, slot := 3, irq := false }

/-- Account 0 has the 64 KiB page at 0 mapped to physical 0, readable and writable, in the translation cache. -/
def mapped (s : State) : State := { s with mem := { s.mem with cached := [{ ctx := 0, va := 0, pa := 0, size := 65536, r := true, w := true, sc := false }] } }

/-- That page is pinned by the running deal. -/
def pinned (s : State) : State := mapped { s with dealer := { s.dealer with running := some { plan9 with pins := [{ base := 0, size := 65536, owners := [.dealer] }] } } }

/-- An image entry of the vault: image 3 under key ID 5, generation 1, one block of die 0. -/
def entry3 : ImageEntry := { id := 3, keyId := 5, gen := 1, state := 2, pos := 0, replicate := false, extents := [(16, 1)], digest := 0, damaged := [] }

/-- Fields of the descriptor of an HEVC encode session of 64 by 64 pixels, on pool buffers 0 and 1 (Table 11.4). -/
def encFields : List (Nat × Nat × Nat) := [(0, 4, 0x53455356), (4, 1, 1), (5, 1, 8), (6, 1, 30), (8, 2, 64), (0xA, 2, 64), (0xC, 2, 30), (0xE, 2, 1), (0x13, 1, 2), (0x14, 1, 1), (0x15, 1, 1),
  (0x16, 1, 1), (0x17, 1, 1), (0x18, 2, 1), (0x2C, 4, 64), (0x30, 8, 6144), (0x40, 1, 16), (0x41, 1, 6), (0x48, 8, 0x8000)]

def encBytes : Bytes := record 128 encFields

def encDesc : SessDesc := (parseDesc encBytes).1

/-- The same picture, decoded. -/
def decDesc : SessDesc := { encDesc with codec := 2, fpsNum := 0, fpsDen := 0, maxShort := 0, nref := 0, sliceRows := 0, tileCols := 0, bsLog := 0, bsBase := 0 }

/-- Session 2 of engine 1 is `x`. -/
def withSession (s : State) (x : Session) : State := { s with video := { s.video with sessions := [(66, x)] } }

/-- A bank handed off. -/
def handoff : Handoff := { deal := 4, seat := 4, tag := 9, va := 0, len := 6144, pins := [], read := 0, ps := 0 }

/-- A DECODE under way: 100 bytes, 2 frames, to 0x100. -/
def decode1 : DecodeRun := { va := 0, len := 100, outVa := 0x100, frames := 2, tag := 5, ticket := ticket 0x50, consumed := 0, written := 0 }

/-- An open encode session with one bank, its first slice of 3 rows done. -/
def encSession : Session := { state := 1, frames := 1, frameStride := 6144, desc := { encDesc with height := 192, bsLog := 16 }, handoffs := [handoff], slice := 1, recon := some 0 }

def encRun : State := mapped (withSession run encSession)

/-- A picture of one sample. -/
def tiny : SessDesc := { encDesc with width := 2, height := 66, pitch := 2, bsLog := 30 }

/-- Its first slice is next; its frame lies at 0. -/
def encReads : State := mapped (withSession run { encSession with desc := tiny, slice := 0, coded := [{}] })

/-- A frame of one sample from 3 bytes. -/
def pic : Picture := { width := 1, height := 1, depth := 8, consumed := 3, key := true }

def decRun : State := mapped (withSession run { state := 1, frameStride := 6144, desc := decDesc, decodes := [decode1] })

/-- The page at physical 0 is shared-coherent. -/
def scRun : State := { run with mem := { cached := [{ ctx := 0, va := 0, pa := 0, size := 65536, r := true, w := true, sc := true }] } }

/-- A form whose one stream has 10 words on every core of cluster (0, 0, 0). -/
def formS : Form := { form9 with native := { tables := 0, msets := [{ dieMask := 1, rowLo := 0, rowHi := 0, colLo := 0, colHi := 1 }], streams := [{ dieMask := 1, region := false, rowLo := 0, rowHi := 0, colLo := 0, colHi := 0, slot := 0, coreMask := 0xFFFFFFFFFFFFFFFF, first := 0, words := 10 }] } }

/-- Trick 0 of a deal of formS. -/
def svisRun : State := { deals9 0 with forms := [formS] }

/-- Core 0 of cluster (0, 0, 0), in the deal code of slot 0. -/
def site : Site := { die := 0, row := 0, col := 0, core := 0, stream := 0, owner := .deal 0 }

/-- ISSUE 3, no post, no wait. -/
def base3 : Base := { issue := 3, pe := 0, post := 0, we := 0, wait := 0, need := 0, abase := 0 }

/-- An open program 0 of region mode with one stream, started at trick 0. -/
def regionRun : State :=
  { deals9 64 with svis := { programs := [{ id := 0, account := 0, ticket := ticket 0x32, dieMask := 1, takenPs := 0, start := some 0, accSat := false, info := { tables := 0, msets := [], streams := [{ dieMask := 1, region := true, rowLo := 0, rowHi := 0, colLo := 0, colHi := 0, slot := 0, coreMask := 1, first := 0, words := 10 }] } }], openWin := some { start := 64, stop := 128, beganPs := 0, dieMask := 1, programs := true, looseDma := false } } }

def siteR : Site := { site with owner := .program 0 true }

def baseR : Base := { base3 with issue := 0 }

/-- An item of queue V of core 0 that writes two bytes at line 1 and completes in cycle 5. -/
def item0 : Item :=
  { id := 0, core := 0, die := 0, stream := 0, owner := .deal 0, queue := 1, seq := 0, plane := .local, issue := 0, done := 5, lateDetail := 0x21, latePlace := 0, accs := [], incoming := []
    writes := [{ dsts := [.core 0], addr := 64, data := [1, 2], mark := false }], hbm := [], reg := none, post := none, remote := [], vault := none, held := false }

def itemRun (i : Item) : State := { svisRun with svis := { items := [i, { item0 with id := 1 }], nextItem := 2 } }

def vops : VOps := { d := 2, s1 := 0, s2 := 1, s3 := 0, count := 4, fmtD := 0, fmtS := 0, rnd := 0, sat := 0, bcast := 0 }

def mmaOps : MmaOps := { aAddr := 0, bSpace := 0, bAddr := 8, cAddr := 16, mt := 1, nt := 1, kt := 1, fmtA := 3, fmtB := 3, order := 0, acc := 1, mode := 0, mparam := 0 }

def lops : LOps := { ssp := 0, soff := 0, dsp := 1, doff := 5, count := 16, fmtS := 0, fmtD := 0, rnd := 0, sat := 0 }

def env0 : Env := { site, key := 0, q := 1, cycle := 3, core := {}, abase := 0 }

/-- A core-store line written at cycle 3 of the window, from queue V. -/
def rec0 : AuditRecord := { kind := 1, queue := 1, cycle := 3, addr := 7, data := 5 }

/-- One comparison of window 0: logical core 0 of cluster (0, 0, 0) against its first free core, spare 64. -/
def cmp0 (x y : List AuditRecord) : AuditCmp := { die := 0, row := 0, col := 0, logical := 0, shadowCol := 0, shadow := 64, coreRecords := x, shadowRecords := y }

/-- Window 0 has ended; core 0 issued deal code in it. -/
def auditRun : State := { deals9 256 with repair := { windows := [{ deal := 5, index := 0 }] }, svis := { cores := [(0, { dealWins := [0] })] } }

/-- A descriptor of one line from the host to VA 0x40. -/
def hostDesc : LdmaDesc := { src := 0, dst := 0x40, len := 64, srcHost := true, dstHost := false, irq := false, tag := 3, rsvd := false }

/-- Queue 63, bound to account 0, holds descriptor `d`. -/
def queueOf (d : LdmaDesc) : LdmaQueue := { account := some 0, tail := 1, ring := [(0, d)] }

def ldmaRun (d : LdmaDesc) : State := mapped { run with ldma := [(63, queueOf d)] }

def ones64 : Bytes := List.replicate 64 1

/-- PF0's aperture is open on account 0. -/
def apRun : State := mapped { run with host := { fns := [(0, { apValid := true })] } }

/-- A PCIe window over 64 KiB. -/
def pw : PcieWindow := { devBase := 0x800000000000, sizeLog := 16, enable := true, read := true }

def openWin0 : Window0 := { start := 0, stop := 256, beganPs := 41000000, dieMask := 1, programs := true, looseDma := true }

def formW : Form := { form9 with wins := [{ start := 0, span := 256, dieMask := 1, programs := true, looseDma := true, gbps := 0 }] }

def program0 : Program := { id := 0, account := 0, ticket := ticket 0x32, dieMask := 1, takenPs := 0, start := none, accSat := false, info := { tables := 0, msets := [], streams := [{ dieMask := 1, region := true, rowLo := 0, rowHi := 0, colLo := 0, colHi := 0, slot := 0, coreMask := 1, first := 0, words := 10 }] } }

/-- Run-ready and Provisioned. -/
def provisioned : State := { run with sec := { lifeCycle := 1 } }

/-- A key record for slot 7, key ID 5. -/
def keyRec : Bytes := record 40 [(0, 1, 7), (4, 4, 5), (8, 8, 0x0102)]

/-- A pass header for image 3 of one position, no block, without its CHECK. -/
def passBody : Bytes := record 640 [(0, 4, 0x53534150), (4, 2, 1), (6, 1, 1), (8, 4, 3), (0xC, 4, 5), (0x10, 4, 2)]

def passBytes : Bytes := passBody.take 0x240 ++ toLe (crc32cSkip 0x240 passBody) 4 ++ passBody.drop 0x244

/-- Provisioned, with key ID 5 in slot 0. -/
def keyed : State := { provisioned with vault := { keys := [(0, 5, 9)] } }

def head0 (n : Nat) : PassHead := { positions := 1, replicate := false, mend := false, id := 3, keyId := 5, gen := 2, counts := n :: List.replicate 127 0, digest := 0 }

def passRun (n : Nat) : PassRun := { head := head0 n, entry := some 0, nextIdx := [], status := 0, ticket := some (ticket 0x40), ended := false }

/-- A pass of one block into entry 0 is under way. -/
def passing : State := { keyed with vault := { keyed.vault with pass := some (passRun 1) }, nv := { images := [(0, { entry3 with state := 1 })] } }

/-- The vault holds image 3 with its one block. -/
def vaulted : State := { keyed with nv := { images := [(0, entry3)], blocks := [(16, [1], 2)] } }

/-- A group binding of two members, this device member 0 at ring address 0, without its CHECK. -/
def bindBody : Bytes := record 64 [(0, 2, 4), (2, 1, 1), (3, 1, 2), (8, 8, 0xFFFFFFFFFFFF0100), (0x10, 8, 0xFFFFFFFFFFFFFFFF), (0x18, 8, 0xFFFFFFFFFFFFFFFF)]

def bindBytes : Bytes := bindBody.take 0x3C ++ toLe (crc32cSkip 0x3C bindBody) 4

/-- A grant for action `a` on a Provisioned device of serial 1. -/
def grant (a : Nat) : Bytes := record 256 [(0, 4, 0x544E5247), (4, 2, 1), (6, 1, a), (7, 1, 2), (8, 8, 1), (0x10, 4, 5), (0x14, 4, 86400), (0x18, 1, 3)]

def crown : Bytes := record 256 [(0, 4, 0x4E575243), (4, 2, 1), (6, 1, 1), (7, 1, 1), (8, 8, 1), (0x10, 4, 5)]

/-- A write of THROTTLE_STEP, OD 0x1300.23, to a mirror slot of PF0. -/
def stepReq : MirrorReq := { fn := 0, slot := 15, index := 0x1300, sub := 0x23, target := 0xFF, op := 0, irq := false, offset := 0, len := 1, tag := 9, rsvd := false, data := [40] }

/-- On the ring at address 3, Run-ready. -/
def onRing : State := { run with hb := { addr := 3 }, board := { hbAlive := true } }

/-- A Host call from address 9 to address 3 in slot 12 or above. -/
def call (sub len : Nat) (data : Bytes) : HbCall :=
  { ok := true, rsvd := false, used := true, kind := 0, cls := 2, target := 3, caller := 9, index := 0x1300, sub, op := 0, len, offset := 0, status := 0, tag := 1, data := padTo 32 data, contrib := 0, alen := 0 }

def freeSlot : HbCall := { call 0 0 [] with used := false }

def header1 : HbHeader := { ok := true, rsvd := false, round := 7, curDeal := 40, stampTrick := 2, curPeriod := 40, nextLen := 1024, nextPeriod := 50, stretchPend := false, bankerId := 8, void := false, accDelay := 65300 }

/-- A frame of eighteen free slots. -/
def frame1 (order : List OrderEntry) : HbFrame :=
  { header := header1, standing := { ok := true, present := 0x100, join := 0, notSeated := 0, stretch := 0, floor := 40, order }, slots := List.replicate 18 freeSlot, serial := 5, originOk := true, eofVoid := false, symErrs := 1 }

/-- The Banker at address 3. -/
def banker : State := { onRing with now := 50000000, cascade := { isBanker := true, genLen := 1024, genPs := 40000000, planLen := 1024 } }

def link2 : DeckLink := { st := 2 }

/-- Links 0 and 7 are UP, bound to members 1 and 2 of a group of three; this device is member 0. -/
def grouped (s : State) : State := { s with
  cascade := { s.cascade with links := [(0, link2), (7, link2)] },
  group := { s.group with binding := some { groupId := 4, mode := 1, size := 3, member := 0, ring := [0, 1, 2], peer := [1, 0xFF, 0xFF, 0xFF, 0xFF, 0xFF, 0xFF, 2], image := [] } } }

def note (member deal : Nat) (arg : BitVec 48) : Notice := { member, groupId := 4, deal, arg }

def flit (type : Nat) (first : Bool) (p : Bytes) : Flit := { ok := true, rsvd := false, type, seq := 0, ack := 0, crData := 0, crNotice := 0, crPass := 0, len := p.length, first, payload := p }

/-- Nine readings of 20.0 degrees and `w` watts. -/
def cool (w : Nat) : Readings := { temps := List.replicate 9 (some 200), power := w }

/-- A signed record of kind `k` with action `a`. -/
def signed (k a : Nat) : SignedRec := { kind := k, action := a, seq := 5, duration := 86400, path := 3, meas := [], body := [], sig := [] }

/-- A Provisioned device that verifies `r`. -/
def verifies (r : SignedRec) : State := { provisioned with sec := { lifeCycle := 1, verifying := some r } }

/-- The SPDM responder after its first three answers, with session 1 in state `x`. -/
def answering (x : Nat) : State := { run with sec := { spdmPhase := 3, spdm := [{ id := 1, state := x }], ideStreams := [2] } }

def straps : Straps := { bankerEn := true, hbAddr := 6, railsOk := true }

/-- The Crown verifies; slot A as `a` says, slot B as `b` says. -/
def checks (a b : Bool) : BootChecks := { crownOk := true, stagedOk := false, crownMatchesStaged := false, copyOk := false, slotAOk := a, slotBOk := b }

/-- Before the release of reset, with boot record `b`. -/
def unborn (b : Boot) : State := { nv := { bootA := some b, bootB := some b } }

def nvGood : NvChecks := { factoryOk := true, fieldXOk := true, fieldYOk := true, lifeOk := true }

/-- Queue 63 is bound to account 0, which PF0 holds. -/
def queued : State := { run with ldma := [(63, { account := some 0 })] }

/-- A call slot with every field at the top of its range. -/
def fullCall : HbCall :=
  { ok := true, rsvd := true, used := true, kind := 3, cls := 3, target := 31, caller := 31, index := 65535, sub := 255, op := 3, len := 63, offset := 0xFFFFFFFF, status := 255, tag := 255, data := List.replicate 32 0xFF, contrib := 63, alen := 63 }

/-- A frame of such slots, its other fields at the top of their ranges, the standing block's CRC bad. -/
def fullFrame : HbFrame :=
  { header := { ok := true, rsvd := true, round := 65535, curDeal := 2 ^ 48 - 1, stampTrick := 2 ^ 22 - 1, curPeriod := 255, nextLen := 2 ^ 23 - 1, nextPeriod := 255, stretchPend := true, bankerId := 31, void := true, accDelay := 65535 },
    standing := { ok := false, present := 0xFFFFFFFF, join := 1, notSeated := 2, stretch := 65535, floor := 65535, order := List.replicate 32 { bmc := true, elig := true, addr := 31 } },
    slots := List.replicate 18 fullCall, serial := 5, originOk := true, eofVoid := true, symErrs := 0 }

/-- A DATA flit with every field at the top of its range. -/
def fullFlit : Flit := { ok := false, rsvd := true, type := 15, seq := 4095, ack := 4095, crData := 1023, crNotice := 63, crPass := 255, len := 255, first := true, payload := List.replicate 240 0xFF }

theorem wordReady_of {s : State} {x : Site} {b : Base} {op : SvisOp} {slot cycle : Nat} {form : Form} (owner : x.owner = .deal slot) (code : s.codeForm = some form) (base : Nat)
    (h : (s.mayIssue x && svisLegal false b op && !(s.streamPos x).ended && s.wordAllowed x op && s.sameWord x b op && (s.streamPos x).follows x (opQueue op) false
      && decide ((s.streamPos x).baseOf x op (opWords op) (s.streamBase x) (s.streamWords x) = some base) && decide (cycle = base + b.issue.toNat) && decide (cycle / 64 = s.cad.trick)
      && decide (((s.core (siteKey x)).qstate (opQueue op)).issue + ((s.core (siteKey x)).qstate (opQueue op)).occ ≤ cycle)) = true) : WordReady s x b op slot cycle form := by
  simp only [Bool.and_eq_true, Bool.not_eq_true', decide_eq_true_eq] at h
  obtain ⟨⟨⟨⟨⟨⟨⟨⟨⟨may, legal⟩, going⟩, allowed⟩, same⟩, behind⟩, place⟩, sum⟩, now⟩, free⟩ := h
  exact { may, legal, owner, form := code, going, allowed, same, behind, place := ⟨base, place, sum⟩, now, free }

theorem wordAlone_of {s : State} {x : Site} {b : Base} {op : SvisOp} {id : Nat} (owner : x.owner = .program id true)
    (h : (s.mayIssue x && svisLegal true b op && !(s.streamPos x).ended && s.wordAllowed x op && s.sameWord x b op && (s.streamPos x).follows x (opQueue op) true
      && ((s.streamPos x).baseOf x op (opWords op) (s.streamBase x) (s.streamWords x)).isSome && s.svis.cores.all (fun c => c.2.handed.isEmpty) && s.svis.items.isEmpty) = true) : WordAlone s x b op id := by
  simp only [Bool.and_eq_true, Bool.not_eq_true', List.all_eq_true, List.isEmpty_iff] at h
  obtain ⟨⟨⟨⟨⟨⟨⟨⟨may, legal⟩, going⟩, allowed⟩, same⟩, behind⟩, place⟩, idle⟩, still⟩ := h
  exact { may, legal, owner, going, allowed, same, behind, place, idle, still }

/-- The state after the session's state and the slice's rows are read. -/
def encTouched : State := ((encReads.serving 1 2).stateTouched (encReads.vsession 66)).2
def encRead : State := (State.vRead 0 (sliceOffsets tiny 0) encTouched).2

theorem encReads_read : SliceRead encReads 1 2 handoff {} (List.replicate 192 0) encRead where
  fresh := by decide
  underWay := by decide
  reads := ⟨encTouched, encRead, [], Prod.ext (by decide +kernel) rfl, by decide +kernel, by decide +kernel⟩

/-- A slice has no more than 2^28 bytes: it fits an empty ring of 2^30. -/
theorem sliceBits_fits (y : Session) (size : y.desc.bsLog = 30) (empty : y.written = y.hostRead) :
    y.sliceBits.length ≤ 2 ^ y.desc.bsLog ∧ y.written - y.hostRead + y.sliceBits.length ≤ 2 ^ y.desc.bsLog := by
  have h : y.sliceBits.length ≤ 2 ^ 30 := by
    simp only [Session.sliceBits, SearchIn.bits, List.length_map, List.length_range]
    omega
  rw [size, empty]
  exact ⟨h, by omega⟩

theorem cmp0_agrees : ∀ a ∈ [cmp0 [rec0] [rec0]], a.crcCore = a.crcShadow := by
  intro a h
  rw [List.mem_singleton.mp h]
  rfl

theorem cmp0_differs : (cmp0 [] [rec0]).crcCore ≠ (cmp0 [] [rec0]).crcShadow := by
  simp only [AuditCmp.crcCore, AuditCmp.crcShadow, auditCrc, crc64, crc64Go_eq]
  decide +kernel

theorem fullCall_fits : CallFits fullCall :=
  ⟨by decide, by decide, by decide, by decide, by decide, by decide, by decide, by decide, by decide, by decide, by decide, rfl, by decide, by decide⟩

theorem fullFrame_fits : FrameFits fullFrame :=
  ⟨⟨by decide, by decide, by decide, by decide, by decide, by decide, by decide, by decide⟩, ⟨by decide, by decide, by decide, by decide⟩, rfl,
    fun _ h => List.eq_of_mem_replicate h ▸ fullCall_fits, rfl, rfl⟩

theorem fullFlit_fits : FlitFits fullFlit := ⟨by decide, by decide, by decide, by decide, by decide, by decide, by decide, rfl⟩

/-! ## Ill-formed commands are refused by name of their check -/

theorem test_wf_refuses_ranges :
    [Instr.sheetDb 64 0 [], .sheetDb 0 16 [], .sheetArrival 16, .unloadEffect 65536, .sessionDrained 4 0, .sessionDrained 0 64, .sliceDone 4 {},
      .bsRead 64 0 0 0, .engineDefect 4, .poolEntryWrite .tap 0 64 [], .linkParity 8 0 0, .linkParity 0 64 0, .linkParity 0 0 34, .gatewayParity 8 0, .vaultPort 0 4194304, .droop 8 0,
      .kittyEviction 8 0, .bar2Read 64 0 0, .ldmaDb 0 64 0 [], .ldmaDb 0 0 256 [], .looseDmaStop 64, .skip 0 64, .halt 64 0, .pcieWindowWrite .tap 128 [], .keyUnload .tap 8, .keySlotUpdate 8,
      .tableSlotWrite .tap 32 [], .hbRead 18 freeSlot, .nodeLost 32, .slowEntryPrepared 65536 0, .slowEntryPrepared 0 256, .accountCounterClear .tap 4096 0, .linkDown 8, .deckNak 8 0,
      .causeNotice 8 (note 0 0 0), .thermalEvaluation { temps := [], power := 0 }, .resetRelease { straps with hbAddr := 32 } (checks true true), .flr 64, .stagingPieceWrite .tap 16 [],
      .evHead 0 2048, .cplHead 0 1024, .registerWrite 64 0 0, .msiXRaise 0 512].all (fun i => !i.wf) = true := by decide +kernel

theorem test_wf_refuses_records :
    [Instr.seat { cmd 0 0 0 [] with fn := 64 }, .seat { cmd 0 0 0 [] with slot := 64 }, .seat (cmd 0 0 0 (List.replicate 449 0)), .mirrorRead { stepReq with slot := 16 }, .mirrorRead { stepReq with fn := 64 },
      .tapAccess { path := .tap, index := 65536, sub := 0, write := false, offset := 0, len := 1, data := [] }, .tapAccess { path := .tap, index := 0, sub := 256, write := false, offset := 0, len := 1, data := [] },
      .frameReturn { frame1 [] with slots := List.replicate 19 freeSlot } 0].all (fun i => !i.wf) = true := by decide +kernel

/-- R131 to R150, R201: each word breaks one static rule. -/
theorem test_wf_refuses_words :
    [Instr.nop { site with die := 8 } base3, .nop { site with row := 64 } base3, .nop { site with col := 32 } base3, .nop { site with core := 64 } base3,
      .nop site { base3 with post := 1 }, .nop site { base3 with we := 1 }, .nop site { base3 with wait := 1 }, .nop siteR base3, .rwait site base3 0 1, .endProgram site base3,
      .mma site base3 { mmaOps with bAddr := 128 } .none, .mma site base3 { mmaOps with fmtB := 4 } .none, .mma site base3 { mmaOps with fmtA := 5, fmtB := 5 } .none,
      .mma site base3 { mmaOps with mode := 1 } .none, .mma site base3 { mmaOps with mode := 3 } .none, .mma site base3 mmaOps (.ptrs 0 1025),
      .vadd site base3 { vops with count := 3 }, .vadd site base3 { vops with rnd := 4 }, .vabs site base3 { vops with s2 := 1 }, .vadd site base3 { vops with s3 := 1 }, .vadd site base3 { vops with fmtS := 11 },
      .vadd site base3 { vops with fmtD := 5 }, .vqmx site base3 { vops with fmtD := 9 }, .vand site base3 { vops with fmtS := 1 },
      .sfn site base3 { d := 0, s := 0, count := 4, fn := 6, fmtD := 0, fmtS := 0, rnd := 0 }, .sstat site base3 { d := 0, s := 0, rows := 1, rowlen := 4, stats := 0, fmtS := 0 },
      .lmov site base3 { lops with soff := 128 } .none, .lmov site base3 { lops with ssp := 2, dsp := 2 } .none, .lmov site base3 { lops with fmtD := 11 } .none, .lmov site base3 lops (.ptrs 0 1),
      .lgath site base3 lops (.ptrs 0 1), .lscat site base3 { lops with dsp := 2 } .none, .lda site base3 { dreg := 0, ssp := 0, soff := 0 },
      .wstream siteR baseR { block := 0, doff := 0, nblk := 1, mset := 0, fmtS := 3, fmtD := 3 }, .wstream site base3 { block := 0, doff := 0, nblk := 65, mset := 0, fmtS := 3, fmtD := 3 },
      .wstream site base3 { block := 0, doff := 0, nblk := 1, mset := 0, fmtS := 3, fmtD := 4 }, .repeatFrame site base3 { count := 1, period := 64, body := 0, stepreg := 0, step := 0 },
      .seta site base3 0 0, .adda site base3 0 0, .addid site base3 1 5 0, .region site base3 { num := 16, store := 0, base := 0, len := 1, access := 1 }, .region site base3 { num := 0, store := 1, base := 0, len := 1, access := 0 },
      .rfree site base3 16 0].all (fun i => !i.wf) = true := by decide

theorem test_wf_admits :
    [Instr.sheetDb 63 15 [], .seat (cmd 0 0 0 []), .nop site base3, .mma site base3 mmaOps .none, .vadd site base3 vops, .lmov site base3 lops .none, .nop siteR baseR, .rwait siteR baseR 63 1, .endProgram siteR baseR,
      .mirrorRead stepReq, .msiXRaise 63 511].all Instr.wf = true := by decide

/-! ## Cases of the spec's chapters -/

/-- Chapter 7, Case 1: x = 0x40490FDB in four formats. -/
theorem test_convert_one_value :
    [bf16.encode 0 false (fp32.decode 0x40490FDB), e4m3.encode 0 false (fp32.decode 0x40490FDB), e4m3.encode 1 false (fp32.decode 0x40490FDB), e5m2.encode 0 false (fp32.decode 0x40490FDB)]
      = [0x4049, 0x45, 0x44, 0x42] := by decide

/-- Chapter 7, Case 2: its pieces. -/
theorem test_pieces_of_x : (splitPieces 0x40490FDB).map (bf16.encode 0 false) = [0x4049, 0x3A7D, 0x3630] := by decide

/-- Chapter 7, Case 3: a block in MXFP4, amax 13. -/
theorem test_block_in_mxfp4 :
    quantBlock 9 0 ([fp32.decode 0x41500000, fp32.decode 0xC0200000, fp32.decode 0x3E99999A] ++ List.replicate 29 Machine.Num.zero) = (0x80, [7, 0xA, 0] ++ List.replicate 29 0) := by decide

/-- Chapter 7, Case 4: saturation at 40 bits and the tile pair after it. -/
theorem test_saturate40 :
    saturate40 (549755803888 + 65024) = (549755813887, true) ∧ saturate40 (549755813887 - 65024) = (549755748863, false) := by decide

/-- Chapter 8, Case 1: two slots of group 2, segment 69 of slot 4. -/
def actTables : List (Nat × Bytes) :=
  [(3, record 3136 [(0, 4, 0xC1000000), (4, 1, 0xFB), (5, 1, 2), (6, 1, 1)]),
   (4, record 3136 [(0, 4, 0xBF800000), (4, 1, 0xFC), (5, 1, 2), (6, 1, 8), (0x40 + 12 * 69, 4, 0x40500000), (0x44 + 12 * 69, 4, 0x3F800000)])]

theorem test_two_slot_activation :
    [toFp32 (fnValue actTables 35 (fp32.decode 0x40560000)), toFp32 (fnValue actTables 36 (fp32.decode 0x40560000)), toFp32 (fnValue actTables 35 (fp32.decode 0x41A00000)),
      toFp32 (fnValue actTables 35 (fp32.decode 0xC1100000)), toFp32 (fnValue actTables 35 .nan)] = [0x40520000, 0x40520000, 0x41A00000, 0, 0x7FC00000] := by decide +kernel

/-- Chapter 8, Case 2: a merge over four elements; merged with a run whose m is -infinity the triple stays. -/
def triple (m l : Nat) (a : List Nat) : Bytes := packElems 32 ([m, l] ++ List.replicate 14 0 ++ a)

def merged : Bytes := triple 0x40400000 0x40600000 [0x40400000, 0xC0000000, 0x3F800000, 0x40400000]

theorem test_merge_of_triples :
    mergeTriples 4 (triple 0x40400000 0x40200000 [0x3F800000, 0xC0000000, 0x3F000000, 0x40800000]) (triple 0x3F800000 0x40800000 [0x41000000, 0, 0x40000000, 0xC0800000]) = merged
      ∧ mergeTriples 4 merged (triple 0xFF800000 0 [0, 0, 0, 0]) = merged := by decide +kernel

/-- R139: the first four tiles of the Hilbert order over 4 by 4. -/
theorem test_hilbert_order : (visitOrder 0 4 4).take 4 = [(0, 0), (0, 1), (1, 1), (1, 0)] := by decide

/-- Chapter 9, Case 1: the walk to a 2 MiB page. -/
def walkState (l2 : Bytes) : State :=
  State.hbmWrite (State.hbmWrite { run with mem := { contexts := [(679, { valid := true, l1Log := 10, l1Base := 0x1200000000 })] } } 0x1200000820 (toLe 0x0000001200100001 8)) 0x12001008D0 l2

theorem test_walk_to_2mib :
    (walk (walkState (toLe 0x000000124060000F 8)) 679 0x4123456780).toOption.map (fun x => (x.pa, x.size, x.r, x.w)) = some (0x1240656780, 2097152, true, true) := by decide

/-- The same walk with a target in the seat store. -/
theorem test_walk_to_device_region : walk (walkState (toLe 0x0000C0000400000F 8)) 679 0x4123456780 = .error .deviceRegion := by decide

/-- Chapter 6, Cases 1 to 3: two hops east; 45 hops; a cast from C1.20.31 to all of C2. -/
theorem test_tile_latency :
    [16 + hopCycles (cstoreKey 4 12 7) (cstoreKey 4 12 9), 32 + hopCycles (cstoreKey 3 10 5) (cstoreKey 3 40 20),
      64 + castCycles (cstoreKey 1 20 31) { dieMask := 4, rowLo := 0, rowHi := 63, colLo := 0, colHi := 31 } [cstoreKey 2 0 0]] = [28, 130, 182] := by decide

/-- Chapter 12, Case 2: die C2 with physical columns 5, 30 and then 21 retired. -/
def shortDie : State := { run with nv := { field := { dies := [{}, {}, { retired := 0x40200020 }] } } }

theorem test_short_deck_columns :
    [0, 4, 5, 19, 20, 27, 28, 29].map (fun c => shortDie.physCol 2 c) = [some 0, some 4, some 6, some 20, some 22, some 29, some 31, some 32] ∧ shortDie.deck 2 = 1 := by decide

/-- Chapter 2, Case 1: device 2, grade B with a guard of 1 ns. -/
theorem test_effective_tmin :
    State.effTmin { run with factory := { grade := 1 }, repair := { agingGuard := 1 } } { form9 with cert := { form9.cert with tmin := [41, 44, 0, 0] } } = 45 := by decide

/-- Chapter 14, Case 1: the lap of sixteen devices. -/
theorem test_lag_of_lap : lagOf 5034 = 1 := by decide

/-- Chapter 16, Case 1: Tj 95.4 asks for 44 ns, and the STRETCH_REQ event is posted. -/
theorem test_thermal_raise :
    (match exec (.thermalEvaluation { temps := List.replicate 9 (some 954), power := 1000 }) (deals9 7) with
      | .next t => (t.cad.stretchReq, t.power.thermal, (t.fn 0).evRing.map (fun r => (r.2.cls, r.2.w2))) | _ => (0, 0, [])) = (44, 1, [(9, 44)]) := by decide

/-! ## Words of the queues, from Tables 5.4 to 5.12 -/

/-- Queue S: SFN of FN 35, ISSUE 3. -/
theorem test_decode_sfn : decodeSvis false 0x40000000180000020202118010000000#128 none = .ok (base3, .sfn { d := 2, s := 1, count := 16, fn := 35, fmtD := 0, fmtS := 0, rnd := 1 }) := by decide

/-- Queue V: VFMA, ISSUE 3. -/
theorem test_decode_vfma : decodeSvis false 0x23000000180000020610280409880000#128 none = .ok (base3, .vec .fma { d := 2, s1 := 3, s2 := 4, s3 := 5, count := 8, fmtD := 1, fmtS := 3, rnd := 0, sat := 1, bcast := 0 }) := by decide

/-- Queue L: LMOV from the core store to virtual line offset 0x80000, ISSUE 3. -/
theorem test_decode_lmov : decodeSvis false 0x60000000180000000005500000020000#128 none = .ok (base3, .lmov { ssp := 0, soff := 5, dsp := 2, doff := 0x80000, count := 16, fmtS := 0, fmtD := 0, rnd := 0, sat := 0 } .none) := by decide

/-- Queue X: XPUT to C4.12.9, ISSUE 3. -/
theorem test_decode_xput : decodeSvis false 0x800000001800000010862600038024A0#128 none = .ok (base3, .xput { ssp := 0, soff := 16, die := 4, row := 12, col := 9, dsp := 1, dcore := 0, doff := 7, count := 4, rpe := 1, rchip := 5, rel := 0 }) := by decide

/-- Queue C: SETA of A1 with 0x40, ISSUE 3. -/
theorem test_decode_seta : decodeSvis false 0xA2000000180000080000000002000000#128 none = .ok (base3, .seta 1 0x40) := by decide

/-- Chapter 14, Case 1: words 2 to 10 of the header. -/
theorem test_header_words :
    (headerWords { ok := true, rsvd := false, round := 7, curDeal := 1000000, stampTrick := 50000, curPeriod := 40, nextLen := 131072, nextPeriod := 40, stretchPend := false, bankerId := 0, void := false, accDelay := 24 }).drop 1 =
      [0, 0xF, 0x4240, 0x2800, 0xC350, 0x2802, 0, 0, 24] := by decide

/-- Table 13.1: TYPE, SEQ and ACK fill the first 28 bits of a flit, FIRST is bit 35. -/
theorem test_flit_header : (flitHeader { flit 1 true [] with seq := 0xABC, ack := 0x123, len := 8 }).take 12 = [0x1A, 0xBC, 0x12, 0x30, 0, 0, 0, 0x88, 0, 0, 0, 0] := by decide

/-! ## The queue -/

theorem test_idle_step : step run = .next run := rfl
theorem test_no_table_word : (run.withFetchWord 8 5) = run ∧ decodeTableWord 8 5 = none := by decide

/-! ## The hypotheses of the statements can be met -/

theorem test_wit_StepRunsFrontCommand :
    (∃ (s : State), s.pending = []) :=
  ⟨run, by decide⟩

theorem test_wit_EdgesMoveTheTrick :
    (∃ (off : ℤ) (s : State), s.dealing = true ∧ s.cad.period ≠ 0 ∧ s.cad.len ≠ some (s.cad.trick + 1) ∧ -4000 ≤ s.edgeOff off ∧ s.edgeOff off ≤ 4000)
    ∧ (∃ (off : ℤ) (s : State), s.dealing = true ∧ s.cad.period ≠ 0 ∧ s.cad.len ≠ some (s.cad.trick + 1) ∧ -4000 ≤ s.edgeOff off ∧ s.edgeOff off ≤ 4000)
    ∧ (∃ (off : ℤ) (s : State), (s.dealing = true ∨ s.cad.st = CadState.ready ∨ s.cad.st = CadState.acquiring) ∧ s.cad.period ≠ 0 ∧ (s.edgeOff off < -4000 ∨ 4000 < s.edgeOff off))
    ∧ (∃ (off : ℤ) (s : State), s.dealing = true ∧ s.cad.period ≠ 0 ∧ s.cad.len ≠ some (s.cad.trick + 1) ∧ -4000 ≤ s.edgeOff off ∧ s.edgeOff off ≤ 4000)
    ∧ (∃ (off : ℤ) (s : State), s.dealing = true ∧ s.cad.period ≠ 0 ∧ s.cad.len ≠ some (s.cad.trick + 1) ∧ -4000 ≤ s.edgeOff off ∧ s.edgeOff off ≤ 4000)
    ∧ (∃ (off : ℤ) (s : State), (s.dealing = true ∨ s.cad.st = CadState.ready ∨ s.cad.st = CadState.acquiring) ∧ s.cad.period ≠ 0 ∧ (s.edgeOff off < -4000 ∨ 4000 < s.edgeOff off))
    ∧ (∃ (off : ℤ) (s : State), (s.dealing = true ∨ s.cad.st = CadState.ready ∨ s.cad.st = CadState.acquiring) ∧ s.cad.period ≠ 0 ∧ (s.edgeOff off < -4000 ∨ 4000 < s.edgeOff off))
    ∧ (∃ (s : State), (s.cad.st = CadState.unlocked ∨ s.cad.st = CadState.left))
    ∧ (∃ (s : State), s.dealing = true ∧ s.cad.period ≠ 0 ∧ s.cad.missRun < 16 ∧ s.cad.len ≠ some (s.cad.trick + 1)) :=
  ⟨⟨4000, deals 7, by decide, by decide, by decide, by decide, by decide⟩,
   ⟨-4000, deals 7, by decide, by decide, by decide, by decide, by decide⟩,
   ⟨4001, deals 7, by decide, by decide, by decide⟩,
   ⟨4000, deals 7, by decide, by decide, by decide, by decide, by decide⟩,
   ⟨-4000, deals 1021, by decide, by decide, by decide, by decide, by decide⟩,
   ⟨4001, deals 7, by decide, by decide, by decide⟩,
   ⟨-4001, { run with cad := { st := .ready, period := 40, startPs := 50000 } }, by decide, by decide, by decide⟩,
   ⟨{ run with cad := { st := .left } }, by decide⟩,
   ⟨{ deals 7 with cad := { (deals 7).cad with missRun := 15 } }, by decide, by decide, by decide, by decide⟩⟩

theorem test_wit_MarkBeginsNextDeal :
    (∃ (edge : Option ℤ) (s : State) (l : Nat), s.cad.len = some l ∧ s.cad.trick + 1 = l ∧ s.cad.period ≠ 0 ∧ s.cad.decided = true ∧ s.cad.stretchReq = 0 ∧ s.start.resetReq = false ∧ (match edge with | some off => (s.dealing = true ∨ s.cad.st = CadState.ready) ∧ -4000 ≤ s.edgeOff off ∧ s.edgeOff off ≤ 4000 | none => s.dealing = true ∧ s.cad.missRun < 16))
    ∧ (∃ (edge : Option ℤ) (s : State) (l : Nat), s.cad.len = some l ∧ s.cad.trick + 1 = l ∧ s.cad.period ≠ 0 ∧ s.cad.decided = true ∧ s.cad.stretchReq = 0 ∧ s.start.resetReq = false ∧ (match edge with | some off => (s.dealing = true ∨ s.cad.st = CadState.ready) ∧ -4000 ≤ s.edgeOff off ∧ s.edgeOff off ≤ 4000 | none => s.dealing = true ∧ s.cad.missRun < 16)) :=
  ⟨⟨some 4000, { deals 1023 with cad := { (deals 1023).cad with decided := true } }, 1024, by decide, by decide, by decide, by decide, by decide, by decide, by decide⟩,
   ⟨none, { deals 1023 with cad := { (deals 1023).cad with decided := true, missRun := 15, latch := some (2048, 50) } }, 1024, by decide, by decide, by decide, by decide, by decide, by decide, by decide⟩⟩

theorem test_wit_MissedEdgesSeamAndHint :
    (∃ (s : State), s.dealing = true ∧ s.cad.missRun = 16)
    ∧ (∃ (s : State), s.cad.st = CadState.acquiring ∧ s.cad.period ≠ 0)
    ∧ (∃ (s : State), s.cad.st = CadState.ready)
    ∧ (∃ (s : State), s.cad.st = CadState.left ∧ s.dealer.toPost = [] ∧ s.cad.holdThermal = false ∧ s.cad.holdHub = false)
    ∧ (∃ (s : State) (n : Nat), s.left = some n ∧ s.dealing = true ∧ 8000 ≤ n * s.cad.period ∧ (n - 1) * s.cad.period < 8000 ∧ (∃ p, s.dealer.selected = some p ∧ p.formId.isSome = true))
    ∧ (∃ (s : State), s.dealing = true ∧ s.left = some 256)
    ∧ (∃ (s : State), s.dealing = true ∧ s.cad.drained = false ∧ s.left = some 193)
    ∧ (∃ (s : State), (s.cad.st = CadState.unlocked ∨ s.cad.st = CadState.acquiring ∨ s.cad.st = CadState.left)) :=
  ⟨⟨{ deals 7 with cad := { (deals 7).cad with st := .flywheel, missRun := 16 } }, by decide, by decide⟩,
   ⟨{ run with cad := { st := .acquiring, period := 40, startPs := 5 } }, by decide, by decide⟩,
   ⟨{ run with cad := { st := .ready, period := 40, len := some 1024 }, dealer := { selected := some idlePlan } }, by decide⟩,
   ⟨{ run with cad := { st := .left } }, by decide, by decide, by decide, by decide⟩,
   ⟨{ deals 824 with forms := [form9], dealer := { selected := some plan9 } }, 200, by decide, by decide, by decide, by decide, ⟨_, rfl, by decide⟩⟩,
   ⟨deals 768, by decide, by decide⟩,
   ⟨{ deals 831 with forms := [form9], dealer := { running := some plan9 } }, by decide, by decide, by decide⟩,
   ⟨{ run with cad := { st := .left, trim := 300, delayLine := 40 } }, by decide⟩⟩

theorem test_wit_DealsAreDecided :
    (∃ (s : State), s.dealing = true ∧ s.cad.decided = false ∧ s.left = some 64)
    ∧ (∃ (s : State) (ps : List Bool) (rs : List Bool), ((s.dealer.checks.any fun x => x.running) = true ∨ s.dealer.rereads ≠ []) ∧ ((List.filter (fun x => x.running) s.dealer.checks).length ≤ ps.length) ∧ s.dealer.rereads.length ≤ rs.length ∧ ((List.filter (fun x => x.running) s.dealer.checks).Nodup) ∧ s.dealer.rereads.Nodup)
    ∧ (∃ (s : State), s.dealing = true ∧ s.cad.decided = false ∧ s.left = some 64 ∧ (∃ p, s.dealer.running = some p ∧ p.formId = none ∧ p.entries = [] ∧ p.slotFolds = []) ∧ s.dealer.causes = [] ∧ s.dealer.poisonReads = [] ∧ s.dealer.foreignWrites = [] ∧ s.dealer.holds = [] ∧ s.group.records = [] ∧ s.repair.suspects = [])
    ∧ (∃ (s : State), s.dealing = true ∧ s.cad.decided = false ∧ s.left = some 64)
    ∧ (∃ (s : State), s.mayCut = true ∧ s.cutoffTrick = some s.cad.trick) :=
  ⟨⟨{ deals 960 with forms := [form9], seats := [(4, { state := 2 })], dealer := { running := some plan9 } }, by decide, by decide, by decide⟩,
   ⟨{ deals 960 with dealer := { checks := [{ unit := .hub, rank := 3, detail := 0x37, deal := 4, running := true }] } }, [true], [], by decide, by decide, by decide, by decide, by decide⟩,
   ⟨{ deals 960 with dealer := { running := some idlePlan } }, by decide, by decide, by decide, ⟨_, rfl, by decide⟩, by decide, by decide, by decide, by decide, by decide, by decide⟩,
   ⟨{ deals 960 with forms := [form9], seats := [(4, { state := 2 })], dealer := { running := some plan9, causes := [{ deal := 5, rank := 9, detail := 0, member := 0, remote := false, slot := 0xFFF, die := 0, place := 0, repair := false }] } }, by decide, by decide, by decide⟩,
   ⟨{ deals9 700 with cad := { (deals9 700).cad with st := .flywheel } }, by decide, by decide⟩⟩

theorem test_wit_SheetDoorbell :
    (∃ (buf : Nat) (s : State), s.start.stage = 2 ∧ buf < 16 ∧ buf ∉ s.host.sheetBusy)
    ∧ (∃ (s : State), s.start.stage ≠ 2)
    ∧ (∃ (fn : Nat) (buf : Nat) (s : State), s.start.stage = 2 ∧ (fn ≠ 0 ∨ 16 ≤ buf ∨ buf ∈ s.host.sheetBusy)) :=
  ⟨⟨15, run, by decide, by decide, by decide⟩,
   ⟨{ run with start := { up := true, stage := 1 } }, by decide⟩,
   ⟨1, 16, run, by decide, by decide⟩⟩

theorem test_wit_SheetArrivalStatus :
    (∃ (buf : Nat) (b : Bytes) (s : State), buf ∈ s.host.sheetBusy ∧ buf ∉ s.host.sheetMute ∧ aget buf s.host.sheetBuf = some b ∧ parseSheet b = none)
    ∧ (∃ (buf : Nat) (b : Bytes) (sh : Sheet) (s : State), buf ∈ s.host.sheetBusy ∧ buf ∉ s.host.sheetMute ∧ aget buf s.host.sheetBuf = some b ∧ parseSheet b = some sh ∧ sh.standing = false ∧ s.dealing = true ∧ (sh.target ≤ s.cad.deal ∨ sh.target = s.cad.deal + 1 ∧ s.cutoffPassed = true))
    ∧ (∃ (buf : Nat) (b : Bytes) (sh : Sheet) (s : State), buf ∈ s.host.sheetBusy ∧ buf ∉ s.host.sheetMute ∧ aget buf s.host.sheetBuf = some b ∧ parseSheet b = some sh ∧ sh.standing = false ∧ s.dealing = true ∧ s.cad.deal + 8 < sh.target)
    ∧ (∃ (buf : Nat) (b : Bytes) (sh : Sheet) (s : State), buf ∈ s.host.sheetBusy ∧ buf ∉ s.host.sheetMute ∧ aget buf s.host.sheetBuf = some b ∧ parseSheet b = some sh ∧ sh.standing = false ∧ s.dealing = true ∧ s.cad.deal + 1 < sh.target ∧ sh.target ≤ s.cad.deal + 8 ∧ sh.cut = false ∧ (∃ x ∈ s.dealer.sheets, x.target = sh.target ∧ x.cut = false))
    ∧ (∃ (buf : Nat) (b : Bytes) (sh : Sheet) (s : State), buf ∈ s.host.sheetBusy ∧ buf ∉ s.host.sheetMute ∧ aget buf s.host.sheetBuf = some b ∧ parseSheet b = some sh ∧ sh.standing = false ∧ s.dealing = true ∧ s.cad.deal + 1 < sh.target ∧ sh.target ≤ s.cad.deal + 8 ∧ sh.cut = false ∧ (∀ x ∈ s.dealer.sheets, x.target = sh.target → x.cut = true) ∧ (∀ (f : Form), s.form sh.formId = some f → f.unload = [] ∧ f.revoked = false ∧ s.certified f = true ∧ fillsBad f sh = false ∧ sheetOverfull f sh = false) ∧ s.form sh.formId ≠ none) :=
  ⟨⟨15, [1], sheetIn run [1], by decide, by decide, by decide, by decide⟩,
   ⟨15, sheet 0 5, sheet9 false false 5, sheetIn (deals9 7) (sheet 0 5), by decide, by decide, by rfl, by simp only [parseSheet, sheet, crc32cSkip, crc32c, crcGo_eq]; decide +kernel, by decide, by decide, by decide⟩,
   ⟨15, sheet 0 14, sheet9 false false 14, sheetIn (deals9 7) (sheet 0 14), by decide, by decide, by rfl, by simp only [parseSheet, sheet, crc32cSkip, crc32c, crcGo_eq]; decide +kernel, by decide, by decide, by decide⟩,
   ⟨15, sheet 0 13, sheet9 false false 13, { sheetIn (deals9 7) (sheet 0 13) with dealer := { (deals9 7).dealer with sheets := [sheet9 true false 13, sheet9 false false 13] } }, by decide, by decide, by rfl, by simp only [parseSheet, sheet, crc32cSkip, crc32c, crcGo_eq]; decide +kernel, by decide, by decide, by decide, by decide, by decide, ⟨_, .tail _ (.head _), rfl, rfl⟩⟩,
   ⟨15, sheet 0 7, sheet9 false false 7, { sheetIn (deals9 7) (sheet 0 7) with dealer := { (deals9 7).dealer with sheets := [sheet9 true false 7] } }, by decide, by decide, by rfl, by simp only [parseSheet, sheet, crc32cSkip, crc32c, crcGo_eq]; decide +kernel, by decide, by decide, by decide, by decide, by decide, by decide, all_some rfl (by decide), by decide⟩⟩

theorem test_wit_CutSheetsAndCutoff :
    (∃ (buf : Nat) (b : Bytes) (sh : Sheet) (x : Sheet) (s : State), buf ∈ s.host.sheetBusy ∧ buf ∉ s.host.sheetMute ∧ aget buf s.host.sheetBuf = some b ∧ parseSheet b = some sh ∧ sh.standing = false ∧ sh.cut = true ∧ s.dealing = true ∧ s.cad.deal + 1 < sh.target ∧ sh.target ≤ s.cad.deal + 8 ∧ (∀ (f : Form),   s.form sh.formId = some f →     f.unload = [] ∧ f.revoked = false ∧ s.certified f = true ∧ fillsBad f sh = false ∧ sheetOverfull f sh = false) ∧ s.form sh.formId ≠ none ∧ (List.filter (fun y => decide (y.target = sh.target)) s.dealer.sheets = [x]) ∧ x.mute = false)
    ∧ (∃ (s : State) (p : Plan) (f : Form), s.dealing = true ∧ s.cad.cutDone = false ∧ s.dealer.running = some p ∧ p.form s = some f ∧ s.cad.trick = f.cutoff)
    ∧ (∃ (s : State), (s.cutoffTrick ≠ some s.cad.trick ∨ s.cad.cutDone = true)) :=
  ⟨⟨15, sheet 1 7, sheet9 true false 7, sheet9 false false 7, { sheetIn (deals9 7) (sheet 1 7) with dealer := { (deals9 7).dealer with sheets := [sheet9 false false 7] } }, by decide, by decide, by rfl, by simp only [parseSheet, sheet, crc32cSkip, crc32c, crcGo_eq]; decide +kernel, by decide, by decide, by decide, by decide, by decide, all_some rfl (by decide), by decide, by decide, by decide⟩,
   ⟨{ deals9 700 with dealer := { (deals9 700).dealer with sheets := [sheet9 false false 6, sheet9 false false 7], standingNext := some (sheet9 false true 0) } }, plan9, form9, by decide, by decide, by decide, by decide, by decide⟩,
   ⟨deals9 701, by decide⟩⟩

theorem test_wit_SeatCommands :
    (∃ (c : CmdSlot) (s : State), Admitted s c false (some (parseSeat c.payload).account) ∧ argHigh c.arg0 17 = false ∧ c.arg1 = 0 ∧ c.arg2 = 0 ∧ (s.seat (BitVec.toNat c.arg0)).state = 0 ∧ s.recordBad (parseSeat c.payload) = false)
    ∧ (∃ (c : CmdSlot) (s : State), Admitted s c false (some (parseSeat c.payload).account) ∧ argHigh c.arg0 17 = false ∧ c.arg1 = 0 ∧ c.arg2 = 0 ∧ (s.seat (BitVec.toNat c.arg0)).state ≠ 0)
    ∧ (∃ (c : CmdSlot) (s : State), Admitted s c false (some (parseSeat c.payload).account) ∧ argHigh c.arg0 17 = false ∧ c.arg1 = 0 ∧ c.arg2 = 0 ∧ (s.seat (BitVec.toNat c.arg0)).state = 0 ∧ s.recordBad (parseSeat c.payload) = true)
    ∧ (∃ (c : CmdSlot) (s : State), Admitted s c false (some (s.seat (BitVec.toNat c.arg0)).account) ∧ argHigh c.arg0 17 = false ∧ c.arg1 = 0 ∧ c.arg2 = 0 ∧ ((s.seat (BitVec.toNat c.arg0)).state = 3 ∨ (s.seat (BitVec.toNat c.arg0)).state = 4))
    ∧ (∃ (c : CmdSlot) (s : State), Admitted s c false (some (s.seat (BitVec.toNat c.arg0)).account) ∧ argHigh c.arg0 17 = false ∧ c.arg1 = 0 ∧ c.arg2 = 0 ∧ (s.seat (BitVec.toNat c.arg0)).state ≠ 3 ∧ (s.seat (BitVec.toNat c.arg0)).state ≠ 4)
    ∧ (∃ (c : CmdSlot) (s : State), Admitted s c false (some (s.seat (BitVec.toNat c.arg0)).account) ∧ argHigh c.arg0 17 = false ∧ c.arg1 = 0 ∧ c.arg2 = 0 ∧ ((s.seat (BitVec.toNat c.arg0)).state = 1 ∨ (s.seat (BitVec.toNat c.arg0)).state = 2) ∧ planNames s.dealer.running (BitVec.toNat c.arg0) = false ∧ planNames s.dealer.selected (BitVec.toNat c.arg0) = false ∧ planNames s.dealer.redeal (BitVec.toNat c.arg0) = false)
    ∧ (∃ (c : CmdSlot) (s : State), Admitted s c false (some (s.seat (BitVec.toNat c.arg0)).account) ∧ argHigh c.arg0 17 = false ∧ c.arg1 = 0 ∧ c.arg2 = 0 ∧ ((s.seat (BitVec.toNat c.arg0)).state = 1 ∨ (s.seat (BitVec.toNat c.arg0)).state = 2) ∧ s.dealing = true ∧ planNames s.dealer.running (BitVec.toNat c.arg0) = true ∧ s.causeDeal = s.cad.deal ∧ s.group.binding = none)
    ∧ (∃ (c : CmdSlot) (s : State), Admitted s c false (some (s.seat (BitVec.toNat c.arg0)).account) ∧ argHigh c.arg0 17 = false ∧ c.arg1 = 0 ∧ c.arg2 = 0 ∧ (s.seat (BitVec.toNat c.arg0)).state ≠ 1 ∧ (s.seat (BitVec.toNat c.arg0)).state ≠ 2)
    ∧ (∃ (c : CmdSlot) (s : State), Admitted s c false (some (s.seat (BitVec.toNat c.arg0)).account) ∧ argHigh c.arg0 17 = false ∧ c.arg1 = 0 ∧ c.arg2 = 0 ∧ (s.seat (BitVec.toNat c.arg0)).state = 3 ∧ s.recordBad (s.seat (BitVec.toNat c.arg0)) = false)
    ∧ (∃ (c : CmdSlot) (s : State), Admitted s c false (some (s.seat (BitVec.toNat c.arg0)).account) ∧ argHigh c.arg0 17 = false ∧ c.arg1 = 0 ∧ c.arg2 = 0 ∧ (s.seat (BitVec.toNat c.arg0)).state ≠ 3)
    ∧ (∃ (c : CmdSlot) (s : State), Admitted s c false (some (s.seat (BitVec.toNat c.arg0)).account) ∧ argHigh c.arg0 17 = false ∧ c.arg1 = 1 ∧ c.arg2 = 0 ∧ (s.seat (BitVec.toNat c.arg0)).state = 3 ∧ s.acts c.fn (parseSeat c.payload).account = true ∧ s.recordBad (parseSeat c.payload) = false ∧ (s.seat (BitVec.toNat c.arg0)).rsvd = false)
    ∧ (∃ (c : CmdSlot) (s : State), Admitted s c false (some (s.seat (BitVec.toNat c.arg0)).account) ∧ argHigh c.arg0 17 = false ∧ c.arg1 = 0 ∧ c.arg2 = 0)
    ∧ (∃ (c : CmdSlot) (s : State) (p : Plan), Admitted s c true none ∧ c.arg0 = 0 ∧ c.arg1 = 0 ∧ c.arg2 = 0 ∧ s.dealing = true ∧ s.causeDeal = s.cad.deal ∧ s.dealer.running = some p ∧ p.formId ≠ none ∧ s.group.binding = none)
    ∧ (∃ (c : CmdSlot) (s : State), Admitted s c true none ∧ c.arg0 = 0 ∧ c.arg1 = 0 ∧ c.arg2 = 0 ∧ s.dealing = false) :=
  ⟨⟨cmd 4 0 0 (seatBytes { plan := 0x1002 }), run, admitted_of (by decide), by decide, by decide, by decide, by decide, by decide⟩,
   ⟨cmd 0x1FFFF 0 0 (seatBytes {}), { run with seats := [(0x1FFFF, { state := 1 })] }, admitted_of (by decide), by decide, by decide, by decide, by decide⟩,
   ⟨cmd 0 0 0 (seatBytes {}), run, admitted_of (by decide), by decide, by decide, by decide, by decide, by decide⟩,
   ⟨cmd 4 0 0 [], { run with seats := [(4, { state := 4, step := 3 })] }, admitted_of (by decide), by decide, by decide, by decide, by decide⟩,
   ⟨cmd 4 0 0 [], run, admitted_of (by decide), by decide, by decide, by decide, by decide, by decide⟩,
   ⟨cmd 5 0 0 [], { deals9 7 with seats := [(5, { state := 1 })] }, admitted_of (by decide), by decide, by decide, by decide, by decide, by decide, by decide, by decide⟩,
   ⟨cmd 4 0 0 [], deals9 960, admitted_of (by decide), by decide, by decide, by decide, by decide, by decide, by decide, by decide, by decide⟩,
   ⟨cmd 4 0 0 [], run, admitted_of (by decide), by decide, by decide, by decide, by decide, by decide⟩,
   ⟨cmd 4 0 0 [], { run with seats := [(4, { state := 3, heldCause := 0x18, step := 3, plan := 0x1002 })] }, admitted_of (by decide), by decide, by decide, by decide, by decide, by decide⟩,
   ⟨cmd 4 0 0 [], run, admitted_of (by decide), by decide, by decide, by decide, by decide⟩,
   ⟨cmd 4 1 0 (seatBytes { plan := 0x2001, residency := 0xFFFF }), { run with seats := [(4, { state := 3, step := 3, plan := 0x1002 })] }, admitted_of (by decide), by decide, by decide, by decide, by decide, by decide, by decide, by decide⟩,
   ⟨cmd 4 0 0 [], { run with seats := [(4, { state := 3, step := 3, plan := 0x1002 })] }, admitted_of (by decide), by decide, by decide, by decide⟩,
   ⟨cmd 0 0 0 [], deals9 960, plan9, admitted_of (by decide), by decide, by decide, by decide, by decide, by decide, by decide, by decide, by decide⟩,
   ⟨cmd 0 0 0 [], run, admitted_of (by decide), by decide, by decide, by decide, by decide⟩⟩

theorem test_wit_FormsLoadAndUnload :
    (∃ (c : CmdSlot) (img : FormImage) (s : State) (u : State), Admitted s c true none ∧ argHigh c.arg0 29 = false ∧ argHigh c.arg1 32 = false ∧ imageReadable (s.cmdTaken c) (bits (BitVec.toNat c.arg0) 0 12) (bits (BitVec.toNat c.arg2) 48 16)     (bits (BitVec.toNat c.arg2) 0 48) =   (true, u) ∧ Loadable s img   (parseForm img (bits (BitVec.toNat c.arg0) 0 12)     (if bit (BitVec.toNat c.arg0) 28 = true then some (bits (BitVec.toNat c.arg0) 12 16) else none)) ∧ BitVec.toNat c.arg1 = s.repair.generation.toNat)
    ∧ (∃ (c : CmdSlot) (img : FormImage) (s : State) (u : State), Admitted s c true none ∧ argHigh c.arg0 29 = false ∧ argHigh c.arg1 32 = false ∧ imageReadable (s.cmdTaken c) (bits (BitVec.toNat c.arg0) 0 12) (bits (BitVec.toNat c.arg2) 48 16)     (bits (BitVec.toNat c.arg2) 0 48) =   (true, u) ∧ Loadable s img   (parseForm img (bits (BitVec.toNat c.arg0) 0 12)     (if bit (BitVec.toNat c.arg0) 28 = true then some (bits (BitVec.toNat c.arg0) 12 16) else none)) ∧ BitVec.toNat c.arg1 ≠ s.repair.generation.toNat)
    ∧ (∃ (c : CmdSlot) (img : FormImage) (s : State) (u : State), Admitted s c true none ∧ argHigh c.arg0 29 = false ∧ argHigh c.arg1 32 = false ∧ imageReadable (s.cmdTaken c) (bits (BitVec.toNat c.arg0) 0 12) (bits (BitVec.toNat c.arg2) 48 16) (bits (BitVec.toNat c.arg2) 0 48) = (true, u) ∧ containerBad img = false ∧ (s.rangeBad (parseForm img (bits (BitVec.toNat c.arg0) 0 12) (if bit (BitVec.toNat c.arg0) 28 = true then some (bits (BitVec.toNat c.arg0) 12 16) else none)) = false) ∧ (slotsBad (parseForm img (bits (BitVec.toNat c.arg0) 0 12) (if bit (BitVec.toNat c.arg0) 28 = true then some (bits (BitVec.toNat c.arg0) 12 16) else none)) = false) ∧ (winsBad (parseForm img (bits (BitVec.toNat c.arg0) 0 12) (if bit (BitVec.toNat c.arg0) 28 = true then some (bits (BitVec.toNat c.arg0) 12 16) else none)) = false) ∧ (nativeOk (parseForm img (bits (BitVec.toNat c.arg0) 0 12) (if bit (BitVec.toNat c.arg0) 28 = true then some (bits (BitVec.toNat c.arg0) 12 16) else none)).dieMask (parseForm img (bits (BitVec.toNat c.arg0) 0 12) (if bit (BitVec.toNat c.arg0) 28 = true then some (bits (BitVec.toNat c.arg0) 12 16) else none)).shortMask (parseForm img (bits (BitVec.toNat c.arg0) 0 12) (if bit (BitVec.toNat c.arg0) 28 = true then some (bits (BitVec.toNat c.arg0) 12 16) else none)).slots.length (parseForm img (bits (BitVec.toNat c.arg0) 0 12) (if bit (BitVec.toNat c.arg0) 28 = true then some (bits (BitVec.toNat c.arg0) 12 16) else none)).native = true) ∧ (((parseForm img (bits (BitVec.toNat c.arg0) 0 12) (if bit (BitVec.toNat c.arg0) 28 = true then some (bits (BitVec.toNat c.arg0) 12 16) else none)).native.streams.any fun x => x.region) = false) ∧ (footsBad (parseForm img (bits (BitVec.toNat c.arg0) 0 12) (if bit (BitVec.toNat c.arg0) 28 = true then some (bits (BitVec.toNat c.arg0) 12 16) else none)) = false) ∧ (∃ g ∈ s.forms, g.id = (parseForm img (bits (BitVec.toNat c.arg0) 0 12) (if bit (BitVec.toNat c.arg0) 28 = true then some (bits (BitVec.toNat c.arg0) 12 16) else none)).id ∧ g.cert.digest = (parseForm img (bits (BitVec.toNat c.arg0) 0 12) (if bit (BitVec.toNat c.arg0) 28 = true then some (bits (BitVec.toNat c.arg0) 12 16) else none)).cert.digest))
    ∧ (∃ (c : CmdSlot) (s : State), Admitted s c true none ∧ argHigh c.arg0 16 = false ∧ c.arg1 = 0 ∧ c.arg2 = 0 ∧ (∃ g ∈ s.forms, g.id = BitVec.toNat c.arg0) ∧ s.formInUse (BitVec.toNat c.arg0) = false)
    ∧ (∃ (c : CmdSlot) (s : State), Admitted s c true none ∧ argHigh c.arg0 16 = false ∧ c.arg1 = 0 ∧ c.arg2 = 0 ∧ (∃ g ∈ s.forms, g.id = BitVec.toNat c.arg0) ∧ s.formInUse (BitVec.toNat c.arg0) = true)
    ∧ (∃ (c : CmdSlot) (s : State), Admitted s c true none ∧ argHigh c.arg0 16 = false ∧ c.arg1 = 0 ∧ c.arg2 = 0 ∧ (∀ g ∈ s.forms, g.id ≠ BitVec.toNat c.arg0))
    ∧ (∃ (id : Nat) (f : Form) (k : Ticket) (s : State), s.form id = some f ∧ f.unload = [k] ∧ s.formInUse id = false)
    ∧ (∃ (id : Nat) (s : State), s.formInUse id = true) :=
  ⟨⟨cmd 0 0 0 [], image9, run, run.cmdTaken (cmd 0 0 0 []), admitted_of (by decide +kernel), by decide +kernel, by decide +kernel, by decide +kernel, by constructor <;> decide +kernel, by decide +kernel⟩,
   ⟨cmd 0 1 0 [], image9, run, run.cmdTaken (cmd 0 1 0 []), admitted_of (by decide +kernel), by decide +kernel, by decide +kernel, by decide +kernel, by constructor <;> decide +kernel, by decide +kernel⟩,
   ⟨cmd 0 1 0 [], image9, { run with forms := [formOf9] }, State.cmdTaken { run with forms := [formOf9] } (cmd 0 1 0 []), admitted_of (by decide +kernel), by and_intros <;> decide +kernel⟩,
   ⟨cmd 9 0 0 [], { run with forms := [form9] }, admitted_of (by decide), by decide, by decide, by decide, ⟨_, .head _, rfl⟩, by decide⟩,
   ⟨cmd 9 0 0 [], deals9 7, admitted_of (by decide), by decide, by decide, by decide, ⟨_, .head _, rfl⟩, by decide⟩,
   ⟨cmd 9 0 0 [], run, admitted_of (by decide), by decide, by decide, by decide, by decide⟩,
   ⟨9, { form9 with unload := [ticket 0x11] }, ticket 0x11, { run with forms := [{ form9 with unload := [ticket 0x11] }] }, by decide, by decide, by decide⟩,
   ⟨9, deals9 7, by decide⟩⟩

theorem test_wit_ContextAndInvalidate :
    (∃ (c : CmdSlot) (s : State) (x : Context), Admitted s c true none ∧ argHigh c.arg0 12 = false ∧ c.arg1 = 0 ∧ c.arg2 = 0 ∧ parseContext (List.take 16 c.payload) = some x)
    ∧ (∃ (c : CmdSlot) (s : State), Admitted s c true none ∧ argHigh c.arg0 12 = false ∧ c.arg1 = 0 ∧ c.arg2 = 0 ∧ parseContext (List.take 16 c.payload) = none)
    ∧ (∃ (c : CmdSlot) (s : State), Admitted s c true none ∧ argHigh c.arg0 12 = false ∧ argHigh c.arg1 48 = false ∧ BitVec.toNat c.arg2 % 65536 = 0 ∧ s.rangePinned (BitVec.toNat c.arg0) (BitVec.toNat c.arg1) (BitVec.toNat c.arg2) = false)
    ∧ (∃ (c : CmdSlot) (s : State), Admitted s c true none ∧ argHigh c.arg0 12 = false ∧ argHigh c.arg1 48 = false ∧ BitVec.toNat c.arg2 % 65536 = 0 ∧ s.rangePinned (BitVec.toNat c.arg0) (BitVec.toNat c.arg1) (BitVec.toNat c.arg2) = true)
    ∧ (∃ (d : Deferred) (s : State), s.mem.deferred = [d] ∧ d.ticket.tag < 2 ^ 32 ∧ s.rangePinned d.ctx d.va d.len = false) :=
  ⟨⟨cmd 0xFFF 0 0 (record 16 [(0, 8, 0x1001)]), run, { valid := true, l1Log := 0, l1Base := 4096 }, admitted_of (by decide), by decide, by decide, by decide, by decide⟩,
   ⟨cmd 0xFFF 0 0 (record 16 [(0, 8, 0x27)]), run, admitted_of (by decide), by decide, by decide, by decide, by decide⟩,
   ⟨cmd 0 0 0x10000 [], mapped run, admitted_of (by decide), by decide, by decide, by decide, by decide⟩,
   ⟨cmd 0 0 0x10000 [], pinned (deals9 7), admitted_of (by decide), by decide, by decide, by decide, by decide⟩,
   ⟨{ ctx := 0, va := 0, len := 65536, ticket := ticket 0x21 }, mapped { run with mem := { deferred := [{ ctx := 0, va := 0, len := 65536, ticket := ticket 0x21 }] } }, by decide, by decide, by decide⟩⟩

theorem test_wit_QueueProgramPassImageAudit :
    (∃ (c : CmdSlot) (s : State), Admitted s c true none ∧ argHigh c.arg0 6 = false ∧ argHigh c.arg1 12 = false ∧ c.arg2 = 0 ∧ ((s.queue (BitVec.toNat c.arg0)).held = 0 ∨ (s.queue (BitVec.toNat c.arg0)).stopped = true))
    ∧ (∃ (c : CmdSlot) (s : State), Admitted s c true none ∧ argHigh c.arg0 6 = false ∧ argHigh c.arg1 12 = false ∧ c.arg2 = 0 ∧ (s.queue (BitVec.toNat c.arg0)).held ≠ 0 ∧ (s.queue (BitVec.toNat c.arg0)).stopped = false)
    ∧ (∃ (c : CmdSlot) (info : NativeInfo) (s : State), Admitted s c true none ∧ argHigh c.arg0 12 = false ∧ argHigh c.arg1 48 = false ∧ nativeOk 255 0 1 info = true)
    ∧ (∃ (c : CmdSlot) (s : State), Admitted s c true none ∧ c.arg2 = 0 ∧ s.vault.pass = none ∧ s.vault.passCmd = none ∧ s.dict.settings.position = 0 ∧ (s.sec.lifeCycle = 1 ∨ s.sec.lifeCycle = 2))
    ∧ (∃ (c : CmdSlot) (s : State), Admitted s c true none ∧ c.arg2 = 0 ∧ (s.vault.pass.isSome = true ∨ s.vault.passCmd.isSome = true))
    ∧ (∃ (c : CmdSlot) (s : State) (i : Nat) (e : ImageEntry), Admitted s c true none ∧ argHigh c.arg0 32 = false ∧ c.arg1 = 0 ∧ c.arg2 = 0 ∧ s.imageOf (BitVec.toNat c.arg0) = some (i, e) ∧ (∀ f ∈ s.forms, f.weightImage ≠ BitVec.toNat c.arg0))
    ∧ (∃ (c : CmdSlot) (s : State) (i : Nat) (e : ImageEntry), Admitted s c true none ∧ argHigh c.arg0 32 = false ∧ c.arg1 = 0 ∧ c.arg2 = 0 ∧ s.imageOf (BitVec.toNat c.arg0) = some (i, e) ∧ (∃ f ∈ s.forms, f.weightImage = BitVec.toNat c.arg0))
    ∧ (∃ (c : CmdSlot) (s : State), Admitted s c true none ∧ argHigh c.arg0 32 = false ∧ c.arg1 = 0 ∧ c.arg2 = 0 ∧ s.imageOf (BitVec.toNat c.arg0) = none)
    ∧ (∃ (c : CmdSlot) (s : State) (l : Nat), Admitted s c true none ∧ 1 ≤ BitVec.toNat c.arg0 ∧ BitVec.toNat c.arg0 ≤ 64 ∧ c.arg1 = 0 ∧ c.arg2 = 0 ∧ s.cad.len = some l ∧ 1200000 ≤ BitVec.toNat c.arg0 * (l - 256) * s.cad.period ∧ s.dealer.auditTickets = [] ∧ s.dealer.auditLeft = 0)
    ∧ (∃ (c : CmdSlot) (s : State) (l : Nat), Admitted s c true none ∧ 1 ≤ BitVec.toNat c.arg0 ∧ BitVec.toNat c.arg0 ≤ 64 ∧ c.arg1 = 0 ∧ c.arg2 = 0 ∧ s.cad.len = some l ∧ BitVec.toNat c.arg0 * (l - 256) * s.cad.period < 1200000) :=
  ⟨⟨cmd 63 0xFFF 0 [], run, admitted_of (by decide), by decide, by decide, by decide, by decide⟩,
   ⟨cmd 63 0xFFF 0 [], { run with ldma := [(63, { tail := 1 })] }, admitted_of (by decide), by decide, by decide, by decide, by decide, by decide⟩,
   ⟨cmd 0xFFF 0 0 [], program0.info, run, admitted_of (by decide), by decide, by decide, by decide⟩,
   ⟨cmd 0 0 0 [], { run with sec := { lifeCycle := 1 } }, admitted_of (by decide), by decide, by decide, by decide, by decide, by decide⟩,
   ⟨cmd 0 0 0 [], { run with vault := { passCmd := some (ticket 0x40) } }, admitted_of (by decide), by decide, by decide⟩,
   ⟨cmd 3 0 0 [], { run with nv := { images := [(0, entry3)] }, forms := [form9] }, 0, entry3, admitted_of (by decide), by decide, by decide, by decide, by decide, by decide⟩,
   ⟨cmd 3 0 0 [], { run with nv := { images := [(0, entry3)] }, forms := [{ form9 with weightImage := 3 }] }, 0, entry3, admitted_of (by decide), by decide, by decide, by decide, by decide, ⟨_, .head _, rfl⟩⟩,
   ⟨cmd 3 0 0 [], run, admitted_of (by decide), by decide, by decide, by decide, by decide⟩,
   ⟨cmd 64 0 0 [], deals 7, 1024, admitted_of (by decide), by decide, by decide, by decide, by decide, by decide, by decide, by decide, by decide⟩,
   ⟨cmd 1 0 0 [], deals 7, 1024, admitted_of (by decide), by decide, by decide, by decide, by decide, by decide, by decide⟩⟩

theorem test_wit_VideoOpens :
    (∃ (c : CmdSlot) (s : State), Admitted s c false none ∧ vArgBad c = false ∧ c.arg1 = 0 ∧ c.arg2 = 0 ∧ descOut (parseDesc c.payload).1 (parseDesc c.payload).2.2.1 (parseDesc c.payload).2.2.2 = true)
    ∧ (∃ (c : CmdSlot) (s : State), Admitted s c false none ∧ vArgBad c = false ∧ c.arg1 = 0 ∧ c.arg2 = 0 ∧ descOut (parseDesc c.payload).1 (parseDesc c.payload).2.2.1 (parseDesc c.payload).2.2.2 = false ∧ (s.vsession (vKeyOf c)).state ≠ 0)
    ∧ (∃ (c : CmdSlot) (s : State), Admitted s c false none ∧ vArgBad c = false ∧ c.arg1 = 0 ∧ c.arg2 = 0 ∧ descOut (parseDesc c.payload).1 (parseDesc c.payload).2.2.1 (parseDesc c.payload).2.2.2 = false ∧ (s.vsession (vKeyOf c)).state = 0 ∧ (parseDesc c.payload).1.width * (parseDesc c.payload).1.height ≤ maxPicture (parseDesc c.payload).1 ∧ (hevc (parseDesc c.payload).1 = true → (parseDesc c.payload).1.poolCount ≤ maxDpb (parseDesc c.payload).1) ∧ s.poolMeets (vEngine c) (vKeyOf c) (parseDesc c.payload).1 = false ∧ s.acts c.fn (parseDesc c.payload).2.1 = true ∧ (∀ i < (parseDesc c.payload).1.poolCount,   poolBytes (parseDesc c.payload).1 ≤     ((aget ((parseDesc c.payload).1.poolFirst + i) (s.engine (vEngine c)).pool).getD { }).bytes) ∧ ((s.engine (vEngine c)).disabled = true ∨ (s.engine (vEngine c)).resetting = true))
    ∧ (∃ (c : CmdSlot) (s : State), Admitted s c false none ∧ vArgBad c = false ∧ c.arg1 = 0 ∧ c.arg2 = 0 ∧ descOut (parseDesc c.payload).1 (parseDesc c.payload).2.2.1 (parseDesc c.payload).2.2.2 = false ∧ (s.vsession (vKeyOf c)).state = 0 ∧ (parseDesc c.payload).1.width * (parseDesc c.payload).1.height ≤ maxPicture (parseDesc c.payload).1 ∧ (hevc (parseDesc c.payload).1 = true → (parseDesc c.payload).1.poolCount ≤ maxDpb (parseDesc c.payload).1) ∧ s.poolMeets (vEngine c) (vKeyOf c) (parseDesc c.payload).1 = false ∧ s.acts c.fn (parseDesc c.payload).2.1 = true ∧ (∀ i < (parseDesc c.payload).1.poolCount,   poolBytes (parseDesc c.payload).1 ≤     ((aget ((parseDesc c.payload).1.poolFirst + i) (s.engine (vEngine c)).pool).getD { }).bytes) ∧ (s.engine (vEngine c)).disabled = false ∧ (s.engine (vEngine c)).resetting = false) :=
  ⟨⟨cmd 0x1 0 0 [], run, admitted_of (by decide), by decide, by decide, by decide, by decide⟩,
   ⟨cmd 0x201 0 0 encBytes, withSession run { state := 1 }, admitted_of (by decide +kernel), by decide +kernel, by decide +kernel, by decide +kernel, by decide +kernel, by decide +kernel⟩,
   ⟨cmd 0x201 0 0 encBytes, { run with video := { engines := [(1, { disabled := true, pool := [(0, { bytes := 8192 }), (1, { bytes := 8192 })] })] } }, admitted_of (by decide +kernel), by and_intros <;> decide +kernel⟩,
   ⟨cmd 0x201 0 0 encBytes, { run with video := { engines := [(1, { pool := [(0, { bytes := 8192 }), (1, { bytes := 8192 })] })] } }, admitted_of (by decide +kernel), by and_intros <;> decide +kernel⟩⟩

theorem test_wit_VideoCloses :
    (∃ (c : CmdSlot) (s : State), (VideoAdmitted s c fun x => decide (x.state = 1) || decide (x.state = 3)))
    ∧ (∃ (e : Nat) (n : Nat) (k : Ticket) (s : State), (s.vsession (vkey e n)).state = 2 ∧ (s.vsession (vkey e n)).handoffs = [] ∧ (s.vsession (vkey e n)).decodes = [] ∧ (s.vsession (vkey e n)).closing = [k] ∧ n < 64)
    ∧ (∃ (c : CmdSlot) (s : State), (VideoAdmitted s c fun x => decide (x.state ≠ 0)) ∧ (s.vsession (vKeyOf c)).state ≠ 3 ∧ (s.vsession (vKeyOf c)).handoffs ≠ [] ∧ (s.vsession (vKeyOf c)).full = false)
    ∧ (∃ (c : CmdSlot) (s : State), (VideoAdmitted s c fun x => decide (x.state ≠ 0)) ∧ (s.vsession (vKeyOf c)).handoffs = [] ∧ (s.vsession (vKeyOf c)).decodes = [])
    ∧ (∃ (c : CmdSlot) (s : State), Admitted s c false none ∧ vArgBad c = false ∧ c.arg2 = 0 ∧ (s.vsession (vKeyOf c)).state = 0) :=
  ⟨⟨cmd 0x10201 0 0 [], withSession run { state := 3 }, videoAdmitted_of (by decide)⟩,
   ⟨1, 2, ticket 0x50, withSession run { state := 2, closing := [ticket 0x50], desc := encDesc }, by decide, by decide, by decide, by decide, by decide⟩,
   ⟨cmd 0x20201 0 0 [], encRun, videoAdmitted_of (by decide), by decide, by decide, by decide⟩,
   ⟨cmd 0x20201 0 0 [], withSession run { state := 1, desc := encDesc }, videoAdmitted_of (by decide), by decide, by decide⟩,
   ⟨cmd 0x10201 0 0 [], run, admitted_of (by decide), by decide, by decide, by decide⟩⟩

theorem test_wit_VideoCommands :
    (∃ (c : CmdSlot) (s : State), (VideoAdmitted s c fun x => decide (x.state = 1) && encodes x.desc))
    ∧ (∃ (c : CmdSlot) (s : State), (VideoAdmitted s c fun x => decide (x.state = 1) && encodes x.desc) ∧ argHigh c.arg1 52 = false ∧ (s.vsession (vKeyOf c)).desc.rc = 0 ∧ bits (BitVec.toNat c.arg1) 0 22 ≤ 4000000 ∧ bits (BitVec.toNat c.arg1) 44 8 ≤ 51)
    ∧ (∃ (c : CmdSlot) (s : State), (VideoAdmitted s c fun x => decide (x.state = 1) && encodes x.desc) ∧ argHigh c.arg1 52 = false ∧ 4000000 < bits (BitVec.toNat c.arg1) 0 22)
    ∧ (∃ (c : CmdSlot) (s : State), (VideoAdmitted s c fun x => decide (x.state = 1) && x.desc.hostMark) ∧ argHigh c.arg1 10 = false ∧ bits (BitVec.toNat c.arg1) 6 2 = 0 ∧ bits (BitVec.toNat c.arg1) 8 2 < 2 ∧ bits (BitVec.toNat c.arg1) 0 6 ∈ poolRange (s.vsession (vKeyOf c)).desc ∧ (s.vsession (vKeyOf c)).recon ≠ some (bits (BitVec.toNat c.arg1) 0 6))
    ∧ (∃ (c : CmdSlot) (s : State), (VideoAdmitted s c fun x => decide (x.state = 1) && x.desc.hostMark) ∧ argHigh c.arg1 10 = false ∧ bits (BitVec.toNat c.arg1) 6 2 = 0 ∧ bits (BitVec.toNat c.arg1) 0 6 ∉ poolRange (s.vsession (vKeyOf c)).desc)
    ∧ (∃ (c : CmdSlot) (s : State), (VideoAdmitted s c fun x => decide (x.state = 1) && !encodes x.desc) ∧ c.arg1 = 0 ∧ le c.payload 0 8 < 2 ^ 48 ∧ le c.payload 16 8 < 2 ^ 48 ∧ le c.payload 8 8 ≠ 0 ∧ le c.payload 24 8 ≠ 0)
    ∧ (∃ (c : CmdSlot) (s : State), (VideoAdmitted s c fun x => decide (x.state = 1) && !encodes x.desc) ∧ c.arg1 = 0 ∧ le c.payload 0 8 < 2 ^ 48 ∧ le c.payload 16 8 < 2 ^ 48 ∧ le c.payload 8 8 = 0)
    ∧ (∃ (fn : Nat) (e : Nat) (n : Nat) (off : Nat) (s : State), (s.vsession (vkey e n)).state ≠ 0 ∧ encodes (s.vsession (vkey e n)).desc = true ∧ s.acts fn (s.vsession (vkey e n)).account = true ∧ off < 2 ^ (s.vsession (vkey e n)).desc.bsLog ∧ 0 <   (off + 2 ^ (s.vsession (vkey e n)).desc.bsLog -       (s.vsession (vkey e n)).hostRead % 2 ^ (s.vsession (vkey e n)).desc.bsLog) %     2 ^ (s.vsession (vkey e n)).desc.bsLog ∧ (off + 2 ^ (s.vsession (vkey e n)).desc.bsLog -       (s.vsession (vkey e n)).hostRead % 2 ^ (s.vsession (vkey e n)).desc.bsLog) %     2 ^ (s.vsession (vkey e n)).desc.bsLog ≤   (s.vsession (vkey e n)).written - (s.vsession (vkey e n)).hostRead)
    ∧ (∃ (fn : Nat) (e : Nat) (n : Nat) (off : Nat) (s : State), (s.vsession (vkey e n)).state ≠ 0 ∧ encodes (s.vsession (vkey e n)).desc = true ∧ s.acts fn (s.vsession (vkey e n)).account = true ∧ off < 2 ^ (s.vsession (vkey e n)).desc.bsLog ∧ (s.vsession (vkey e n)).written - (s.vsession (vkey e n)).hostRead <   (off + 2 ^ (s.vsession (vkey e n)).desc.bsLog -       (s.vsession (vkey e n)).hostRead % 2 ^ (s.vsession (vkey e n)).desc.bsLog) %     2 ^ (s.vsession (vkey e n)).desc.bsLog)
    ∧ (∃ (p : Path) (e : Nat) (b : Nat) (v : Bytes) (s : State), s.gate p (9217 + e) (b + 1) true = 0 ∧ e < 4 ∧ b < 64 ∧ List.length v = 16 ∧ le v 0 8 < 2 ^ 48 ∧ le v 0 8 % 64 = 0 ∧ nonzero v 14 2 = false ∧ byteAt v 12 ≤ 2 ∧ (∀ x ∈ s.video.sessions, x.1 / 64 = e → x.2.state ≠ 0 → (poolRange x.2.desc).contains b = false)) :=
  ⟨⟨cmd 0x30201 0 0 [], encRun, videoAdmitted_of (by decide)⟩,
   ⟨cmd 0x40201 0x0003300000000001 0 [], encRun, videoAdmitted_of (by decide), by decide, by decide, by decide, by decide⟩,
   ⟨cmd 0x40201 0x3D0901 0 [], encRun, videoAdmitted_of (by decide), by decide, by decide⟩,
   ⟨cmd 0x50201 0x101 0 [], withSession run { encSession with desc := { encDesc with hostMark := true } }, videoAdmitted_of (by decide), by decide, by decide, by decide, by decide, by decide⟩,
   ⟨cmd 0x50201 0x102 0 [], withSession run { encSession with desc := { encDesc with hostMark := true } }, videoAdmitted_of (by decide), by decide, by decide, by decide⟩,
   ⟨cmd 0x60201 0 0 (record 32 [(8, 8, 100), (0x18, 8, 2)]), decRun, videoAdmitted_of (by decide), by decide, by decide, by decide, by decide, by decide⟩,
   ⟨cmd 0x60201 0 0 (record 32 [(0x18, 8, 2)]), decRun, videoAdmitted_of (by decide), by decide, by decide, by decide, by decide⟩,
   ⟨0, 1, 2, 0x40, withSession run { encSession with written := 0x40, full := true }, by decide, by decide, by decide, by decide, by decide, by decide⟩,
   ⟨0, 1, 2, 0x41, withSession run { encSession with written := 0x40, full := true }, by decide, by decide, by decide, by decide, by decide⟩,
   ⟨.mirror 0 0, 3, 63, record 16 [(0, 8, 0xFFFFFFFFFFC0), (8, 4, 6144), (12, 1, 2)], run, by and_intros <;> decide⟩⟩

theorem test_wit_SliceWritten :
    (∃ (e : Nat) (n : Nat) (h : Handoff) (rest : List Handoff) (out : SliceOut) (s : State) (u : State) (y : Session) (b : Bytes), SliceServed s e n h rest ∧ ((s.vsession (vkey e n)).waiting = some b ∧ y = s.vsession (vkey e n) ∧ u = s.serving e n ∨ ∃ src v, SliceRead s e n h out src v ∧ y = (s.vsession (vkey e n)).addSlice (getSamples (s.vsession (vkey e n)).desc src) ∧ b = y.sliceBits ∧ u = v.setSession (vkey e n) y) ∧ List.length b ≤ 2 ^ y.desc.bsLog ∧ y.written - y.hostRead + List.length b ≤ 2 ^ y.desc.bsLog ∧ y.slice + 1 ≠ frameSlices y.desc)
    ∧ (∃ (e : Nat) (n : Nat) (h : Handoff) (rest : List Handoff) (out : SliceOut) (s : State) (u : State) (y : Session) (b : Bytes), SliceServed s e n h rest ∧ ((s.vsession (vkey e n)).waiting = some b ∧ y = s.vsession (vkey e n) ∧ u = s.serving e n ∨ ∃ src v, SliceRead s e n h out src v ∧ y = (s.vsession (vkey e n)).addSlice (getSamples (s.vsession (vkey e n)).desc src) ∧ b = y.sliceBits ∧ u = v.setSession (vkey e n) y) ∧ List.length b ≤ 2 ^ y.desc.bsLog ∧ 2 ^ y.desc.bsLog < y.written - y.hostRead + List.length b)
    ∧ (∃ (e : Nat) (n : Nat) (h : Handoff) (rest : List Handoff) (out : SliceOut) (s : State) (src : Bytes) (v : State) (y : Session), SliceServed s e n h rest ∧ SliceRead s e n h out src v ∧ y = (s.vsession (vkey e n)).addSlice (getSamples (s.vsession (vkey e n)).desc src) ∧ y.sliceBits.length ≤ 2 ^ y.desc.bsLog ∧ y.written - y.hostRead + y.sliceBits.length ≤ 2 ^ y.desc.bsLog ∧ y.slice + 1 ≠ frameSlices y.desc) :=
  ⟨⟨1, 2, handoff, [], {}, mapped (withSession run { encSession with waiting := some [1, 2, 3, 4] }), _, _, [1, 2, 3, 4], by constructor <;> decide, .inl ⟨by decide, rfl, rfl⟩, by decide, by decide, by decide⟩,
   ⟨1, 2, handoff, [], {}, mapped (withSession run { encSession with waiting := some [1, 2, 3, 4], written := 65533 }), _, _, [1, 2, 3, 4], by constructor <;> decide, .inl ⟨by decide, rfl, rfl⟩, by decide, by decide⟩,
   ⟨1, 2, handoff, [], {}, encReads, List.replicate 192 0, _, _, by constructor <;> decide, encReads_read, rfl, (sliceBits_fits _ rfl rfl).1, (sliceBits_fits _ rfl rfl).2, by decide +kernel⟩⟩

theorem test_wit_FrameDecoded :
    (∃ (e : Nat) (n : Nat) (r : DecodeRun) (rest : List DecodeRun) (p : Picture) (s : State), (s.vsession (vkey e n)).decodes = r :: rest ∧ (s.vsession (vkey e n)).state = 1 ∧ (s.vsession (vkey e n)).abandon = false ∧ (s.engine e).resetting = false ∧ s.power.phase = 0 ∧ picRefused (s.vsession (vkey e n)).desc p = false ∧ ((s.vsession (vkey e n)).skipping = false ∨ p.key = true) ∧ s.outGuarded (s.vsession (vkey e n)).account (r.outVa + r.written * (s.vsession (vkey e n)).frameStride) (frameSize (s.vsession (vkey e n)).desc) = true ∧ r.waiting = false)
    ∧ (∃ (e : Nat) (n : Nat) (r : DecodeRun) (rest : List DecodeRun) (p : Picture) (s : State), (s.vsession (vkey e n)).decodes = r :: rest ∧ (s.vsession (vkey e n)).state = 1 ∧ (s.vsession (vkey e n)).abandon = false ∧ (s.engine e).resetting = false ∧ s.power.phase = 0 ∧ picRefused (s.vsession (vkey e n)).desc p = false ∧ ((s.vsession (vkey e n)).skipping = false ∨ p.key = true) ∧ s.outGuarded (s.vsession (vkey e n)).account (r.outVa + r.written * (s.vsession (vkey e n)).frameStride) (frameSize (s.vsession (vkey e n)).desc) = true ∧ r.waiting = true)
    ∧ (∃ (e : Nat) (n : Nat) (r : DecodeRun) (rest : List DecodeRun) (p : Picture) (s : State) (a : State) (b : State) (c : State) (ref : Bytes), (s.vsession (vkey e n)).decodes = r :: rest ∧ (s.vsession (vkey e n)).state = 1 ∧ (s.vsession (vkey e n)).abandon = false ∧ (s.engine e).resetting = false ∧ s.power.phase = 0 ∧ picRefused (s.vsession (vkey e n)).desc p = false ∧ ((s.vsession (vkey e n)).skipping = false ∨ p.key = true) ∧ s.outGuarded (s.vsession (vkey e n)).account (r.outVa + r.written * (s.vsession (vkey e n)).frameStride) (frameSize (s.vsession (vkey e n)).desc) = false ∧ s.stateTouched (s.vsession (vkey e n)) = (none, a) ∧ a.takeStream (vkey e n) r p.consumed = (none, b) ∧ State.vRead (s.vsession (vkey e n)).account ((b.engine e).refAddresses (poolRange (s.vsession (vkey e n)).desc) p.refs) b = (Except.ok (ref, false), c)) :=
  ⟨⟨1, 2, decode1, [], pic, { decRun with now := 41000000, cad := (deals 7).cad, dealer := { running := some { plan9 with pins := [{ base := 0, size := 65536, owners := [.dealer] }] } } }, by decide, by decide, by decide, by decide, by decide, by decide, by decide, by decide, by decide⟩,
   ⟨1, 2, { decode1 with waiting := true }, [], pic, { withSession decRun { state := 1, frameStride := 6144, desc := decDesc, decodes := [{ decode1 with waiting := true }] } with now := 41000000, cad := (deals 7).cad, dealer := { running := some { plan9 with pins := [{ base := 0, size := 65536, owners := [.dealer] }] } } }, by decide, by decide, by decide, by decide, by decide, by decide, by decide, by decide, by decide⟩,
   ⟨1, 2, decode1, [], pic, decRun, _, _, _, [], by decide +kernel, by decide +kernel, by decide +kernel, by decide +kernel, by decide +kernel, by decide +kernel, by decide +kernel, by decide +kernel, Prod.ext (by decide +kernel) rfl, Prod.ext (by decide +kernel) rfl, Prod.ext (by decide +kernel) rfl⟩⟩

theorem test_wit_EngineDefects :
    (∃ (e : Nat) (s : State), (s.engine e).resetting = true) :=
  ⟨1, { run with video := { engines := [(1, { resetting := true })] } }, by decide⟩

theorem test_wit_DealCodeWordsIssue :
    (∃ (op : SvisOp) (x : Site) (b : Base) (slot : Nat) (cycle : Nat) (form : Form) (s : State), WordReady s x b op slot cycle form) :=
  ⟨.mma mmaOps .none, site, base3, 0, 3, formS, svisRun, wordReady_of rfl rfl 0 (by decide)⟩

theorem test_wit_ChipWaits :
    (∃ (op : SvisOp) (x : Site) (b : Base) (slot : Nat) (cycle : Nat) (form : Form) (s : State), WordReady s x b op slot cycle form ∧ b.we = 1 ∧ b.need.toNat ≤ ((s.core (siteKey x)).settle cycle).chip b.wait.toNat)
    ∧ (∃ (op : SvisOp) (x : Site) (b : Base) (slot : Nat) (cycle : Nat) (form : Form) (s : State), WordReady s x b op slot cycle form ∧ b.we = 1 ∧ ((s.core (siteKey x)).settle cycle).chip b.wait.toNat < b.need.toNat ∧ s.svis.items = [] ∧ (Option.any (fun x => x.deadSlots.contains slot) s.dealer.running = false)) :=
  ⟨⟨.nop, site, { base3 with we := 1, wait := 4, need := 15 }, 0, 3, formS, { svisRun with svis := { cores := [(0, { chips := [(4, 15)] })] } }, wordReady_of rfl rfl 0 (by decide), by decide, by decide⟩,
   ⟨.nop, site, { base3 with we := 1, wait := 4, need := 15 }, 0, 3, formS, { svisRun with svis := { cores := [(0, { chips := [(4, 14)] })] } }, wordReady_of rfl rfl 0 (by decide), by decide, by decide, by decide, by decide⟩⟩

theorem test_wit_ControlWords :
    (∃ (x : Site) (b : Base) (slot : Nat) (cycle : Nat) (form : Form) (s : State) (d : BitVec 4) (imm : BitVec 48), b.we = 0 ∧ WordReady s x b (SvisOp.seta d imm) slot cycle form)
    ∧ (∃ (x : Site) (b : Base) (slot : Nat) (cycle : Nat) (form : Form) (s : State) (d : BitVec 4) (imm : BitVec 32), b.we = 0 ∧ WordReady s x b (SvisOp.adda d imm) slot cycle form)
    ∧ (∃ (x : Site) (b : Base) (slot : Nat) (cycle : Nat) (form : Form) (s : State) (d : BitVec 4) (sel : BitVec 3) (scale : BitVec 32), b.we = 0 ∧ WordReady s x b (SvisOp.addid d sel scale) slot cycle form)
    ∧ (∃ (x : Site) (b : Base) (slot : Nat) (cycle : Nat) (form : Form) (s : State) (o : RegionOps), b.we = 0 ∧ WordReady s x b (SvisOp.region o) slot cycle form ∧ o.len ≠ 0 ∧ o.store = 0 ∧ s.regionRefused (StoreRef.core (siteKey x)) o = false)
    ∧ (∃ (x : Site) (b : Base) (slot : Nat) (cycle : Nat) (form : Form) (s : State) (o : RegionOps), b.we = 0 ∧ WordReady s x b (SvisOp.region o) slot cycle form ∧ o.len ≠ 0 ∧ o.store = 0 ∧ s.regionRefused (StoreRef.core (siteKey x)) o = true)
    ∧ (∃ (x : Site) (b : Base) (slot : Nat) (cycle : Nat) (form : Form) (s : State) (num : BitVec 6), b.we = 0 ∧ WordReady s x b (SvisOp.rfree num 0) slot cycle form ∧ s.svis.items = [] ∧ (∀ g ∈ (s.core (siteKey x)).regions, g.freeing = false))
    ∧ (∃ (x : Site) (b : Base) (slot : Nat) (cycle : Nat) (form : Form) (s : State) (v : BitVec 16), b.we = 0 ∧ WordReady s x b (SvisOp.mark v) slot cycle form)
    ∧ (∃ (x : Site) (b : Base) (slot : Nat) (cycle : Nat) (form : Form) (s : State) (o : RepeatOps), b.we = 0 ∧ WordReady s x b (SvisOp.repeatF o) slot cycle form) :=
  ⟨⟨site, base3, 0, 3, formS, svisRun, 15, 0xFFFFFFFFFFFF, by decide, wordReady_of rfl rfl 0 (by decide)⟩,
   ⟨site, base3, 0, 3, formS, { svisRun with svis := { cores := [(0, { regs := [(1, 3)] })] } }, 1, 0xFFFFFFFB, by decide, wordReady_of rfl rfl 0 (by decide)⟩,
   ⟨site, base3, 0, 3, formS, svisRun, 1, 4, 0x80000000, by decide, wordReady_of rfl rfl 0 (by decide)⟩,
   ⟨site, base3, 0, 3, formS, svisRun, { num := 15, store := 0, base := 0, len := 128, access := 3 }, by decide, wordReady_of rfl rfl 0 (by decide), by decide, by decide, by decide⟩,
   ⟨site, base3, 0, 3, formS, svisRun, { num := 15, store := 0, base := 1, len := 128, access := 3 }, by decide, wordReady_of rfl rfl 0 (by decide), by decide, by decide, by decide⟩,
   ⟨site, base3, 0, 3, formS, { svisRun with svis := { cores := [(0, { regions := [{ num := 3, base := 0, len := 4, access := 3 }] })] } }, 3, by decide, wordReady_of rfl rfl 0 (by decide), by decide, by decide⟩,
   ⟨site, base3, 0, 3, formS, svisRun, 0xFFFF, by decide, wordReady_of rfl rfl 0 (by decide)⟩,
   ⟨site, base3, 0, 3, formS, svisRun, { count := 1, period := 10, body := 9, stepreg := 0, step := 0 }, by decide, wordReady_of rfl rfl 0 (by decide)⟩⟩

theorem test_wit_RegionWords :
    (∃ (op : SvisOp) (x : Site) (b : Base) (id : Nat) (s : State), WordAlone s x b op id ∧ b.we = 1 ∧ ((s.core (siteKey x)).settle (2 ^ 62)).chip b.wait.toNat < b.need.toNat)
    ∧ (∃ (op : SvisOp) (x : Site) (b : Base) (id : Nat) (s : State), WordAlone s x b op id ∧ b.we = 0 ∧ opQueue op = 5 ∧ (∀ (o : RegionOps), op ≠ SvisOp.region o)) :=
  ⟨⟨.vec .add vops, siteR, { baseR with we := 1, wait := 4, need := 1 }, 0, regionRun, wordAlone_of rfl (by decide), by decide, by decide⟩,
   ⟨.endP, siteR, baseR, 0, regionRun, wordAlone_of rfl (by decide), by decide, by decide, nofun⟩⟩

theorem test_wit_RepeatIterates :
    (∃ (x : Site) (l : Loop) (s : State), s.mayIssue x = true ∧ (s.streamPos x).loop x.path x.word = some l ∧ l.iter + 1 < l.count ∧ l.stepReg ≠ 0 ∧ (regionMode x.owner = true ∧ s.stepPending x l.stepReg = false ∨ regionMode x.owner = false ∧ l.baseAt (l.iter + 1) / 64 = s.cad.trick)) :=
  ⟨site, { path := [], word := 0, base := 0, body := 2, count := 2, period := 10, iter := 0, stepReg := 3, step := -1 }, { svisRun with svis := { cores := [(0, { streams := [{ stream := 0, owner := .deal 0, loops := [{ path := [], word := 0, base := 0, body := 2, count := 2, period := 10, iter := 0, stepReg := 3, step := -1 }] }] })] } }, by decide, by decide, by decide, by decide, .inr ⟨by decide, by decide⟩⟩

theorem test_wit_ItemsComplete :
    (∃ (i : Item) (s : State) (slot : Nat) (r : StoreRef) (w : StoreWrite), FabricQuiet s ∧ s.item i.id = some i ∧ i.owner = CodeOwner.deal slot ∧ i.hbm = [] ∧ i.reg = none ∧ i.remote = [] ∧ i.vault = none ∧ i.writes = [w] ∧ w.dsts = [r] ∧ w.addr + List.length w.data ≤ r.bytes ∧ cellsAbove none (s.storeCells r) = true ∧ (∀ l ∈ s.svis.landed, l.cycle ≠ i.done) ∧ s.oldest i = true ∧ ((if i.plane = Plane.memory then i.done + 1 else i.done) / 64 ≤ s.cad.trick) ∧ i.post = none)
    ∧ (∃ (i : Item) (s : State) (slot : Nat) (r : StoreRef) (w : StoreWrite) (p : Nat), FabricQuiet s ∧ s.item i.id = some i ∧ i.owner = CodeOwner.deal slot ∧ i.hbm = [] ∧ i.reg = none ∧ i.remote = [] ∧ i.vault = none ∧ i.writes = [w] ∧ w.dsts = [r] ∧ w.addr + List.length w.data ≤ r.bytes ∧ cellsAbove none (s.storeCells r) = true ∧ (∀ l ∈ s.svis.landed, l.cycle ≠ i.done) ∧ s.oldest i = true ∧ ((if i.plane = Plane.memory then i.done + 1 else i.done) / 64 ≤ s.cad.trick) ∧ i.post = some p)
    ∧ (∃ (i : Item) (s : State) (slot : Nat) (r : StoreRef) (w : StoreWrite), FabricQuiet s ∧ s.item i.id = some i ∧ i.owner = CodeOwner.deal slot ∧ i.hbm = [] ∧ i.reg = none ∧ i.remote = [] ∧ i.vault = none ∧ i.writes = [w] ∧ w.dsts = [r] ∧ w.addr + List.length w.data ≤ r.bytes ∧ cellsAbove none (s.storeCells r) = true ∧ (∀ l ∈ s.svis.landed, l.cycle ≠ i.done) ∧ s.oldest i = false)
    ∧ (∃ (i : Item) (s : State) (slot : Nat) (late : Nat), FabricQuiet s ∧ s.item i.id = some i ∧ i.owner = CodeOwner.deal slot ∧ s.oldest i = true ∧ s.dealing = true ∧ s.svis.reneges = [] ∧ i.held = false ∧ i.vault = none ∧ i.plane = Plane.tile ∧ 0 < late ∧ i.done / 64 ≤ s.cad.trick)
    ∧ (∃ (i : Item) (s : State) (slot : Nat) (arr : Arrival), FabricQuiet s ∧ s.item i.id = some i ∧ i.owner = CodeOwner.deal slot ∧ s.oldest i = true ∧ s.dealing = true ∧ s.svis.reneges = [] ∧ i.held = false ∧ i.vault = none ∧ i.plane = Plane.memory ∧ arr.slack < 0 ∧ (i.done + 1) / 64 ≤ s.cad.trick) :=
  ⟨⟨item0, itemRun item0, 0, .core 0, { dsts := [.core 0], addr := 64, data := [1, 2], mark := false }, ⟨by decide, by decide, by decide⟩, by and_intros <;> decide⟩,
   ⟨{ item0 with post := some 31 }, itemRun { item0 with post := some 31 }, 0, .core 0, { dsts := [.core 0], addr := 64, data := [1, 2], mark := false }, 31, ⟨by decide, by decide, by decide⟩, by and_intros <;> decide⟩,
   ⟨{ item0 with id := 1 }, itemRun item0, 0, .core 0, { dsts := [.core 0], addr := 64, data := [1, 2], mark := false }, ⟨by decide, by decide, by decide⟩, by and_intros <;> decide⟩,
   ⟨{ item0 with plane := .tile }, itemRun { item0 with plane := .tile }, 0, 1, ⟨by decide, by decide, by decide⟩, by and_intros <;> decide⟩,
   ⟨{ item0 with plane := .memory }, itemRun { item0 with plane := .memory }, 0, { slack := -1, pcieError := false, mediaFails := [] }, ⟨by decide, by decide, by decide⟩, by and_intros <;> decide⟩⟩

theorem test_wit_FloatPatternsRoundTrip :
    (∃ (code : Nat) (f : FloatFmt) (p : Nat), floatOf code = some f ∧ p < 2 ^ fmtWidth code ∧ (f.decode p).isFinite = true) :=
  ⟨1, bf16, 0x8001, by decide, by decide, by decide⟩

theorem test_wit_Int8RoundsAndClamps :
    (∃ (rnd : Nat), rnd ≤ 3) :=
  ⟨3, by decide⟩

theorem test_wit_EveryTileOnce :
    (∃ (order : Nat) (mt : Nat) (nt : Nat), order ≤ 3 ∧ mt ≤ 31 ∧ nt ≤ 31) :=
  ⟨3, 31, 31, by decide, by decide, by decide⟩

theorem test_wit_ElementWrites :
    (∃ (o : MzeroOps), o.mt ≠ 0 ∧ o.nt ≠ 0)
    ∧ (∃ (op : VOp) (o : VOps), o.count ≠ 0 ∧ op ≠ VOp.qmx ∧ op ≠ VOp.and ∧ op ≠ VOp.or ∧ fmtWidth o.fmtD.toNat = 32) :=
  ⟨⟨{ cAddr := 127, mt := 31, nt := 1, int := 1 }, by decide, by decide⟩,
   ⟨.fma, { vops with s3 := 1 }, by decide, by decide, by decide, by decide, by decide⟩⟩

theorem test_wit_DefectsMisdealTheDeal :
    (∃ (s : State), DealRuns s)
    ∧ (∃ (s : State) (f : Form), DealRuns s ∧ s.codeForm = some f ∧ f.weightImage ≠ 0)
    ∧ (∃ (s : State) (d : Nat) (ns : Nat), DealRuns s ∧ 20 < ns ∧ s.deck d ≠ 2)
    ∧ (∃ (s : State) (ns : Nat), DealRuns s ∧ ns ≤ 20)
    ∧ (∃ (s : State), DealRuns s ∧ s.repair.hubDefectDeal = none) :=
  ⟨⟨deals9 767, ⟨by decide, ⟨_, rfl, by decide⟩, by decide, by decide, by decide⟩⟩,
   ⟨{ deals9 767 with forms := [{ form9 with weightImage := 3 }] }, { form9 with weightImage := 3 }, ⟨by decide, ⟨_, rfl, by decide⟩, by decide, by decide, by decide⟩, by decide, by decide⟩,
   ⟨deals9 767, 1, 21, ⟨by decide, ⟨_, rfl, by decide⟩, by decide, by decide, by decide⟩, by decide, by decide⟩,
   ⟨deals9 767, 20, ⟨by decide, ⟨_, rfl, by decide⟩, by decide, by decide, by decide⟩, by decide⟩,
   ⟨deals9 767, ⟨by decide, ⟨_, rfl, by decide⟩, by decide, by decide, by decide⟩, by decide⟩⟩

theorem test_wit_HubDefectAndPoison :
    (∃ (s : State) (d : Nat), s.dealing = true ∧ s.repair.hubDefectDeal = some d ∧ s.cad.deal - d ≤ s.repair.transientWindow)
    ∧ (∃ (pa : Nat), usableHbm pa 1 = true)
    ∧ (∃ (s : State), s.dealing = false ∧ s.svis.openWin = none) :=
  ⟨⟨{ deals9 7 with cad := { (deals9 7).cad with deal := 65539 }, repair := { hubDefectDeal := some 3 } }, 3, by decide, by decide, by decide⟩,
   ⟨0x8EFFFFFFF, by decide⟩,
   ⟨run, by decide, by decide⟩⟩

theorem test_wit_AuditsCompare :
    (∃ (s : State), DealRuns s ∧ s.cad.trick % 256 = 0 ∧ s.repair.windows = [])
    ∧ (∃ (s : State), s.cad.trick % 256 ≠ 0)
    ∧ (∃ (w : AuditWin) (cmps : List AuditCmp) (s : State), s.dealing = true ∧ s.repair.windows = [w] ∧ w.deal = s.cad.deal ∧ s.windowEnd w.index ≤ s.cad.trick ∧ s.cad.trick ≤ s.windowEnd w.index + 64 ∧ s.repair.suspects = [] ∧ (∀ a ∈ cmps, a.crcCore = a.crcShadow))
    ∧ (∃ (w : AuditWin) (cmps : List AuditCmp) (s : State) (a : AuditCmp), s.dealing = true ∧ s.repair.windows = [w] ∧ w.deal = s.cad.deal ∧ s.windowEnd w.index ≤ s.cad.trick ∧ s.cad.trick ≤ s.windowEnd w.index + 64 ∧ s.repair.suspects = [] ∧ cmps = [a] ∧ s.shadows w a = true ∧ a.crcCore ≠ a.crcShadow ∧ s.dealtIn a w.index = true)
    ∧ (∃ (s : State), s.start.stage = 1 ∧ s.start.bist = false ∧ s.dealer.bistRunning = false ∧ s.dealer.auditTickets = [] ∧ s.repair.suspects = [])
    ∧ (∃ (s : State) (k : Ticket), s.start.stage = 2 ∧ s.dealer.bistRunning = false ∧ s.dealer.auditTickets = [k] ∧ s.dealer.auditLeft = 0 ∧ s.repair.suspects = []) :=
  ⟨⟨deals9 512, ⟨by decide, ⟨_, rfl, by decide⟩, by decide, by decide, by decide⟩, by decide, by decide⟩,
   ⟨deals9 513, by decide⟩,
   ⟨{ deal := 5, index := 0 }, [cmp0 [rec0] [rec0]], auditRun, by decide, by decide, by decide, by decide, by decide, by decide, cmp0_agrees⟩,
   ⟨{ deal := 5, index := 0 }, [cmp0 [] [rec0]], { auditRun with cad := { auditRun.cad with trick := 320 } }, cmp0 [] [rec0], by decide +kernel, by decide +kernel, by decide +kernel, by decide +kernel, by decide +kernel, by decide +kernel, by decide +kernel, by decide +kernel, cmp0_differs, by decide +kernel⟩,
   ⟨{ run with start := { up := true, stage := 1 } }, by decide, by decide, by decide, by decide, by decide⟩,
   ⟨{ run with dealer := { auditTickets := [ticket 0x31] } }, ticket 0x31, by decide, by decide, by decide, by decide, by decide⟩⟩

theorem test_wit_DirectoryServes :
    (∃ (d : Nat) (line : Nat) (s : State), scLine line = true ∧ s.scPage line = true ∧ d < 8)
    ∧ (∃ (line : Nat) (s : State), (scLine line = false ∨ s.scPage line = false))
    ∧ (∃ (d : Nat) (line : Nat) (m : Bool) (s : State), holds (s.dirState line) d = some m ∧ s.evicts d line = false)
    ∧ (∃ (d : Nat) (line : Nat) (s : State), d < 8 ∧ s.evicts d line = true)
    ∧ (∃ (d : Nat) (line : Nat) (s : State), d < 8 ∧ s.evicts d line = false)
    ∧ (∃ (line : Nat) (s : State), scLine line = false ∧ s.scPage line = true) :=
  ⟨⟨7, 1, scRun, by decide, by decide, by decide⟩,
   ⟨0, run, by decide⟩,
   ⟨3, 0, true, { run with coh := { dir := [(0, .owned 3)] } }, by decide, by decide⟩,
   ⟨3, 0, { run with coh := { dir := [(0, .owned 3)], evicting := [(3, 0, true)] } }, by decide, by decide⟩,
   ⟨3, 0, { run with coh := { dir := [(0, .shared 8 false)] } }, by decide, by decide⟩,
   ⟨0x23C00000, { run with mem := { cached := [{ ctx := 0, va := 0, pa := 0x8F0000000, size := 65536, r := true, w := true, sc := true }] } }, by decide, by decide⟩⟩

theorem test_wit_LooseDmaMoves :
    (∃ (fn : Nat) (q : Nat) (tail : Nat) (s : State), s.start.stage = 2 ∧ s.seesQueue fn q = true ∧ (s.queue q).held + ringCount 256 tail (s.queue q).tail ≤ 255)
    ∧ (∃ (fn : Nat) (q : Nat) (tail : Nat) (s : State), s.start.stage = 2 ∧ s.seesQueue fn q = true ∧ 255 < (s.queue q).held + ringCount 256 tail (s.queue q).tail)
    ∧ (∃ (q : Nat) (acct : Nat) (s : State), (s.queue q).account = some acct ∧ (s.queue q).stopped = false ∧ (s.queue q).hit = none ∧ (s.queue q).held ≠ 0 ∧ s.ldmaMoves = true ∧ (s.queue q).hand = none ∧ descBad (s.queue q).desc = true)
    ∧ (∃ (q : Nat) (acct : Nat) (s : State), (s.queue q).account = some acct ∧ (s.queue q).stopped = false ∧ (s.queue q).hit = none ∧ (s.queue q).held ≠ 0 ∧ s.ldmaMoves = true ∧ (s.queue q).hand = none ∧ descBad (s.queue q).desc = false ∧ (s.queue q).desc.irq = false ∧ (s.queue q).desc.len = 0)
    ∧ (∃ (q : Nat) (acct : Nat) (s : State), (s.queue q).account = some acct ∧ (s.queue q).stopped = false ∧ (s.queue q).hit = none ∧ (s.queue q).held ≠ 0 ∧ s.ldmaMoves = true ∧ (s.queue q).hand = none ∧ descBad (s.queue q).desc = false ∧ (s.queue q).desc.len ≠ 0 ∧ s.dealing = false ∧ ((List.map (fun x => x.1) s.ldma).Nodup))
    ∧ (∃ (q : Nat) (st : Nat) (addr : Nat) (s : State), (s.queue q).hit = some (st, addr))
    ∧ (∃ (q : Nat) (acct : Nat) (host : Bytes) (s : State) (x : LdmaQueue) (l : Xlat) (u : State), s.queue q = x ∧ x.account = some acct ∧ x.stopped = false ∧ x.hit = none ∧ x.hand = none ∧ x.held ≠ 0 ∧ x.bytesDone = 0 ∧ s.ldmaMoves = true ∧ 1 ≤ (s.setQueue q { account := x.account, tail := x.tail, head := x.head, status := x.status, stopped := x.stopped, stopIndex := x.stopIndex, bytesDone := x.bytesDone, faultAddr := x.faultAddr, vec := x.vec, hit := x.hit, hand := some (host, none), ring := x.ring }).ldmaBudget ∧ ((List.map (fun x => x.1) s.ldma).Nodup) ∧ (∀ y ∈ s.ldma, y.1 ≠ q → y.2.moving = false) ∧ descBad x.desc = false ∧ x.desc.irq = false ∧ x.desc.srcHost = true ∧ x.desc.len = 64 ∧ List.length host = 64 ∧ translateFor (s.setQueue q { account := x.account, tail := x.tail, head := x.head, status := x.status, stopped := x.stopped, stopIndex := x.stopIndex, bytesDone := x.bytesDone, faultAddr := x.faultAddr, vec := x.vec, hit := x.hit, hand := some (host, none), ring := x.ring }) acct x.desc.dst true = (Except.ok l, u) ∧ usableHbm l.pa 64 = true ∧ (∀ p ∈ s.guardPins, overlaps p.base p.size l.pa 64 = false) ∧ s.mem.wf = true) :=
  ⟨⟨0, 63, 255, run, by decide, by decide, by decide⟩,
   ⟨0, 63, 0, { run with ldma := [(63, { tail := 1 })] }, by decide, by decide, by decide⟩,
   ⟨63, 0, ldmaRun { hostDesc with len := 63 }, by decide, by decide, by decide, by decide, by decide, by decide, by decide⟩,
   ⟨63, 0, ldmaRun { hostDesc with len := 0 }, by and_intros <;> decide⟩,
   ⟨63, 0, ldmaRun hostDesc, by and_intros <;> decide⟩,
   ⟨63, 8, 0, { run with ldma := [(63, { queueOf hostDesc with hit := some (8, 0) })] }, by decide⟩,
   ⟨63, 0, ones64, ldmaRun hostDesc, queueOf hostDesc, { pa := 0x40, pageVa := 0, pagePa := 0, size := 65536, r := true, w := true, sc := false }, State.setQueue (ldmaRun hostDesc) 63 { queueOf hostDesc with hand := some (ones64, none) }, by and_intros <;> decide⟩⟩

theorem test_wit_QueueRegisters :
    (∃ (fn : Nat) (q : Nat) (s : State), s.seesQueue fn q = true ∧ (s.queue q).stopped = true ∧ (s.queue q).held ≠ 0)
    ∧ (∃ (fn : Nat) (q : Nat) (s : State), s.seesQueue fn q = true ∧ (s.queue q).stopped = false)
    ∧ (∃ (fn : Nat) (q : Nat) (s : State), s.seesQueue fn q = false) :=
  ⟨⟨0, 63, { run with ldma := [(63, { queueOf hostDesc with stopped := true })] }, by decide, by decide, by decide⟩,
   ⟨0, 63, { run with ldma := [(63, queueOf hostDesc)] }, by decide, by decide⟩,
   ⟨5, 63, run, by decide⟩⟩

theorem test_wit_ApertureReadsAndWrites :
    (∃ (fn : Nat) (off : Nat) (len : Nat) (b : Bytes) (s : State) (u : State), s.power.phase = 0 ∧ s.apertureOpen fn = true ∧ off + len ≤ bar2Size ∧ State.apertureRead (s.fn fn).apAcct len ((s.fn fn).apBase + off) s = (Except.ok b, u))
    ∧ (∃ (fn : Nat) (off : Nat) (data : Bytes) (pas : List Nat) (s : State) (u : State), s.power.phase = 0 ∧ s.apertureOpen fn = true ∧ off + List.length data ≤ bar2Size ∧ s.mem.wf = true ∧ State.apertureMap (s.fn fn).apAcct (List.length data) ((s.fn fn).apBase + off) s = (Except.ok pas, u) ∧ pas.Nodup)
    ∧ (∃ (fn : Nat) (s : State), s.power.phase = 0 ∧ s.apertureOpen fn = false) :=
  ⟨⟨0, 0, 2, [0, 0], apRun, _, by decide, by decide, by decide, Prod.ext (by decide) rfl⟩,
   ⟨0, 0x40, ones64, List.range' 64 64, { apRun with mem := { apRun.mem with poison := [1], bytes := [(3, 7)] } }, { apRun with mem := { apRun.mem with poison := [1], bytes := [(3, 7)] } }, by decide, by decide, by decide, by decide, by decide, by decide⟩,
   ⟨0, run, by decide, by decide⟩⟩

theorem test_wit_WindowsOpenAndClose :
    (∃ (w : Nat) (new : PcieWindow) (s : State), aget w s.mem.windowPending = some new ∧ s.windowPinned (s.pcieWindow w) = false)
    ∧ (∃ (w : Nat) (new : PcieWindow) (s : State), aget w s.mem.windowPending = some new ∧ s.windowPinned (s.pcieWindow w) = true)
    ∧ (∃ (s : State) (w : Window0), s.dealing = true ∧ s.windowNow = some w ∧ s.svis.openWin = none ∧ (∀ p ∈ s.svis.programs, p.start = none))
    ∧ (∃ (s : State) (w : Window0) (p : Program) (rest : List Program), s.svis.openWin = some w ∧ s.svis.programs = p :: rest ∧ w.programs = true ∧ p.start = none ∧ p.fault = none ∧ p.takenPs < w.beganPs ∧ p.dieMask &&& ~~~w.dieMask = 0 ∧ s.cad.trick < w.stop ∧ 0 < (List.map streamCores p.info.streams).sum ∧ (∀ c ∈ s.svis.cores, ∀ q ∈ c.2.streams, ownedBy p.id q.owner = false) ∧ (∀ q ∈ rest, q.start = none))
    ∧ (∃ (s : State) (w : Window0), s.svis.openWin = some w ∧ w.stop ≤ s.cad.trick)
    ∧ (∃ (p : Path) (w : Nat) (v : Bytes) (s : State), s.gate p 8449 (w + 1) true = 0 ∧ w < 128 ∧ List.length v = 32 ∧ windowRsvd v = false ∧ s.windowPinned (s.pcieWindow w) = false ∧ ((parseWindow v).enable = true → windowInRange (parseWindow v) = true) ∧ (∀ x ∈ s.mem.windows, x.1 ≠ w → x.2.enable = true → overlaps (BitVec.toNat x.2.devBase) (windowSpan x.2) (BitVec.toNat (parseWindow v).devBase) (windowSpan (parseWindow v)) = false)) :=
  ⟨⟨127, pw, { run with mem := { windowPending := [(127, pw)] } }, by decide, by decide⟩,
   ⟨127, {}, { deals9 7 with mem := { windows := [(127, pw)], windowPending := [(127, {})] }, dealer := { running := some { plan9 with pins := [{ base := 0x800000000000, size := 65536, owners := [.dealer] }] } } }, by decide, by decide⟩,
   ⟨{ deals9 0 with forms := [formW], svis := { cores := [(0, { store := [(70, 9), (130, 1)], marks := [1] })], clusters := [(0, { marks := [2] })], programs := [program0] } }, { openWin0 with gbps := some 0 }, by decide, by decide, by decide, by decide⟩,
   ⟨{ deals9 7 with svis := { openWin := some openWin0, programs := [program0], cores := [(0, { regs := [(1, 2)], chips := [(1, 1)], store := [(3, 4)] })] } }, openWin0, program0, [], by and_intros <;> decide⟩,
   ⟨{ deals9 256 with svis := { openWin := some openWin0, programs := [{ program0 with start := some 7 }] } }, openWin0, by decide, by decide⟩,
   ⟨.mirror 0 0, 127, record 32 [(0, 8, 0x800000000000), (0x10, 1, 16), (0x11, 1, 3)], run, by and_intros <;> decide⟩⟩

theorem test_wit_KeySlotsChange :
    (∃ (n : Nat) (v : Bytes) (s : State), s.gate (Path.secured n) 8960 9 true = 0 ∧ List.length v = 40 ∧ byteAt v 0 < 8 ∧ nonzero v 1 3 = false ∧ le v 4 4 ≠ 0 ∧ s.keysAllowed = true ∧ s.slotsShut = false ∧ s.securedPath (Path.secured n) = true ∧ s.dealing = true)
    ∧ (∃ (n : Nat) (v : Bytes) (s : State), s.gate (Path.secured n) 8960 9 true = 0 ∧ List.length v = 40 ∧ byteAt v 0 < 8 ∧ nonzero v 1 3 = false ∧ le v 4 4 ≠ 0 ∧ s.keysAllowed = true ∧ s.slotsShut = false ∧ s.securedPath (Path.secured n) = true ∧ s.dealing = false ∧ s.power.phase ≠ 2 ∧ (∀ x ∈ s.vault.keyPending, x.1 ≠ byteAt v 0))
    ∧ (∃ (p : Path) (k : Nat) (s : State), s.gate p 8960 10 true = 0 ∧ k < 8 ∧ s.keysAllowed = true ∧ s.slotsShut = false ∧ s.dealing = true)
    ∧ (∃ (p : Path) (k : Nat) (s : State), s.gate p 8960 10 true = 0 ∧ k < 8 ∧ s.keysAllowed = true ∧ s.slotsShut = false ∧ s.dealing = false ∧ s.power.phase ≠ 2 ∧ (∀ x ∈ s.vault.keyPending, x.1 ≠ k))
    ∧ (∃ (k : Nat) (j : Nat) (t : Nat) (v : Option (Nat × BitVec 256)) (s : State), (List.find? (fun x => decide (x.1 = k)) s.vault.keyPending = some (j, v, t)) ∧ (s.dealing = false ∨ s.cad.trick = 0 ∧ t + 100000000 ≤ s.cad.startPs))
    ∧ (∃ (k : Nat) (j : Nat) (t : Nat) (v : Option (Nat × BitVec 256)) (s : State), (List.find? (fun x => decide (x.1 = k)) s.vault.keyPending = some (j, v, t)) ∧ s.dealing = true ∧ (s.cad.trick ≠ 0 ∨ s.cad.startPs < t + 100000000)) :=
  ⟨⟨3, keyRec, { deals 7 with sec := { lifeCycle := 1, spdm := [{ id := 3, state := 2 }] }, start := run.start }, by and_intros <;> decide⟩,
   ⟨3, keyRec, { provisioned with sec := { lifeCycle := 1, spdm := [{ id := 3, state := 2 }] } }, by and_intros <;> decide⟩,
   ⟨.mirror 0 0, 7, { deals 7 with sec := { lifeCycle := 1 } }, by decide, by decide, by decide, by decide, by decide⟩,
   ⟨.mirror 0 0, 7, keyed, by decide, by decide, by decide, by decide, by decide, by decide, by decide⟩,
   ⟨7, 7, 41, some (5, 1), { deals 0 with cad := { (deals 0).cad with startPs := 100000041 }, vault := { keyPending := [(7, some (5, 1), 41)] } }, by decide, by decide⟩,
   ⟨7, 7, 41, some (5, 1), { deals 0 with cad := { (deals 0).cad with startPs := 100000040 }, vault := { keyPending := [(7, some (5, 1), 41)] } }, by decide, by decide, by decide⟩⟩

theorem test_wit_TableSlotsChange :
    (∃ (p : Path) (k : Nat) (v : Bytes) (s : State), s.gate p 9728 (k + 1) true = 0 ∧ k < 32 ∧ (v = [] ∨ List.length v = 3136 ∧ imageRsvd v = false) ∧ s.tableReason k v = 0)
    ∧ (∃ (p : Path) (k : Nat) (v : Bytes) (s : State), s.gate p 9728 (k + 1) true = 0 ∧ k < 32 ∧ (v = [] ∨ List.length v = 3136 ∧ imageRsvd v = false) ∧ s.tableReason k v ≠ 0)
    ∧ (∃ (k : Nat) (j : Nat) (t : Nat) (l : Nat) (v : Bytes) (s : State), (List.find? (fun x => decide (x.1 = k)) s.svis.tablePending = some (j, v, t)) ∧ s.cad.len = some l ∧ s.cad.trick = 0 ∧ t + 100000000 ≤ s.cad.startPs)
    ∧ (∃ (k : Nat) (j : Nat) (t : Nat) (l : Nat) (v : Bytes) (s : State), (List.find? (fun x => decide (x.1 = k)) s.svis.tablePending = some (j, v, t)) ∧ s.cad.len = some l ∧ (s.cad.trick ≠ 0 ∨ s.cad.startPs < t + 100000000))
    ∧ (∃ (p : Path) (k : Nat) (v : Bytes) (s : State), s.gate p 9728 (k + 1) true = 0 ∧ k < 32 ∧ v ≠ [] ∧ List.length v ≠ 3136) :=
  ⟨⟨.mirror 0 0, 31, [], run, by decide, by decide, by decide, by decide⟩,
   ⟨.mirror 0 0, 31, [], { run with forms := [{ form9 with native := { form9.native with tables := 0x80000000 } }] }, by decide, by decide, by decide, by decide⟩,
   ⟨31, 31, 41, 1024, [], { deals 0 with cad := { (deals 0).cad with startPs := 100000041 }, svis := { tablePending := [(31, [], 41)], tables := [(31, [1])] } }, by decide, by decide, by decide, by decide⟩,
   ⟨31, 31, 41, 1024, [], { deals 0 with cad := { (deals 0).cad with startPs := 100000040 }, svis := { tablePending := [(31, [], 41)], tables := [(31, [1])] } }, by decide, by decide, by decide⟩,
   ⟨.mirror 0 0, 31, [1], run, by decide, by decide, by decide, by decide⟩⟩

theorem test_wit_PassesAndScrub :
    (∃ (v : Bytes) (t : Ticket) (s : State), s.vault.pass = none ∧ s.vault.passCmd = some t ∧ s.vault.passFrom = none ∧ s.passRefusal v = none ∧ (parsePassHead v).mend = false ∧ s.dict.settings.passLink = 255)
    ∧ (∃ (v : Bytes) (m : Media) (p : PassRun) (i : Nat) (e : ImageEntry) (s : State), s.vault.pass = some p ∧ s.vault.passFrom = none ∧ p.ended = false ∧ p.status = 0 ∧ recordBad p v = false ∧ s.dict.settings.passLink = 255 ∧ p.head.mend = false ∧ p.entry = some i ∧ aget i s.nv.images = some e ∧ byteAt v 0 % 16 = s.keptPos p.head ∧ m = Media.good)
    ∧ (∃ (p : PassRun) (i : Nat) (e : ImageEntry) (s : State), s.vault.pass = some p ∧ p.ended = false ∧ p.status = 0 ∧ p.whole = true ∧ p.head.mend = false ∧ p.entry = some i ∧ aget i s.nv.images = some e)
    ∧ (∃ (p : PassRun) (t : Ticket) (n : Nat) (s : State), s.vault.pass = some p ∧ s.vault.passFrom = none ∧ p.ended = true ∧ p.ticket = some t ∧ p.status ≤ n)
    ∧ (∃ (die : Nat) (block : Nat) (i : Nat) (j : Nat) (idx : Nat) (e : ImageEntry) (e' : ImageEntry) (s : State), s.blockOwner die block = some (i, e, idx) ∧ s.imageOf e.id = some (j, e'))
    ∧ (∃ (die : Nat) (block : Nat) (i : Nat) (j : Nat) (idx : Nat) (e : ImageEntry) (e' : ImageEntry) (s : State), s.blockOwner die block = some (i, e, idx) ∧ s.imageOf e.id = some (j, e'))
    ∧ (∃ (die : Nat) (block : Nat) (s : State), s.blockOwner die block = none) :=
  ⟨⟨passBytes, ticket 0x40, { keyed with vault := { keyed.vault with passCmd := some (ticket 0x40) } }, by decide, by decide, by decide, by simp only [passBytes, State.passRefusal, passHeadBad, crc32cSkip, crc32c, crcGo_eq]; decide +kernel, by decide, by decide⟩,
   ⟨List.replicate 4128 0, .good, passRun 1, 0, { entry3 with state := 1 }, passing, by decide, by decide, by decide, by decide, by simp only [recordBad, byteAt_zeros, le_zeros, nonzero_zeros, List.length_replicate]; decide, by decide, by decide, by decide, by decide, by rw [byteAt_zeros]; decide, by decide⟩,
   ⟨passRun 0, 0, { entry3 with state := 1 }, { passing with vault := { passing.vault with pass := some (passRun 0) } }, by decide, by decide, by decide, by decide, by decide, by decide, by decide⟩,
   ⟨{ passRun 0 with ended := true, status := 8 }, ticket 0x40, 8, { passing with vault := { passing.vault with pass := some { passRun 0 with ended := true, status := 8 } } }, by decide, by decide, by decide, by decide, by decide⟩,
   ⟨0, 16, 0, 0, 0, entry3, entry3, vaulted, by decide, by decide⟩,
   ⟨0, 16, 0, 0, 0, entry3, entry3, vaulted, by decide, by decide⟩,
   ⟨0, 17, vaulted, by decide⟩⟩

theorem test_wit_ConfigurationWrites :
    (∃ (p : Path) (e : Nat) (b : Nat) (v : Bytes) (s : State), s.gate p (9217 + e) (b + 1) true = 0 ∧ e < 4 ∧ b < 64 ∧ List.length v = 16 ∧ le v 0 8 < 2 ^ 48 ∧ le v 0 8 % 64 = 0 ∧ nonzero v 14 2 = false ∧ byteAt v 12 ≤ 2 ∧ (∀ x ∈ s.video.sessions, x.1 / 64 = e → x.2.state ≠ 0 → (poolRange x.2.desc).contains b = false))
    ∧ (∃ (p : Path) (w : Nat) (v : Bytes) (s : State), s.gate p 8449 (w + 1) true = 0 ∧ w < 128 ∧ List.length v = 32 ∧ windowRsvd v = false ∧ ((parseWindow v).enable = true → windowInRange (parseWindow v) = true) ∧ (∀ x ∈ s.mem.windows,   x.1 ≠ w →     x.2.enable = true →       overlaps (BitVec.toNat x.2.devBase) (windowSpan x.2) (BitVec.toNat (parseWindow v).devBase)           (windowSpan (parseWindow v)) =         false) ∧ s.windowPinned (s.pcieWindow w) = false)
    ∧ (∃ (p : Path) (w : Nat) (v : Bytes) (s : State), s.gate p 8449 (w + 1) true = 0 ∧ w < 128 ∧ List.length v = 32 ∧ windowRsvd v = false ∧ ((parseWindow v).enable = true → windowInRange (parseWindow v) = true) ∧ (∀ x ∈ s.mem.windows,   x.1 ≠ w →     x.2.enable = true →       overlaps (BitVec.toNat x.2.devBase) (windowSpan x.2) (BitVec.toNat (parseWindow v).devBase)           (windowSpan (parseWindow v)) =         false) ∧ s.windowPinned (s.pcieWindow w) = true ∧ (parseWindow v).enable = false)
    ∧ (∃ (p : Path) (a : Nat) (s : State), s.gate p (12288 + a) 9 true = 0 ∧ a < 4096)
    ∧ (∃ (p : Path) (s : State), s.gate p 8704 23 true = 0)
    ∧ (∃ (p : Path) (v : Bytes) (s : State), s.gate p 8705 1 true = 0 ∧ List.length v = 4096 ∧ (∀ x ∈ v, BitVec.toNat x < 64))
    ∧ (∃ (p : Path) (s : State), s.gate p 16384 5 true = 0)
    ∧ (∃ (p : Path) (s : State), s.gate p 5376 1 true = 0 ∧ s.dict.storing = none ∧ s.dict.seqInForce ≠ 4294967295)
    ∧ (∃ (p : Path) (s : State), s.gate p 5376 3 true = 0 ∧ s.dict.storing = none)
    ∧ (∃ (c : UserCopy) (s : State), s.dict.storing = some c) :=
  ⟨⟨(.mirror 0 0), 3, 63, record 16 [(0, 8, 0xFFFFFFFFFFC0), (8, 4, 4096), (0xC, 1, 2)], run, by decide, by decide, by decide, by decide, by decide, by decide, by decide, by decide, by decide⟩,
   ⟨(.mirror 0 0), 127, windowBytes pw, run, by decide, by decide, by decide, by decide, by decide, by decide, by decide⟩,
   ⟨(.mirror 0 0), 127, windowBytes {}, { deals9 7 with mem := { windows := [(127, pw)] }, dealer := { running := some { plan9 with pins := [{ base := 0x800000000000, size := 65536, owners := [.dealer] }] } } }, by decide, by decide, by decide, by decide, by decide, by decide, by decide, by decide⟩,
   ⟨(.mirror 0 0), 4095, run, by decide, by decide⟩,
   ⟨(.mirror 0 0), run, by decide⟩,
   ⟨(.mirror 0 0), List.replicate 4096 63, run, by decide, by rw [List.length_replicate], fun x hx => by rw [List.eq_of_mem_replicate hx]; decide⟩,
   ⟨(.mirror 0 0), run, by decide⟩,
   ⟨(.mirror 0 0), run, by decide, by decide, by decide⟩,
   ⟨(.mirror 0 0), run, by decide, by decide⟩,
   ⟨{ seq := 1, brim := 1, recs := [] }, { run with dict := { storing := some { seq := 1, brim := 1, recs := [] } } }, by decide⟩⟩

theorem test_wit_ControlWrites :
    (∃ (p : Path) (s : State), s.gate p 9472 9 true = 0)
    ∧ (∃ (p : Path) (a : Nat) (s : State), s.gate p 9472 3 true = 0 ∧ a ≤ 31 ∧ s.cascade.isBanker = true ∧ (∃ e ∈ s.hb.order, e.addr = a ∧ e.elig = true) ∧ a ≠ s.hb.addr ∧ s.cascade.handoverTo = none)
    ∧ (∃ (p : Path) (v : Bytes) (s : State), s.gate p 9472 16 true = 0 ∧ List.length v = 64 ∧ nonzero v 5 3 = false ∧ nonzero v 32 28 = false ∧ s.bindingStatus v = 0)
    ∧ (∃ (p : Path) (v : Bytes) (s : State), s.gate p 9472 16 true = 0 ∧ List.length v = 64 ∧ nonzero v 5 3 = false ∧ nonzero v 32 28 = false ∧ s.bindingStatus v ≠ 0)
    ∧ (∃ (p : Path) (v : Nat) (s : State), s.gate p 5120 11 true = 0 ∧ v ≤ 1 ∧ s.dealing = false ∧ s.sec.preparing = false)
    ∧ (∃ (p : Path) (n : Nat) (s : State), s.gate p 5120 12 true = 0 ∧ 1 ≤ n ∧ n ≤ 65535 ∧ s.dealing = false ∧ s.sec.preparing = false ∧ s.dealer.halted = true)
    ∧ (∃ (p : Path) (s : State), s.gate p 4864 1 true = 0 ∧ s.power.phase = 0)
    ∧ (∃ (p : Path) (s : State), s.gate p 4864 1 true = 0 ∧ s.power.phase = 1)
    ∧ (∃ (p : Path) (s : State), s.gate p 4864 1 true = 0 ∧ s.power.phase = 2)
    ∧ (∃ (p : Path) (s : State), s.gate p 5120 3 true = 0 ∧ s.sec.preparing = false ∧ s.sec.session = false)
    ∧ (∃ (p : Path) (ok : Bool) (s : State), s.gate p 5120 3 true = 0 ∧ s.sec.preparing = false ∧ s.sec.session = true ∧ (s.sec.level = 2 → s.keysAllowed = true → ok = true))
    ∧ (∃ (p : Path) (r : Bytes) (s : State), s.gate p 5120 2 true = 0 ∧ List.length r = 256 ∧ signedRsvd 0 r = false ∧ s.power.phase = 0 ∧ s.signedRefusal 0 r = 0 ∧ byteAt r 6 = 1)
    ∧ (∃ (p : Path) (r : Bytes) (s : State), s.gate p 5120 2 true = 0 ∧ List.length r = 256 ∧ signedRsvd 0 r = false ∧ s.power.phase = 0 ∧ s.signedRefusal 0 r = 0 ∧ byteAt r 6 = 2)
    ∧ (∃ (p : Path) (s : State), s.gate p 5120 2 true = 0 ∧ s.power.phase = 0 ∧ s.sec.lifeCycle = 0 ∧ s.securityBusy = false)
    ∧ (∃ (p : Path) (r : Bytes) (s : State), s.gate p 5376 20 true = 0 ∧ List.length r = 256 ∧ signedRsvd 2 r = false ∧ s.power.phase = 0 ∧ s.signedRefusal 2 r = 0)
    ∧ (∃ (p : Path) (k : Nat) (v : Bytes) (s : State), s.gate p 5376 (32 + k) true = 0 ∧ k < 16 ∧ List.length v ≤ 1048576)
    ∧ (∃ (p : Path) (s : State), s.gate p 5376 17 true = 0 ∧ s.nv.stagingState ≠ 2)
    ∧ (∃ (p : Path) (s : State), s.gate p 5376 25 true = 0 ∧ (s.boot.slot !s.start.runB) = 1 ∧ s.boot.brimFloor ≤ svn (if s.start.runB = true then s.nv.slotA else s.nv.slotB).header)
    ∧ (∃ (p : Path) (s : State), s.gate p 5376 30 true = 0 ∧ s.atBoundary = false)
    ∧ (∃ (p : Path) (s : State), s.gate p 5376 30 true = 0 ∧ s.atBoundary = true) :=
  ⟨⟨.self, run, by decide⟩,
   ⟨(.mirror 0 0), 31, { run with cascade := { isBanker := true }, hb := { order := [{ bmc := false, elig := true, addr := 31 }] } }, by decide, by decide, by decide, ⟨_, .head _, rfl, rfl⟩, by decide, by decide⟩,
   ⟨(.mirror 0 0), bindBytes, { run with hb := { present := 3 } }, by decide, by decide, by decide, by decide, by simp only [bindBytes, State.bindingStatus, crc32cSkip, crc32c, crcGo_eq]; decide +kernel⟩,
   ⟨(.mirror 0 0), bindBytes, run, by decide, by decide, by decide, by decide, by simp only [bindBytes, State.bindingStatus, crc32cSkip, crc32c, crcGo_eq]; decide +kernel⟩,
   ⟨.tap, 1, { run with sec := { level := 2, path := 1, session := true } }, by decide, by decide, by decide, by decide⟩,
   ⟨.tap, 65535, { run with sec := { level := 2, path := 1, session := true }, dealer := { halted := true } }, by decide, by decide, by decide, by decide, by decide, by decide⟩,
   ⟨(.mirror 0 0), run, by decide, by decide⟩,
   ⟨(.mirror 0 0), { run with power := { phase := 1 } }, by decide, by decide⟩,
   ⟨(.mirror 0 0), { run with power := { phase := 2 } }, by decide, by decide⟩,
   ⟨(.mirror 0 0), run, by decide, by decide, by decide⟩,
   ⟨(.mirror 0 0), true, { provisioned with sec := { lifeCycle := 1, level := 2, session := true, path := 1 } }, by decide, by decide, by decide, fun _ _ => rfl⟩,
   ⟨(.mirror 0 0), grant 1, provisioned, by decide +kernel, by decide +kernel, by decide +kernel, by decide +kernel, by decide +kernel, by decide +kernel⟩,
   ⟨(.mirror 0 0), grant 2, provisioned, by decide +kernel, by decide +kernel, by decide +kernel, by decide +kernel, by decide +kernel, by decide +kernel⟩,
   ⟨(.mirror 0 0), run, by decide, by decide, by decide, by decide⟩,
   ⟨(.mirror 0 0), crown, { provisioned with nv := { stagingState := 4 } }, by decide +kernel, by decide +kernel, by decide +kernel, by decide +kernel, by decide +kernel⟩,
   ⟨(.mirror 0 0), 15, [1, 2], run, by decide, by decide, by decide⟩,
   ⟨(.mirror 0 0), { run with nv := { staging := [(0, [1])], stagingState := 1 } }, by decide, by decide⟩,
   ⟨(.mirror 0 0), { run with nv := { bootA := some { slotB := 1 }, bootB := some { slotB := 1 } } }, by decide, by decide, by decide⟩,
   ⟨(.mirror 0 0), deals 7, by decide, by decide⟩,
   ⟨(.mirror 0 0), run, by decide, by decide⟩⟩

theorem test_wit_AccessesReachTheEntry :
    (∃ (p : Path) (v : Bytes) (s : State), s.gate p 4864 35 true = 0 ∧ List.length v = 1 ∧ 1 ≤ byteAt v 0 ∧ byteAt v 0 ≤ 40)
    ∧ (∃ (p : Path) (v : Bytes) (s : State) (r : MirrorReq), s.gate p 4864 35 true = 0 ∧ List.length v = 1 ∧ 1 ≤ byteAt v 0 ∧ byteAt v 0 ≤ 40 ∧ p = Path.mirror r.fn r.slot ∧ s.dict.remote = [] ∧ r.index = 4864 ∧ r.sub = 35 ∧ r.op = 0 ∧ r.target = 255 ∧ r.rsvd = false ∧ r.offset = 0 ∧ r.len = 1 ∧ r.data = v ∧ r.irq = false)
    ∧ (∃ (p : Path) (s : State), s.gate p 4864 35 false = 0 ∧ p = Path.tap)
    ∧ (∃ (p : Path) (s : State) (r : MirrorReq), s.gate p 4864 35 false = 0 ∧ p = Path.mirror r.fn r.slot ∧ s.dict.remote = [] ∧ r.index = 4864 ∧ r.sub = 35 ∧ r.op = 0 ∧ r.target = 255 ∧ r.rsvd = false ∧ r.offset = 0 ∧ r.len = 1 ∧ r.irq = false)
    ∧ (∃ (p : Path) (s : State) (r : MirrorReq) (n : Nat) (x : Spdm), s.gate p 4864 35 false = 0 ∧ p = Path.secured n ∧ s.spdmUp = true ∧ s.spdmSession n = some x ∧ x.state = 2 ∧ r.index = 4864 ∧ r.sub = 35 ∧ r.op = 0 ∧ r.target = 255 ∧ r.rsvd = false ∧ r.offset = 0 ∧ r.len = 1)
    ∧ (∃ (r : MirrorReq) (s : State), s.dict.remote = [] ∧ r.fn = 0 ∧ r.rsvd = false ∧ r.op ≤ 2 ∧ (r.len = 1 ∨ r.len = 2 ∨ r.len = 4 ∨ r.len = 8))
    ∧ (∃ (p : Path) (i : Nat) (j : Nat) (n : Nat) (s : State), s.gate p i j true = n ∧ n ≠ 0)
    ∧ (∃ (p : Path) (i : Nat) (j : Nat) (n : Nat) (s : State), s.gate p i j true = n ∧ n ≠ 0 ∧ i = 8960 ∧ j = 9)
    ∧ (∃ (p : Path) (i : Nat) (j : Nat) (n : Nat) (s : State), s.gate p i j true = n ∧ n ≠ 0 ∧ i = 5120 ∧ j = 2)
    ∧ (∃ (p : Path) (i : Nat) (j : Nat) (n : Nat) (s : State), s.gate p i j true = n ∧ n ≠ 0 ∧ i = 5376 ∧ j = 30)
    ∧ (∃ (p : Path) (s : State) (a : Nat), a < 4096 ∧ s.gate p (12288 + a) 9 true = 0)
    ∧ (∃ (p : Path) (s : State), s.gate p 8704 23 true = 0)
    ∧ (∃ (p : Path) (s : State), s.gate p 16384 5 true = 0)
    ∧ (∃ (p : Path) (s : State), s.gate p 5376 1 true = 0 ∧ s.dict.storing = none ∧ s.dict.seqInForce ≠ 4294967295)
    ∧ (∃ (p : Path) (s : State), s.gate p 5376 3 true = 0 ∧ s.dict.storing = none)
    ∧ (∃ (p : Path) (s : State) (v : Bytes), s.gate p 8705 1 true = 0 ∧ List.length v = 4096 ∧ (∀ x ∈ v, BitVec.toNat x < 64))
    ∧ (∃ (p : Path) (v : Bytes) (s : State), s.gate p 4864 35 true = 0 ∧ List.length v = 1 ∧ 1 ≤ byteAt v 0 ∧ byteAt v 0 ≤ 40 ∧ p = Path.tap) :=
  ⟨⟨(.mirror 0 15), [40], run, by decide, by decide, by decide, by decide⟩,
   ⟨(.mirror 0 15), [40], run, stepReq, by and_intros <;> decide⟩,
   ⟨.tap, { run with sec := { level := 2, path := 1 } }, by decide, by decide⟩,
   ⟨(.mirror 0 15), run, stepReq, by and_intros <;> decide⟩,
   ⟨(.secured 1), { run with sec := { spdm := [{ id := 1, state := 2 }] } }, stepReq, 1, { id := 1, state := 2 }, by and_intros <;> decide⟩,
   ⟨stepReq, run, by decide, by decide, by decide, by decide, by decide⟩,
   ⟨(.mirror 1 0), 0x1300, 0x23, 0x12, run, by decide, by decide⟩,
   ⟨.mirror 1 0, 0x2300, 9, 0x12, run, by decide, by decide, rfl, rfl⟩,
   ⟨.mirror 1 0, 0x1400, 2, 0x12, run, by decide, by decide, rfl, rfl⟩,
   ⟨.mirror 1 0, 0x1500, 30, 0x12, run, by decide, by decide, rfl, rfl⟩,
   ⟨.mirror 0 0, run, 4095, by decide, by decide⟩,
   ⟨.mirror 0 0, run, by decide⟩,
   ⟨.mirror 0 0, run, by decide⟩,
   ⟨.mirror 0 0, run, by decide, by decide, by decide⟩,
   ⟨.mirror 0 0, run, by decide, by decide⟩,
   ⟨.mirror 0 0, run, List.replicate 4096 63, by decide, by rw [List.length_replicate], fun x h => by rw [List.eq_of_mem_replicate h]; decide⟩,
   ⟨.tap, [40], { run with sec := { level := 2, path := 1 } }, by decide, by decide, by decide, by decide, rfl⟩⟩

theorem test_wit_RingCallsAreAnswered :
    (∃ (c : HbCall) (s : State), s.board.hbAlive = true ∧ c.ok = true ∧ c.used = true ∧ c.caller ≠ s.hb.addr ∧ c.target = s.hb.addr ∧ s.hb.dup = false ∧ c.status = 0 ∧ s.responder = true)
    ∧ (∃ (n : Nat) (c : HbCall) (e : OdEntry) (s : State), s.board.hbAlive = true ∧ c.ok = true ∧ c.used = true ∧ c.caller ≠ s.hb.addr ∧ c.target = s.hb.addr ∧ s.hb.dup = false ∧ c.status = 0 ∧ s.responder = false ∧ s.sec.lifeCycle ≠ 4 ∧ s.callAllowed n     { ok := c.ok, rsvd := c.rsvd, used := c.used, kind := 0, cls := c.cls, target := c.target, caller := c.caller,       index := c.index, sub := c.sub, op := c.op, len := c.len, offset := c.offset, status := c.status, tag := c.tag,       data := c.data, contrib := c.contrib, alen := c.alen } =   true ∧ badCall     { ok := c.ok, rsvd := c.rsvd, used := c.used, kind := 0, cls := c.cls, target := c.target, caller := c.caller,       index := c.index, sub := c.sub, op := c.op, len := c.len, offset := c.offset, status := c.status, tag := c.tag,       data := c.data, contrib := c.contrib, alen := c.alen } =   false ∧ s.gate (Path.ring n c.cls c.caller) c.index c.sub false = 0 ∧ odEntry c.index c.sub = some e ∧ e.slow = false ∧ typeWidth e.type ≠ 0 ∧ c.offset = 0 ∧ typeWidth e.type ≤ c.len ∧ c.index ≠ 8192)
    ∧ (∃ (n : Nat) (c : HbCall) (s : State), s.board.hbAlive = true ∧ c.ok = true ∧ c.used = true ∧ c.caller ≠ s.hb.addr ∧ c.target = s.hb.addr ∧ s.hb.dup = false ∧ c.status = 0 ∧ s.responder = false ∧ s.sec.lifeCycle ≠ 4 ∧ s.callAllowed n     { ok := c.ok, rsvd := c.rsvd, used := c.used, kind := 0, cls := c.cls, target := c.target, caller := c.caller,       index := c.index, sub := c.sub, op := c.op, len := c.len, offset := c.offset, status := c.status, tag := c.tag,       data := c.data, contrib := c.contrib, alen := c.alen } =   false)
    ∧ (∃ (n : Nat) (c : HbCall) (s : State) (w : LastWrite), s.board.hbAlive = true ∧ c.ok = true ∧ c.used = true ∧ c.caller ≠ s.hb.addr ∧ c.target = s.hb.addr ∧ s.hb.dup = false ∧ c.status = 0 ∧ s.responder = false ∧ s.sec.lifeCycle ≠ 4 ∧ s.callAllowed n     { ok := c.ok, rsvd := c.rsvd, used := c.used, kind := 1, cls := c.cls, target := c.target, caller := c.caller,       index := c.index, sub := c.sub, op := c.op, len := c.len, offset := c.offset, status := c.status, tag := c.tag,       data := c.data, contrib := c.contrib, alen := c.alen } =   true ∧ badCall     { ok := c.ok, rsvd := c.rsvd, used := c.used, kind := 1, cls := c.cls, target := c.target, caller := c.caller,       index := c.index, sub := c.sub, op := c.op, len := c.len, offset := c.offset, status := c.status, tag := c.tag,       data := c.data, contrib := c.contrib, alen := c.alen } =   false ∧ (List.find? (fun w => decide (w.caller = c.caller) && decide (w.tag = c.tag)) s.hb.lastWrites = some w))
    ∧ (∃ (n : Nat) (c : HbCall) (s : State), s.board.hbAlive = true ∧ c.ok = true ∧ c.used = true ∧ c.caller ≠ s.hb.addr ∧ c.target = s.hb.addr ∧ s.hb.dup = false ∧ c.status = 0 ∧ s.responder = false ∧ s.sec.lifeCycle ≠ 4 ∧ s.callAllowed n     { ok := c.ok, rsvd := c.rsvd, used := c.used, kind := 1, cls := c.cls, target := c.target, caller := c.caller,       index := c.index, sub := c.sub, op := c.op, len := c.len, offset := c.offset, status := c.status, tag := c.tag,       data := c.data, contrib := c.contrib, alen := c.alen } =   true ∧ badCall     { ok := c.ok, rsvd := c.rsvd, used := c.used, kind := 1, cls := c.cls, target := c.target, caller := c.caller,       index := c.index, sub := c.sub, op := c.op, len := c.len, offset := c.offset, status := c.status, tag := c.tag,       data := c.data, contrib := c.contrib, alen := c.alen } =   false ∧ (List.find? (fun w => decide (w.caller = c.caller) && decide (w.tag = c.tag)) s.hb.lastWrites = none) ∧ s.gate (Path.ring n c.cls c.caller) 4864 35 true = 0 ∧ c.index = 4864 ∧ c.sub = 35 ∧ c.offset = 0 ∧ c.len = 1 ∧ 1 ≤ byteAt c.data 0 ∧ byteAt c.data 0 ≤ 40)
    ∧ (∃ (n : Nat) (c : HbCall) (s : State) (w : Nat), s.board.hbAlive = true ∧ c.ok = true ∧ c.used = true ∧ c.caller ≠ s.hb.addr ∧ badCall     { ok := c.ok, rsvd := c.rsvd, used := c.used, kind := 2, cls := c.cls, target := c.target, caller := c.caller,       index := c.index, sub := c.sub, op := c.op, len := c.len, offset := c.offset, status := c.status, tag := c.tag,       data := c.data, contrib := c.contrib, alen := c.alen } =   false ∧ s.callAllowed n     { ok := c.ok, rsvd := c.rsvd, used := c.used, kind := 2, cls := c.cls, target := c.target, caller := c.caller,       index := c.index, sub := c.sub, op := c.op, len := c.len, offset := c.offset, status := c.status, tag := c.tag,       data := c.data, contrib := c.contrib, alen := c.alen } =   true ∧ (c.len = 1 ∨ c.len = 2 ∨ c.len = 4 ∨ c.len = 8) ∧ s.responder = false ∧ s.contribution (Path.ring n c.cls c.caller) c.index c.sub c.len = some w)
    ∧ (∃ (n : Nat) (c : HbCall) (s : State), s.board.hbAlive = true ∧ c.ok = true ∧ c.used = true ∧ c.caller ≠ s.hb.addr ∧ s.contribution (Path.ring n c.cls c.caller) c.index c.sub c.len = none) :=
  ⟨⟨call 0x23 1 [], { onRing with start := { up := true } }, by decide, by decide, by decide, by decide, by decide, by decide, by decide, by decide⟩,
   ⟨12, call 0x23 1 [], { type := 2, acc := .rwn, mask := .all }, onRing, by and_intros <;> decide⟩,
   ⟨5, call 0x23 1 [], onRing, by and_intros <;> decide⟩,
   ⟨12, call 0x23 1 [40], { onRing with hb := { addr := 3, lastWrites := [{ caller := 9, tag := 1, status := 1, data := [] }] } }, { caller := 9, tag := 1, status := 1, data := [] }, by and_intros <;> decide⟩,
   ⟨12, call 0x23 1 [40], onRing, by and_intros <;> decide⟩,
   ⟨12, { call 0x23 1 [9] with op := 1 }, onRing, 4, by decide, by decide, by decide, by decide, by decide, by decide, by decide, by decide, by decide⟩,
   ⟨12, call 0xEE 1 [9], onRing, by decide, by decide, by decide, by decide, by decide⟩⟩

theorem test_wit_RoundsGoRound :
    (∃ (f : HbFrame) (s : State), s.board.hbAlive = true ∧ s.cascade.isBanker = false ∧ s.hb.seen.contains (f.header.round, f.header.bankerId) = false ∧ (∀ c ∈ f.slots, c.used = false) ∧ s.dict.remote = [])
    ∧ (∃ (f : HbFrame) (s : State), s.board.hbAlive = true ∧ s.cascade.isBanker = false ∧ s.hb.seen.contains (f.header.round, f.header.bankerId) = true)
    ∧ (∃ (f : HbFrame) (s : State), s.board.hbAlive = true ∧ s.cascade.isBanker = false ∧ (∀ c ∈ f.slots, c.used = false) ∧ s.dict.remote = [] ∧ f.standing.ok = true)
    ∧ (∃ (s : State), s.board.hbAlive = true ∧ s.cascade.isBanker = true ∧ s.cascade.syncWait = false ∧ s.cascade.handoverTo = none ∧ s.dict.remote = [])
    ∧ (∃ (s : State), s.board.hbAlive = true ∧ s.cascade.isBanker = true ∧ s.cascade.syncWait = false ∧ s.cascade.handoverTo.isSome = true)
    ∧ (∃ (f : HbFrame) (d : Nat) (x : Nat × Nat × Nat) (s : State), s.board.hbAlive = true ∧ s.cascade.isBanker = true ∧ (List.find? (fun y => decide (y.1 = f.header.round)) s.hb.sent = some x) ∧ d ≤ 16000 ∧ (∀ c ∈ f.slots, c.used = false) ∧ s.dict.remote = [])
    ∧ (∃ (a : Nat) (s : State), s.cascade.isBanker = true ∧ 3 ≤ (aget a s.hb.missing).getD 0 ∧ BitVec.getLsbD s.hb.lost a = false)
    ∧ (∃ (s : State), s.cascade.isBanker = true ∧ s.hb.broken = false ∧ (3 ≤ (List.filter (fun x => decide (x.2.1 + 16000000 < s.now)) s.hb.sent).length))
    ∧ (∃ (i : Nat) (j : Nat) (x : SlowPrep) (e : OdEntry) (s : State), s.dict.slow = [x] ∧ x.index = i ∧ x.sub = j ∧ x.copy = none ∧ odEntry i j = some e) :=
  ⟨⟨frame1 [], onRing, by decide, by decide, by decide, by decide, by decide⟩,
   ⟨frame1 [], { onRing with hb := { addr := 3, seen := [(7, 8)] } }, by decide, by decide, by decide⟩,
   ⟨frame1 [{ bmc := false, elig := true, addr := 3 }], onRing, by decide, by decide, by decide, by decide, by decide⟩,
   ⟨banker, by decide, by decide, by decide, by decide, by decide⟩,
   ⟨{ banker with cascade := { banker.cascade with handoverTo := some 9 } }, by decide, by decide, by decide, by decide⟩,
   ⟨frame1 [], 16000, (7, 42000000, 0), { banker with hb := { addr := 3, sent := [(7, 42000000, 0)] } }, by decide, by decide, by decide, by decide, by decide, by decide⟩,
   ⟨31, { banker with hb := { addr := 3, missing := [(31, 3)] } }, by decide, by decide, by decide⟩,
   ⟨{ banker with hb := { addr := 3, sent := [(1, 0, 0), (2, 8000000, 0), (3, 33999999, 0)] } }, by decide, by decide, by decide⟩,
   ⟨0x2000, 5, { index := 0x2000, sub := 5, firstPs := 7, copy := none }, { type := 5, acc := .ro }, { onRing with dict := { slow := [{ index := 0x2000, sub := 5, firstPs := 7, copy := none }] } }, by decide, by decide, by decide, by decide, by decide⟩⟩

theorem test_wit_WiresCarryWhatIsSent :
    (∃ (f : HbFrame), FrameFits f)
    ∧ (∃ (f : Flit), FlitFits f) :=
  ⟨⟨fullFrame, fullFrame_fits⟩,
   ⟨fullFlit, fullFlit_fits⟩⟩

theorem test_wit_DeckLinksCarryFlits :
    (∃ (k : Nat) (s : State), s.start.stage = 2 ∧ s.power.phase = 0 ∧ ((s.deckLink k).st = 0 ∨ (s.deckLink k).st = 1))
    ∧ (∃ (k : Nat) (s : State), (s.deckLink k).st = 2 ∧ s.boundLinks.contains k = false)
    ∧ (∃ (k : Nat) (s : State), (s.deckLink k).st = 2)
    ∧ (∃ (k : Nat) (s : State), (s.deckLink k).st = 2 ∧ s.boundLinks.contains k = false)
    ∧ (∃ (k : Nat) (a : Nat) (s : State), (s.deckLink k).st = 2 ∧ ((s.deckLink k).acked a).length < (s.deckLink k).sent.length)
    ∧ (∃ (k : Nat) (a : Nat) (s : State), (s.deckLink k).st = 2 ∧ (¬((s.deckLink k).acked a).length < (s.deckLink k).sent.length) ∧ (s.deckLink k).nakRun ≠ 31)
    ∧ (∃ (k : Nat) (a : Nat) (s : State), (s.deckLink k).st = 2 ∧ (¬((s.deckLink k).acked a).length < (s.deckLink k).sent.length) ∧ (s.deckLink k).nakRun = 31 ∧ s.boundLinks.contains k = false)
    ∧ (∃ (k : Nat) (f : Flit) (s : State), (s.deckLink k).st = 2 ∧ flitBad (s.deckLink k) f = true)
    ∧ (∃ (k : Nat) (f : Flit) (s : State), (s.deckLink k).st = 2 ∧ flitBad (s.deckLink k) f = false ∧ f.type = 3)
    ∧ (∃ (k : Nat) (f : Flit) (s : State) (x : DeckXfer), (s.deckLink k).st = 2 ∧ flitBad (s.deckLink k) f = false ∧ f.type = 1 ∧ ((if f.first = true then some (parseXfer (List.take f.len f.payload))   else     Option.map       (fun y =>         { deal := y.deal, die := y.die, row := y.row, col := y.col, dcore := y.dcore, doff := y.doff, count := y.count,           rpe := y.rpe, rchip := y.rchip, rsvd := y.rsvd, data := y.data ++ List.take f.len f.payload })       ((s.deckLink k).credit f.ack f.crData f.crNotice f.crPass).xfer) =   some x) ∧ List.length x.data < 64 * x.count)
    ∧ (∃ (k : Nat) (f : Flit) (s : State) (x : DeckXfer), (s.deckLink k).st = 2 ∧ flitBad (s.deckLink k) f = false ∧ f.type = 1 ∧ ((if f.first = true then some (parseXfer (List.take f.len f.payload))   else     Option.map       (fun y =>         { deal := y.deal, die := y.die, row := y.row, col := y.col, dcore := y.dcore, doff := y.doff, count := y.count,           rpe := y.rpe, rchip := y.rchip, rsvd := y.rsvd, data := y.data ++ List.take f.len f.payload })       ((s.deckLink k).credit f.ack f.crData f.crNotice f.crPass).xfer) =   some x) ∧ 64 * x.count ≤ List.length x.data ∧ (x.rsvd = true ∨ x.deal ≠ s.cad.deal % 65536))
    ∧ (∃ (k : Nat) (f : Flit) (s : State), (s.deckLink k).st = 2 ∧ flitBad (s.deckLink k) f = false ∧ f.type = 1 ∧ f.first = false ∧ ((s.deckLink k).credit f.ack f.crData f.crNotice f.crPass).xfer = none)
    ∧ (∃ (k : Nat) (f : Flit) (s : State), (s.deckLink k).st = 2 ∧ flitBad (s.deckLink k) f = false ∧ f.type = 2) :=
  ⟨⟨7, { run with cascade := { links := [(7, { st := 1, losses := 4 })] } }, by decide, by decide, by decide⟩,
   ⟨7, { run with cascade := { links := [(7, link2)] } }, by decide, by decide⟩,
   ⟨7, { run with cascade := { links := [(7, link2)] } }, by decide⟩,
   ⟨7, { run with cascade := { links := [(7, link2)] } }, by decide, by decide⟩,
   ⟨7, 4095, { run with cascade := { links := [(7, { link2 with sent := [{ seq := 4095, chan := 1, first := true, payload := [] }, { seq := 0, chan := 1, first := false, payload := [] }] })] } }, by decide, by decide⟩,
   ⟨7, 4094, { run with cascade := { links := [(7, { link2 with nakRun := 30, sent := [{ seq := 4095, chan := 1, first := true, payload := [] }] })] } }, by decide, by decide, by decide⟩,
   ⟨7, 4094, { run with cascade := { links := [(7, { link2 with nakRun := 31, sent := [{ seq := 4095, chan := 1, first := true, payload := [] }] })] } }, by decide, by decide, by decide, by decide⟩,
   ⟨7, { flit 1 true [] with seq := 1 }, { run with cascade := { links := [(7, link2)] } }, by decide, by decide⟩,
   ⟨7, flit 3 false [], { run with cascade := { links := [(7, link2)] } }, by decide, by decide, by decide⟩,
   ⟨7, flit 1 true (record 16 [(0, 2, 5), (6, 2, 1)]), { deals9 7 with cascade := { links := [(7, link2)] } }, parseXfer (record 16 [(0, 2, 5), (6, 2, 1)]), by decide, by decide, by decide, by decide, by decide⟩,
   ⟨7, flit 1 true (record 80 [(0, 2, 6)]), { deals9 7 with cascade := { links := [(7, link2)] } }, parseXfer (record 80 [(0, 2, 6)]), by decide, by decide, by decide, by decide, by decide, by decide⟩,
   ⟨7, flit 1 false [1], { run with cascade := { links := [(7, link2)] } }, by decide, by decide, by decide, by decide, by decide⟩,
   ⟨7, flit 2 true [], { run with cascade := { links := [(7, link2)] } }, by decide, by decide, by decide⟩⟩

theorem test_wit_GroupNoticesAndBindings :
    (∃ (k : Nat) (n : Notice) (s : State), s.hears k n = true ∧ (∀ r ∈ s.group.records, r.note ≠ n))
    ∧ (∃ (k : Nat) (n : Notice) (s : State), s.hears k n = true ∧ (∀ r ∈ s.group.records, r.note ≠ n) ∧ s.dealing = true ∧ s.cad.deal ≤ n.deal ∧ bits n.arg.toNat 8 8 ≠ 116)
    ∧ (∃ (k : Nat) (n : Notice) (s : State), s.hears k n = true ∧ (∀ r ∈ s.group.records, r.note ≠ n) ∧ bits n.arg.toNat 8 8 = 116)
    ∧ (∃ (k : Nat) (n : Notice) (s : State), s.hears k n = true ∧ (∀ r ∈ s.group.records, r.note ≠ n) ∧ s.dealer.redeal = none)
    ∧ (∃ (k : Nat) (n : Notice) (s : State), s.hears k n = false)
    ∧ (∃ (s : State), s.inGroup = true ∧ s.cad.compared = false ∧ s.dealing = true ∧ s.atLeft 128 = true ∧ outcomesDiffer (s.selects (s.cad.deal + 1)) = false ∧ s.selectsAgree (s.cad.deal + 1) = true)
    ∧ (∃ (s : State), s.inGroup = true ∧ s.cad.compared = false ∧ s.dealing = true ∧ s.atLeft 128 = true ∧ outcomesDiffer (s.selects (s.cad.deal + 1)) = false ∧ s.selectsAgree (s.cad.deal + 1) = false)
    ∧ (∃ (b : Option Binding) (s : State), s.group.stored = some b ∧ s.groupedPlan s.dealer.running = false ∧ s.groupedPlan s.dealer.selected = false ∧ s.groupedPlan s.dealer.redeal = false)
    ∧ (∃ (s : State), s.groupedPlan s.dealer.selected = true) :=
  ⟨⟨7, note 2 6 0x2000003, grouped (deals 7), by decide, by decide⟩,
   ⟨7, note 2 6 0x13003, grouped (deals 7), by decide, by decide, by decide, by decide, by decide⟩,
   ⟨7, note 2 6 0x7406, grouped (deals 7), by decide, by decide, by decide⟩,
   ⟨7, note 2 6 0, grouped (deals 7), by decide, by decide, by decide⟩,
   ⟨7, note 2 6 0, deals 7, by decide⟩,
   ⟨{ grouped (deals9 896) with group := { (grouped run).group with records := [{ kind := 1, note := note 0 6 9 }, { kind := 1, note := note 1 6 9 }, { kind := 1, note := note 2 6 9 }] } }, by decide, by decide, by decide, by decide, by decide, by decide⟩,
   ⟨{ grouped (deals9 896) with group := { (grouped run).group with records := [{ kind := 1, note := note 0 6 9 }, { kind := 1, note := note 1 6 8 }] } }, by decide, by decide, by decide, by decide, by decide, by decide⟩,
   ⟨none, { grouped run with group := { (grouped run).group with stored := some none } }, by decide, by decide, by decide, by decide⟩,
   ⟨{ deals 7 with forms := [{ form9 with mode := 1 }], dealer := { selected := some plan9 } }, by decide⟩⟩

theorem test_wit_BankersComeAndGo :
    (∃ (s : State), s.start.stage ≠ 0 ∧ s.cascade.elected = false ∧ s.cascade.isBanker = false ∧ s.sec.lifeCycle ≠ 4 ∧ (s.board.bankerEn = true ∨ s.dict.settings.candidate = 1) ∧ s.hb.lastHdr = none)
    ∧ (∃ (s : State), s.start.stage ≠ 0 ∧ s.cascade.elected = false ∧ s.cascade.isBanker = false ∧ s.sec.lifeCycle ≠ 4 ∧ (s.board.bankerEn = true ∨ s.dict.settings.candidate = 1) ∧ s.hb.lastHdr.isSome = true)
    ∧ (∃ (h : HbHeader) (s : State), s.hb.lastHdr = some h ∧ s.start.stage ≠ 0 ∧ s.cascade.isBanker = false ∧ s.sec.lifeCycle ≠ 4 ∧ s.dict.settings.eligible ≠ 0 ∧ s.hb.dup = false)
    ∧ (∃ (s : State), s.cascade.isBanker = true ∧ bit s.dict.settings.refSync 0 = true ∧ s.cascade.refState ≠ 2)
    ∧ (∃ (s : State), s.cascade.isBanker = true ∧ bit s.dict.settings.refSync 0 = true ∧ s.cascade.refState = 2)
    ∧ (∃ (s : State), s.cascade.isBanker = true ∧ s.cascade.syncWait = true ∧ 0 < s.cascade.genPeriod) :=
  ⟨⟨{ run with board := { bankerEn := true } }, by decide, by decide, by decide, by decide, by decide, by decide⟩,
   ⟨{ run with dict := { settings := { candidate := 1 } }, hb := { lastHdr := some header1 } }, by decide, by decide, by decide, by decide, by decide, by decide⟩,
   ⟨header1, { onRing with hb := { addr := 3, lastHdr := some header1, order := [{ bmc := false, elig := true, addr := 3 }] } }, by decide, by decide, by decide, by decide, by decide, by decide⟩,
   ⟨{ banker with dict := { settings := { refSync := 1 } } }, by decide, by decide, by decide⟩,
   ⟨{ banker with cascade := { banker.cascade with refState := 2 }, dict := { settings := { refSync := 1 } } }, by decide, by decide, by decide⟩,
   ⟨{ banker with cascade := { banker.cascade with syncWait := true } }, by decide, by decide, by decide⟩⟩

theorem test_wit_HeatAndSleep :
    (∃ (s : State), s.start.stage ≠ 0 ∧ s.power.phase ≠ 0)
    ∧ (∃ (s : State), s.start.stage ≠ 0 ∧ s.power.phase = 0)
    ∧ (∃ (n : ℤ) (s : State), s.start.up = true ∧ s.power.tripped = false ∧ 1100 ≤ n)
    ∧ (∃ (n : ℤ) (s : State), s.start.up = true ∧ s.power.tripped = false ∧ 1200 ≤ n)
    ∧ (∃ (n : ℤ) (s : State), s.start.up = true ∧ s.power.tripped = false ∧ n < 1100)
    ∧ (∃ (s : State), s.power.tripped = true ∧ 101 ≤ s.power.tripCool)
    ∧ (∃ (s : State), s.power.sleepReq = true ∧ s.power.phase = 0 ∧ s.sec.preparing = false ∧ s.atBoundary = true ∧ s.cad.st ≠ CadState.flywheel ∧ s.sec.lifeCycle ≠ 4)
    ∧ (∃ (s : State), (s.atBoundary = false ∨ s.cad.st = CadState.flywheel))
    ∧ (∃ (s : State), s.power.phase = 1 ∧ s.pins = [] ∧ s.mem.deferred = [] ∧ s.mem.windowPending = [] ∧ s.videoIdle = true)
    ∧ (∃ (s : State), s.power.phase = 1 ∧ (s.pins ≠ [] ∨ s.mem.deferred ≠ []))
    ∧ (∃ (ok : Bool) (s : State), s.power.phase = 3 ∧ (s.power.wakeCheck = true → ok = true))
    ∧ (∃ (ok : Bool) (s : State), s.power.phase = 3 ∧ s.power.wakeCheck = true ∧ ok = false) :=
  ⟨⟨{ run with now := 5000000000, power := { phase := 2 } }, by decide, by decide⟩,
   ⟨{ deals 7 with now := 5000000000 }, by decide, by decide⟩,
   ⟨1100, deals9 7, by decide, by decide, by decide⟩,
   ⟨1200, deals9 7, by decide, by decide, by decide⟩,
   ⟨1099, deals9 7, by decide, by decide, by decide⟩,
   ⟨{ run with power := { tripped := true, tripCool := 101 }, board := { thermN := true }, cad := { st := .left, holdThermal := true } }, by decide, by decide⟩,
   ⟨{ run with power := { sleepReq := true }, sec := { lifeCycle := 1, level := 2 }, vault := { keys := [(0, 5, 9)], keyPending := [(1, some (5, 1), 0)] } }, by decide, by decide, by decide, by decide, by decide, by decide⟩,
   ⟨{ deals 7 with power := { sleepReq := true } }, .inl (by decide)⟩,
   ⟨{ run with power := { phase := 1, runReq := true }, cascade := { links := [(0, link2), (1, { st := 3 })] } }, by decide, by decide, by decide, by decide, by decide⟩,
   ⟨{ run with power := { phase := 1 }, mem := { deferred := [{ ctx := 0, va := 0, len := 65536, ticket := ticket 0x21 }] } }, by decide, by decide⟩,
   ⟨true, { provisioned with power := { phase := 3, wakeCheck := true }, nv := { wrapped := [(2, 5, 77)] } }, by decide, fun _ => rfl⟩,
   ⟨false, { provisioned with power := { phase := 3, wakeCheck := true } }, by decide, by decide, by decide⟩⟩

theorem test_wit_DebugSessionsOpenAndEnd :
    (∃ (r : SignedRec) (s : State), s.sec.verifying = some r ∧ r.kind = 0 ∧ r.action = 1 ∧ s.sec.level ≠ 2)
    ∧ (∃ (r : SignedRec) (s : State), s.sec.verifying = some r ∧ r.kind = 0 ∧ r.action = 2 ∧ s.sec.level ≠ 2 ∧ s.keysAllowed = true)
    ∧ (∃ (r : SignedRec) (s : State), s.sec.verifying = some r ∧ r.kind = 1)
    ∧ (∃ (r : SignedRec) (s : State), s.sec.verifying = some r ∧ r.seq ≤ s.nv.authSeq)
    ∧ (∃ (w : Nat × Nat) (s : State), s.sec.openWait = some w ∧ s.sec.preparing = false ∧ s.power.sleepReq = false ∧ s.power.phase = 0 ∧ s.keysAllowed = true ∧ s.atBoundary = true ∧ s.cad.st ≠ CadState.flywheel)
    ∧ (∃ (w : Nat × Nat) (s : State), s.sec.openWait = some w ∧ s.sec.preparing = false ∧ (s.atBoundary = false ∨ s.cad.st = CadState.flywheel))
    ∧ (∃ (path : Nat) (expiry : Nat) (s : State), s.sec.openWait = some (path, expiry) ∧ s.sec.preparing = true ∧ (s.sec.lifeCycle = 1 ∨ s.sec.lifeCycle = 2))
    ∧ (∃ (e : Nat) (ok : Bool) (s : State), s.sec.openWait = none ∧ s.sec.expiry = some e ∧ s.sec.session = true ∧ s.sec.preparing = false ∧ (s.sec.level = 2 → s.keysAllowed = true → ok = true))
    ∧ (∃ (w : Nat × Nat) (s : State), s.sec.openWait = some w ∧ s.sec.preparing = false ∧ s.sec.level ≠ 2 ∧ s.sec.session = true) :=
  ⟨⟨signed 0 1, verifies (signed 0 1), by decide, by decide, by decide, by decide⟩,
   ⟨signed 0 2, verifies (signed 0 2), by decide, by decide, by decide, by decide, by decide⟩,
   ⟨signed 1 2, verifies (signed 1 2), by decide, by decide⟩,
   ⟨signed 0 1, { verifies (signed 0 1) with nv := { authSeq := 5 } }, by decide, by decide⟩,
   ⟨(3, 9), { keyed with sec := { lifeCycle := 2, openWait := some (3, 9) } }, by decide, by decide, by decide, by decide, by decide, by decide, by decide⟩,
   ⟨(3, 9), { deals 7 with sec := { lifeCycle := 2, openWait := some (3, 9) } }, by decide, by decide, .inl (by decide)⟩,
   ⟨3, 9, { run with seats := [(4, { state := 2 })], sec := { lifeCycle := 2, openWait := some (3, 9), preparing := true } }, by decide, by decide, by decide⟩,
   ⟨9000000000000, true, { run with sec := { lifeCycle := 1, level := 2, session := true, expiry := some 9000000000000 } }, by decide, by decide, by decide, by decide, by decide⟩,
   ⟨(3, 9), { run with sec := { lifeCycle := 2, level := 1, session := true, openWait := some (3, 9) } }, by decide, by decide, by decide, by decide⟩⟩

theorem test_wit_LifeCycleMoves :
    (∃ (s : State), s.commandDue 1 = true)
    ∧ (∃ (s : State), s.commandDue 2 = true)
    ∧ (∃ (s : State), s.commandDue 3 = true)
    ∧ (∃ (s : State), s.commandDue 4 = true)
    ∧ (∃ (s : State), s.commandDue 1 = false)
    ∧ (∃ (s : State), s.commandDue 2 = false)
    ∧ (∃ (s : State), s.commandDue 3 = false)
    ∧ (∃ (s : State), s.commandDue 4 = false) :=
  ⟨⟨{ run with sec := { command := some 1 } }, by decide⟩,
   ⟨{ run with sec := { lifeCycle := 1, command := some 2 } }, by decide⟩,
   ⟨{ deals9 7 with cad := { st := .ready }, sec := { lifeCycle := 2, command := some 3 } }, by decide⟩,
   ⟨{ vaulted with sec := { lifeCycle := 2, command := some 4 } }, by decide⟩,
   ⟨run, by decide⟩,
   ⟨run, by decide⟩,
   ⟨run, by decide⟩,
   ⟨{ deals 7 with sec := { lifeCycle := 2, command := some 4 } }, by decide⟩⟩

theorem test_wit_SpdmAnswers :
    (∃ (s : State), s.spdmUp = true)
    ∧ (∃ (s : State), s.spdmUp = true ∧ s.sec.spdmPhase = 1)
    ∧ (∃ (s : State), s.spdmUp = true ∧ s.sec.spdmPhase = 2)
    ∧ (∃ (s : State), s.spdmUp = true ∧ s.sec.spdmPhase < 3)
    ∧ (∃ (s : State), s.spdmUp = true ∧ 3 ≤ s.sec.spdmPhase)
    ∧ (∃ (s : State) (o : Nat), s.spdmUp = true ∧ 3 ≤ s.sec.spdmPhase ∧ o ≤ List.length Config.certChain)
    ∧ (∃ (s : State), s.spdmUp = true ∧ 3 ≤ s.sec.spdmPhase)
    ∧ (∃ (s : State), s.spdmUp = true ∧ 3 ≤ s.sec.spdmPhase)
    ∧ (∃ (s : State) (k : Nat), s.spdmUp = true ∧ 3 ≤ s.sec.spdmPhase ∧ 1 ≤ k ∧ k ≤ 4)
    ∧ (∃ (s : State), s.spdmUp = true ∧ 3 ≤ s.sec.spdmPhase)
    ∧ (∃ (s : State), s.spdmUp = true ∧ 3 ≤ s.sec.spdmPhase ∧ s.sec.spdm.length < 4)
    ∧ (∃ (s : State), s.spdmUp = true ∧ 3 ≤ s.sec.spdmPhase ∧ 4 ≤ s.sec.spdm.length)
    ∧ (∃ (s : State) (n : Nat) (x : Spdm), s.spdmUp = true ∧ s.spdmSession n = some x ∧ x.state = 1)
    ∧ (∃ (s : State) (n : Nat) (x : Spdm), s.spdmUp = true ∧ s.spdmSession n = some x ∧ x.state = 1)
    ∧ (∃ (s : State) (n : Nat) (x : Spdm), s.spdmUp = true ∧ s.spdmSession n = some x ∧ x.state = 2)
    ∧ (∃ (s : State) (n : Nat) (x : Spdm), s.spdmUp = true ∧ s.spdmSession n = some x ∧ x.state = 2)
    ∧ (∃ (s : State) (n : Nat) (x : Spdm), s.spdmUp = true ∧ s.spdmSession n = some x ∧ x.state = 2)
    ∧ (∃ (s : State) (n : Nat) (x : Spdm) (k : Nat), s.spdmUp = true ∧ s.spdmSession n = some x ∧ x.state = 2 ∧ k ≤ 4)
    ∧ (∃ (s : State) (n : Nat) (x : Spdm) (k : Nat), s.spdmUp = true ∧ s.spdmSession n = some x ∧ x.state = 2 ∧ k ≤ 4 ∧ s.sec.ideStreams.contains k = true)
    ∧ (∃ (s : State) (n : Nat), s.spdmUp = true ∧ s.spdmSession n = none)
    ∧ (∃ (s : State) (k : Nat), s.spdmUp = true ∧ s.sec.ideStreams.contains k = true)
    ∧ (∃ (s : State) (k : Nat), s.spdmUp = true ∧ s.sec.ideStreams.contains k = false) :=
  ⟨⟨run, by decide⟩,
   ⟨{ run with sec := { spdmPhase := 1 } }, by decide, by decide⟩,
   ⟨{ run with sec := { spdmPhase := 2 } }, by decide, by decide⟩,
   ⟨{ run with sec := { spdmPhase := 2 } }, by decide, by decide⟩,
   ⟨answering 2, by decide, by decide⟩,
   ⟨answering 2, 0, by decide, by decide, by decide⟩,
   ⟨answering 2, by decide, by decide⟩,
   ⟨answering 2, by decide, by decide⟩,
   ⟨answering 2, 4, by decide, by decide, by decide, by decide⟩,
   ⟨answering 2, by decide, by decide⟩,
   ⟨answering 2, by decide, by decide, by decide⟩,
   ⟨{ answering 2 with sec := { (answering 2).sec with spdm := [⟨1, 2⟩, ⟨2, 2⟩, ⟨3, 1⟩, ⟨4, 1⟩] } }, by decide, by decide, by decide⟩,
   ⟨answering 1, 1, ⟨1, 1⟩, by decide, by decide, by decide⟩,
   ⟨answering 1, 1, ⟨1, 1⟩, by decide, by decide, by decide⟩,
   ⟨answering 2, 1, ⟨1, 2⟩, by decide, by decide, by decide⟩,
   ⟨answering 2, 1, ⟨1, 2⟩, by decide, by decide, by decide⟩,
   ⟨answering 2, 1, ⟨1, 2⟩, by decide, by decide, by decide⟩,
   ⟨answering 2, 1, ⟨1, 2⟩, 4, by decide, by decide, by decide, by decide⟩,
   ⟨answering 2, 1, ⟨1, 2⟩, 2, by decide, by decide, by decide, by decide, by decide⟩,
   ⟨answering 2, 2, by decide, by decide⟩,
   ⟨answering 2, 2, by decide, by decide⟩,
   ⟨answering 2, 3, by decide, by decide⟩⟩

theorem test_wit_DevicesStart :
    (∃ (st : Straps) (s : State), s.start.up = false ∧ s.start.railFault = false ∧ st.railsOk = false)
    ∧ (∃ (st : Straps) (ck : BootChecks) (s : State) (b : Boot), s.start.up = false ∧ s.start.railFault = false ∧ st.railsOk = true ∧ s.nv.fuse ≠ 4 ∧ s.bootRec = some b ∧ b.crownCopy = false ∧ b.pend = 0 ∧ ck.crownOk = false)
    ∧ (∃ (st : Straps) (ck : BootChecks) (s : State) (b : Boot), s.start.up = false ∧ s.start.railFault = false ∧ st.railsOk = true ∧ s.nv.fuse ≠ 4 ∧ s.bootRec = some b ∧ b.crownCopy = false ∧ b.pend = 0 ∧ ck.crownOk = true ∧ (if b.activeB = true then ck.slotBOk else ck.slotAOk) = true ∧ b.slot b.activeB = 1)
    ∧ (∃ (st : Straps) (ck : BootChecks) (s : State) (b : Boot), s.start.up = false ∧ s.start.railFault = false ∧ st.railsOk = true ∧ s.nv.fuse ≠ 4 ∧ s.bootRec = some b ∧ b.crownCopy = false ∧ b.pend = 0 ∧ ck.crownOk = true ∧ (if b.activeB = true then ck.slotBOk else ck.slotAOk) = true ∧ b.slot b.activeB = 2 ∧ b.tried = false)
    ∧ (∃ (st : Straps) (ck : BootChecks) (s : State) (b : Boot), s.start.up = false ∧ s.start.railFault = false ∧ st.railsOk = true ∧ s.nv.fuse ≠ 4 ∧ s.bootRec = some b ∧ b.crownCopy = false ∧ b.pend = 0 ∧ ck.crownOk = true ∧ (if b.activeB = true then ck.slotAOk else ck.slotBOk) = true ∧ b.slot b.activeB = 2 ∧ (b.slot !b.activeB) = 1 ∧ b.tried = true)
    ∧ (∃ (st : Straps) (ck : BootChecks) (s : State) (b : Boot), s.start.up = false ∧ s.start.railFault = false ∧ st.railsOk = true ∧ s.nv.fuse ≠ 4 ∧ s.bootRec = some b ∧ b.crownCopy = false ∧ b.pend = 0 ∧ ck.crownOk = true ∧ ck.slotAOk = false ∧ ck.slotBOk = false ∧ b.tried = false)
    ∧ (∃ (nv : NvChecks) (s : State), s.start.up = true ∧ s.start.stage = 0 ∧ s.start.factoryBad = false ∧ s.sec.lifeCycle ≠ 4 ∧ nv.factoryOk = true)
    ∧ (∃ (nv : NvChecks) (s : State), s.start.up = true ∧ s.start.stage = 0 ∧ s.start.factoryBad = false ∧ s.sec.lifeCycle ≠ 4 ∧ nv.factoryOk = false ∧ s.start.trial = false)
    ∧ (∃ (s : State), s.starting = true ∧ s.start.hbm = false)
    ∧ (∃ (s : State), s.starting = true ∧ s.start.hbm = false ∧ s.start.trial = false ∧ s.start.stage = 1)
    ∧ (∃ (s : State), s.starting = true ∧ s.start.vault = false)
    ∧ (∃ (s : State), s.starting = true ∧ s.start.vault = false ∧ s.start.trial = false ∧ s.start.stage = 1)
    ∧ (∃ (s : State), s.start.stage = 1 ∧ s.start.bist = true ∧ s.start.hbm = true ∧ s.start.vault = true ∧ s.boundMissed = false)
    ∧ (∃ (s : State), s.start.stage = 1 ∧ s.start.bist = true ∧ s.start.hbm = true ∧ s.start.vault = true ∧ s.start.trial = true ∧ s.start.boundPs < s.now)
    ∧ (∃ (s : State), (s.start.bist = false ∨ s.start.hbm = false ∨ s.start.vault = false))
    ∧ (∃ (s : State), s.nv.stagingState = 2)
    ∧ (∃ (s : State), s.start.trial = true ∧ s.start.stage = 2 ∧ 100 ≤ s.confirmDeals)
    ∧ (∃ (s : State), s.start.trial = true ∧ s.start.stage = 2 ∧ s.confirmDeals < 100) :=
  ⟨⟨{ straps with railsOk := false }, unborn {}, by decide, by decide, by decide⟩,
   ⟨straps, { checks true true with crownOk := false }, unborn {}, {}, by decide, by decide, by decide, by decide, by decide, by decide, by decide, by decide⟩,
   ⟨straps, checks true true, unborn { ringAddr := 9, ringValid := true }, { ringAddr := 9, ringValid := true }, by and_intros <;> decide⟩,
   ⟨straps, checks true true, unborn { slotA := 2 }, { slotA := 2 }, by and_intros <;> decide⟩,
   ⟨straps, checks true true, unborn { activeB := true, slotA := 1, slotB := 2, tried := true }, { activeB := true, slotA := 1, slotB := 2, tried := true }, by and_intros <;> decide⟩,
   ⟨straps, checks false false, unborn {}, {}, by and_intros <;> decide⟩,
   ⟨nvGood, { start := { up := true } }, by decide, by decide, by decide, by decide, by decide⟩,
   ⟨{ nvGood with factoryOk := false }, { start := { up := true } }, by decide, by decide, by decide, by decide, by decide, by decide⟩,
   ⟨{ start := { up := true, stage := 1 } }, by decide, by decide⟩,
   ⟨{ start := { up := true, stage := 1 } }, by decide, by decide, by decide, by decide⟩,
   ⟨{ start := { up := true, stage := 1 } }, by decide, by decide⟩,
   ⟨{ start := { up := true, stage := 1 } }, by decide, by decide, by decide, by decide⟩,
   ⟨{ start := { up := true, stage := 1, bist := true, hbm := true, vault := true } }, by decide, by decide, by decide, by decide, by decide⟩,
   ⟨{ now := 1500000000001, start := { up := true, stage := 1, bist := true, hbm := true, vault := true, trial := true } }, by decide, by decide, by decide, by decide, by decide, by decide⟩,
   ⟨{ start := { up := true, stage := 1, hbm := true, vault := true } }, by decide⟩,
   ⟨{ run with nv := { stagingState := 2 } }, by decide⟩,
   ⟨{ run with start := { run.start with trial := true }, dealer := { committedDeals := 60, idleDeals := 40 } }, by decide, by decide, by decide⟩,
   ⟨{ run with start := { run.start with trial := true }, dealer := { committedDeals := 99 } }, by decide, by decide, by decide⟩⟩

theorem test_wit_ResetsKeepTheHubStore :
    (∃ (s : State) (us : Nat), s.dict.storing = none ∧ 10 ≤ us)
    ∧ (∃ (s : State), s.dict.storing = none)
    ∧ (∃ (s : State), s.dict.storing = none)
    ∧ (∃ (s : State), s.dict.storing = none ∧ s.start.up = true)
    ∧ (∃ (s : State), s.dict.storing = none ∧ s.start.up = false)
    ∧ (∃ (us : Nat), us < 10)
    ∧ (∃ (f : Nat) (s : State), s.queuesOf f = [] ∧ f ≠ 0)
    ∧ (∃ (f : Nat) (s : State), s.queuesOf f = [] ∧ f = 0)
    ∧ (∃ (f : Nat) (q : Nat) (s : State), s.queuesOf f = [q] ∧ (s.queue q).stopped = false)
    ∧ (∃ (c : UserCopy) (s : State), s.dict.storing = some c) :=
  ⟨⟨deals9 7, 10, by decide, by decide⟩,
   ⟨deals9 7, by decide⟩,
   ⟨deals9 7, by decide⟩,
   ⟨deals9 7, by decide, by decide⟩,
   ⟨{}, by decide, by decide⟩,
   ⟨9, by decide⟩,
   ⟨3, apRun, by decide, by decide⟩,
   ⟨0, { deals9 7 with host := { fns := [(0, { apValid := true }), (3, { apValid := true })] }, dealer := { running := some plan9 } }, by decide, by decide⟩,
   ⟨0, 63, queued, by decide, by decide⟩,
   ⟨{ seq := 1, brim := 0, recs := [] }, { deals9 7 with dict := { storing := some { seq := 1, brim := 0, recs := [] } } }, by decide⟩⟩

theorem test_wit_HostRegistersAndHeads :
    (∃ (f : Nat) (h : Nat) (s : State), h < 2048 ∧ ringCount 2048 h (s.fn f).evHead ≤ ringCount 2048 (s.fn f).evTail (s.fn f).evHead ∧ (s.fn f).lostRun = 0 ∧ (s.fn f).evHeld = [])
    ∧ (∃ (f : Nat) (h : Nat) (s : State) (e : EvRec), h < 2048 ∧ ringCount 2048 h (s.fn f).evHead ≤ ringCount 2048 (s.fn f).evTail (s.fn f).evHead ∧ (s.fn f).lostRun = 0 ∧ (s.fn f).evHeld = [e] ∧ ringCount 2048 (s.fn f).evTail h < 2047)
    ∧ (∃ (f : Nat) (h : Nat) (s : State), h < 1024 ∧ ringCount 1024 h (s.fn f).cplHead ≤ ringCount 1024 (s.fn f).cplTail (s.fn f).cplHead ∧ (s.fn f).cplHeld = [])
    ∧ (∃ (f : Nat) (h : Nat) (s : State) (r : CplRec), h < 1024 ∧ ringCount 1024 h (s.fn f).cplHead ≤ ringCount 1024 (s.fn f).cplTail (s.fn f).cplHead ∧ (s.fn f).cplHeld = [(r, false)] ∧ ringCount 1024 (s.fn f).cplTail h < 1023)
    ∧ (∃ (f : Nat) (o : Nat), 32768 ≤ o ∧ o < 32768 + 16 * msixSize f ∧ o % 8 = 0)
    ∧ (∃ (f : Nat) (s : State) (q : Nat), q < 64 ∧ s.seesQueue f q = true)
    ∧ (∃ (f : Nat) (s : State) (k : Nat) (x : Session), k < 256 ∧ aget k s.video.sessions = some x ∧ s.acts f x.account = true)
    ∧ (∃ (f : Nat) (v : Word64) (s : State), s.start.stage = 2 ∧ BitVec.toNat v < 64 ∧ ringCount 64 (s.fn f).cmdTail (s.fn f).cmdHead + ringCount 64 (BitVec.toNat v) (s.fn f).cmdTail ≤ 63)
    ∧ (∃ (f : Nat) (v : Word64) (s : State), s.start.stage = 2 ∧ BitVec.toNat v < 64 ∧ ringCount 64 (s.fn f).cmdTail (s.fn f).cmdHead + ringCount 64 (BitVec.toNat v) (s.fn f).cmdTail ≤ 63)
    ∧ (∃ (v : Word64) (s : State), s.start.stage = 2 ∧ 64 ≤ BitVec.toNat v ∧ BitVec.toNat v < 2 ^ 32)
    ∧ (∃ (s : State), s.start.stage ≠ 2)
    ∧ (∃ (f : Nat) (n : Nat) (s : State), (s.fn f).msixDue.contains n = true)
    ∧ (∃ (f : Nat) (n : Nat) (s : State), (s.fn f).msixDue.contains n = false) :=
  ⟨⟨3, 4, { run with host := { fns := [(3, { evTail := 6 })] } }, by decide, by decide, by decide, by decide⟩,
   ⟨3, 4, { run with host := { fns := [(3, { evTail := 6, evHeld := [⟨1, 2, 3, 4, false, 5, 6, 0, 0, 0, 0⟩] })] } }, ⟨1, 2, 3, 4, false, 5, 6, 0, 0, 0, 0⟩, by decide, by decide, by decide, by decide, by decide⟩,
   ⟨3, 4, { run with host := { fns := [(3, { cplTail := 6 })] } }, by decide, by decide, by decide⟩,
   ⟨3, 1023, { run with host := { fns := [(3, { cplHead := 1023, cplTail := 6, cplHeld := [(⟨1, 0, 2, 3, 4, 5, 6⟩, false)] })] } }, ⟨1, 0, 2, 3, 4, 5, 6⟩, by decide, by decide, by decide, by decide⟩,
   ⟨3, 0x8008, by decide, by decide, by decide⟩,
   ⟨0, run, 63, by decide, by decide⟩,
   ⟨0, encRun, 66, encSession, by decide +kernel, by decide +kernel, by decide +kernel⟩,
   ⟨3, 63, run, by decide, by decide, by decide⟩,
   ⟨3, 5, { run with host := { fns := [(3, { cmdHead := 6, cmdTail := 60 })] } }, by decide, by decide, by decide⟩,
   ⟨64, run, by decide, by decide, by decide⟩,
   ⟨{}, by decide⟩,
   ⟨3, 0, { run with host := { fns := [(3, { msixDue := [0], msixLast := [(0, 5)] })] } }, by decide⟩,
   ⟨3, 0, run, by decide⟩⟩

theorem test_wit_SvisDecodeOfEncode :
    (∃ (region : Bool) (b : Base) (op : SvisOp), svisLegal region b op = true) :=
  ⟨true, { base3 with issue := 0 }, .rfree 3 1, by decide⟩

theorem test_wit_StepKeepsMemoryCanonical :
    (∃ (s : State) (t : State), s.mem.wf = true ∧ step s = Host.Outcome.next t) :=
  ⟨run, run, by decide, rfl⟩

end Sys2Proof.Tests
end

section
/-!
Lemmas on the deal clock's part of the state: what the work at a mark leaves alone, and the clock a mark leaves (R21, R23, R29, R31).
-/
namespace Sys2Proof.Machine

/-! ## Folds of updates -/

/-- A fold of updates that each keep a view of the state keeps that view. -/
theorem foldl_keeps {σ α β : Type} (view : σ → β) {f : σ → α → σ} (keeps : ∀ s x, view (f s x) = view s) (l : List α) :
    ∀ s, view (l.foldl f s) = view s := by
  induction l with
  | nil => exact fun _ => rfl
  | cons x l ih => exact fun s => (ih (f s x)).trans (keeps s x)

/-! ## Items, programs and windows leave the deal clock alone -/

@[simp] theorem State.applyWrite_cad (s : State) (w : StoreWrite) : (s.applyWrite w).cad = s.cad :=
  foldl_keeps State.cad (by simp) _ s

@[simp] theorem State.applyHbm_cad (s : State) (h : List (Nat × Bytes)) : (s.applyHbm h).cad = s.cad :=
  foldl_keeps State.cad (by simp) _ s

@[simp] theorem State.postChip_cad (s : State) (k chip cycle : Nat) : (s.postChip k chip cycle).cad = s.cad := by
  simp [State.postChip]

@[simp] theorem State.releaseRegions_cad (s : State) (r : StoreRef) : (s.releaseRegions r).cad = s.cad := by
  unfold State.releaseRegions; dsimp only; split <;> simp

@[simp] theorem State.noteUndo_cad (s : State) (h : List (Nat × Bytes)) : (s.noteUndo h).cad = s.cad := rfl

@[simp] theorem State.orderLandings_cad (s : State) (i : Item) : (s.orderLandings i).cad = s.cad := by
  unfold State.orderLandings
  split
  · rfl
  · split
    · rfl
    · exact foldl_keeps State.cad State.applyWrite_cad _ _

/-- Completing an item touches stores, memory and cores alone (R122, R153). -/
@[simp] theorem State.completeItem_cad (s : State) (i : Item) : (s.completeItem i).cad = s.cad := by
  unfold State.completeItem
  refine (foldl_keeps State.cad State.releaseRegions_cad i.refs _).trans ?_
  refine (foldl_keeps State.cad (by simp) i.remote _).trans ?_
  have written := foldl_keeps State.cad State.applyWrite_cad i.writes
  have landed : ∀ u : State, (match i.owner with | .deal _ => u.noteUndo i.hbm | .program _ _ => u).cad = u.cad := fun u => by split <;> simp
  have registered : ∀ u : State, (match i.reg with | some (r, v) => u.setCore i.core ((u.core i.core).writeReg r i.done v) | none => u).cad = u.cad :=
    fun u => by split <;> simp
  have posted : ∀ u : State, (match i.post with | some p => u.postChip i.core p i.done | none => u).cad = u.cad := fun u => by split <;> simp
  exact (posted _).trans ((registered _).trans ((State.applyHbm_cad _ _).trans ((landed _).trans ((State.orderLandings_cad _ i).trans (written _)))))

@[simp] theorem State.finishOf_cad (s : State) (id : Nat) : (s.finishOf id).cad = s.cad :=
  foldl_keeps State.cad State.completeItem_cad _ s

@[simp] theorem State.stopProgram_cad (s : State) (id status word : Nat) : (s.stopProgram id status word).cad = s.cad := by
  unfold State.stopProgram
  split
  · rfl
  · simp [State.dropProgram]

@[simp] theorem State.stopAt_cad (s : State) (id status : Nat) : (s.stopAt id status).cad = s.cad := by
  simp [State.stopAt, State.takeFree]

@[simp] theorem State.loseStores_cad (s : State) (info : NativeInfo) : (s.loseStores info).cad = s.cad := by
  unfold State.loseStores
  exact (foldl_keeps State.cad (by simp) _ _).trans (foldl_keeps State.cad (by simp) _ s)

/-- Closing a window stops its programs and moves nothing of the deal clock (R117). -/
@[simp] theorem State.closeWindow_cad (s : State) : (s.closeWindow).cad = s.cad := by
  unfold State.closeWindow
  refine foldl_keeps State.cad (fun s p => ?_) _ s
  cases p.fault <;> simp

@[simp] theorem State.clearCompute_cad (s : State) : s.clearCompute.cad = s.cad := s.closeWindow_cad

/-! ## Sheets, plans, seats and events leave the deal clock alone -/

@[simp] theorem State.flushEvents_cad (s : State) : s.flushEvents.cad = s.cad := by simp [State.flushEvents]

@[simp] theorem State.finishSheet_cad (s : State) (p : Plan) (status : Nat) : (s.finishSheet p status).cad = s.cad := by
  unfold State.finishSheet; split <;> simp

@[simp] theorem State.discardSelected_cad (s : State) : s.discardSelected.cad = s.cad := by
  unfold State.discardSelected
  dsimp only
  split
  · split <;> simp
  · rfl

@[simp] theorem State.displace_cad (s : State) (target : Nat) : (s.displace target).cad = s.cad :=
  foldl_keeps State.cad (by simp) _ _

@[simp] theorem State.displacePast_cad (s : State) (d : Nat) : (s.displacePast d).cad = s.cad :=
  foldl_keeps State.cad (by simp) _ _

/-- HOLDs that take effect change seats and completions (R58). -/
theorem holdSeats_cad (l : List PendingHold) (s : State) : (l.foldl (fun s h => (s.holdSeat h.seat 0x18).complete h.ticket 0) s).cad = s.cad :=
  foldl_keeps State.cad (by simp [State.holdSeat]) l s

@[simp] theorem State.markHolds_cad (s : State) : s.markHolds.cad = s.cad := holdSeats_cad _ _

@[simp] theorem State.dropRedeal_cad (s : State) (status : Nat) : (s.dropRedeal status).cad = s.cad := by
  unfold State.dropRedeal
  split
  · rfl
  · simp [holdSeats_cad, State.suspectsToBist]

@[simp] theorem State.holdRedeal_cad (s : State) (d : Nat) : (s.holdRedeal d).2.cad = s.cad := by
  unfold State.holdRedeal; dsimp only; split <;> simp

/-- Choosing the plan of a deal moves nothing of the deal clock (R50, R351). -/
@[simp] theorem State.markPlan_cad (s : State) (d l : Nat) : (s.markPlan d l).2.cad = s.cad := by
  unfold State.markPlan
  split
  next r _ =>
    split
    · simp
    · dsimp only
      split
      · split <;> simp
      · simp
  next =>
    split
    · simp
    · split
      · rfl
      · split
        · rfl
        · split <;> simp

@[simp] theorem writePieces_cad (ps : List PagePiece) (b : Bytes) : ∀ (s : State) (va : Nat), (writePieces s ps va b).cad = s.cad := by
  induction b with
  | nil => exact fun _ _ => rfl
  | cons b t ih =>
    intro s va
    unfold writePieces
    rw [ih]
    split <;> rfl

@[simp] theorem writeMirror_cad (s : State) (ws : List Window) (pos : Nat) (t : Seat) : (writeMirror s ws pos t).cad = s.cad := by
  unfold writeMirror; split <;> simp

@[simp] theorem State.copyMirrors_cad (s : State) (p : Plan) : (s.copyMirrors p).cad = s.cad :=
  foldl_keeps State.cad (by simp) _ s

@[simp] theorem State.seatDeal_cad (s : State) (p : Plan) : (s.seatDeal p).2.cad = s.cad := by
  refine foldl_keeps (fun acc : Plan × State => acc.2.cad) (fun acc e => ?_) _ (p, s)
  dsimp only
  split
  · rfl
  · split <;> simp

/-! ## The mark -/

@[simp] theorem State.applyGuard_cad (s : State) (d : Nat) : (s.applyGuard d).cad = s.cad := rfl

@[simp] theorem State.noteMet_cad (s : State) : s.noteMet.cad = s.cad := rfl

/-- Where no stretch request is raised none is unmet, and a deal that has begun goes on with the clock it has (R42). -/
theorem State.endUnlessUnmet_cad (s : State) {c : Cad} (d p : Nat) (same : s.cad = c) (h : c.stretchReq = 0) :
    (if s.stretchUnmet d p then s.leaveTable 1 0x03 .left else s.flushEvents).cad = c := by
  simp [State.stretchUnmet, same, h]

theorem State.addCauseIf_cad (b : Bool) (s : State) (rank detail slot die place : Nat) :
    (if b then s.addCause rank detail slot die place else s).cad = s.cad := by
  split <;> simp

/-- A deal begun with no stretch request raised leaves the clock as the mark set it (R42). -/
theorem State.startDeal_cad (s : State) (d l p : Nat) (h : s.cad.stretchReq = 0) : (s.startDeal d l p).cad = s.cad := by
  unfold State.startDeal
  dsimp only
  exact State.endUnlessUnmet_cad _ d p ((State.addCauseIf_cad _ _ _ _ _ _ _).trans (by simp)) h

/-- The device enters DEALING at the mark that ends the deal in progress, of length `l` (R49, R51). -/
def State.joinsNext (s : State) (l : Nat) : Bool := s.joinsAt (s.cad.deal + 1) (s.nextClock l).2

/-- The deal clock after the mark of a decided deal of length `l`: the next deal's number, length and period are in force, and nothing of the next deal is latched, decided or served (R21, R23, R29, R31). -/
def State.cadAtMark (s : State) (l : Nat) : Cad :=
  { s.cad with
    deal := s.cad.deal + 1, trick := 0, len := some (s.nextClock l).1, period := (s.nextClock l).2
    prevLen := l, prevPeriod := s.cad.period, latch := none, markLatch := s.cad.latch
    decided := false, cutDone := false, drained := false, compared := false
    st := if s.joinsNext l then .dealing else s.cad.st, joinMark := if s.joinsNext l then none else s.cad.joinMark }

/-- The device stands in the last trick of a decided deal of length `l`, and neither a stretch request nor a reset waits for its mark. -/
structure AtLastTrick (s : State) (l : Nat) : Prop where
  len : s.cad.len = some l
  last : s.cad.trick + 1 = l
  decided : s.cad.decided = true
  unstretched : s.cad.stretchReq = 0
  unreset : s.start.resetReq = false

/-- The work of the mark, whether the device deals, joins or looks on, leaves the clock of the next deal. -/
theorem State.markDeal_cad {s : State} {l : Nat} (h : AtLastTrick s l) : s.markDeal.cad = s.cadAtMark l := by
  unfold State.markDeal
  simp only [h.len, h.decided, h.unreset, Bool.not_true, Bool.and_false, Bool.false_and, Bool.false_eq_true, if_false]
  split
  · rw [State.startDeal_cad _ _ _ _ (by simpa using h.unstretched)]
    simp only [State.displacePast_cad, State.markHolds_cad, State.noteMet_cad, State.applyGuard_cad]
    rfl
  · simp only [State.flushEvents_cad, State.discardSelected_cad, State.displacePast_cad, State.markHolds_cad, State.noteMet_cad, State.applyGuard_cad]
    rfl

/-! ## The edge that begins the next deal -/

/-- The clock `c` stands at the start of the deal after the one of length `l` that `s` is in, begun at `start`. -/
def State.BeginsNext (s : State) (l start : Nat) (c : Cad) : Prop :=
  c.deal = s.cad.deal + 1 ∧ c.trick = 0 ∧ (c.len, c.period) = (some (s.nextLenPeriod l).1, (s.nextLenPeriod l).2) ∧ c.decided = false ∧ c.startPs = start

/-- What the mark takes for the next deal's length and period is what R29 and R31 name. -/
theorem State.nextClock_eq (s : State) (l : Nat) : s.nextClock l = s.nextLenPeriod l := rfl

theorem State.beginsNext_cadAtMark (s : State) (l : Nat) : s.BeginsNext l s.cad.startPs (s.cadAtMark l) := by
  simp [State.BeginsNext, State.cadAtMark, State.nextClock_eq]

/-- The clock stands at the start `t` of a trick whose number it has not yet counted. -/
def State.edgeAt (s : State) (t : Nat) : State := { s.advanceTo t with cad := { s.cad with startPs := t } }

/-- The edge behind the last trick of a deal is its mark (R21). -/
theorem State.trickStart_eq_markDeal {s : State} {l : Nat} (t : Nat) (h : AtLastTrick s l) (placed : s.cad.st ≠ .acquiring) :
    s.trickStart t = (s.edgeAt t).markDeal := by
  simp [State.trickStart, State.edgeAt, placed, h.len, h.last]

/-- The trick that begins behind the last one of a decided deal is the first of the next deal (R21). -/
theorem State.beginsNext_trickStart {s : State} {l : Nat} (t : Nat) (h : AtLastTrick s l) (placed : s.cad.st ≠ .acquiring) :
    s.BeginsNext l t (s.trickStart t).cad := by
  have atMark : AtLastTrick (s.edgeAt t) l := { h with }
  rw [State.trickStart_eq_markDeal t h placed, State.markDeal_cad atMark]
  exact (s.edgeAt t).beginsNext_cadAtMark l

/-- Becoming READY changes the state's name alone. -/
theorem State.tryReady_cad (s : State) : s.tryReady.cad = { s.cad with st := s.tryReady.cad.st } := by
  unfold State.tryReady; split <;> rfl

/-- A step of the delay line moves nothing else (R575). -/
theorem State.slew_cad (s : State) : s.slew.cad = { s.cad with delayLine := slewStep s.cad.delayLine s.cad.trim } := rfl

/-- An accepted edge ends a run of missed ones and is counted while a position is sought (Table 2.5). -/
def State.edgeCounted (s : State) : State :=
  { s with cad := { s.cad with
      missRun := 0, st := if s.cad.st = .flywheel then .dealing else s.cad.st
      edgeRun := if s.cad.st = .acquiring then s.cad.edgeRun + 1 else s.cad.edgeRun } }

/-- An accepted edge: counted, it begins the trick, and a device in READY moves its delay line. -/
theorem State.acceptEdge_eq (s : State) (at' : Nat) :
    s.acceptEdge at' = if s.cad.st = .ready then (s.edgeCounted.trickStart (s.trickTime at')).tryReady.slew else (s.edgeCounted.trickStart (s.trickTime at')).tryReady := rfl

theorem State.edgeCounted_placed {s : State} (placed : s.cad.st ≠ .acquiring) : s.edgeCounted.cad.st ≠ .acquiring := by
  unfold State.edgeCounted; dsimp only; split <;> simp [placed]

/-- An edge accepted in the last trick begins the next deal, once the trick's cycles have ended (R21, R574). -/
theorem State.beginsNext_acceptEdge {s : State} {l : Nat} (at' : Nat) (h : AtLastTrick s l) (placed : s.cad.st ≠ .acquiring) :
    s.BeginsNext l (s.trickTime at') (s.acceptEdge at').cad := by
  have stands : AtLastTrick s.edgeCounted l := { h with }
  have begun : s.BeginsNext l (s.trickTime at') (s.edgeCounted.trickStart (s.trickTime at')).cad :=
    State.beginsNext_trickStart _ stands (State.edgeCounted_placed placed)
  have ready : s.BeginsNext l (s.trickTime at') (s.edgeCounted.trickStart (s.trickTime at')).tryReady.cad := by
    rw [State.tryReady_cad]; exact begun
  rw [State.acceptEdge_eq]
  split
  · rw [State.slew_cad]; exact ready
  · exact ready

/-- Where a period is in force it places the next edge (R36). -/
theorem State.predicted_of_period {s : State} (h : s.cad.period ≠ 0) : s.predicted = s.cad.startPs + 1000 * s.cad.period := by
  simp [State.predicted, h]

/-- A BEAT edge within 4 ns of the prediction is accepted by a device that deals or is READY (R36). -/
theorem State.beat_accepted {s : State} {off : Int} (table : s.dealing = true ∨ s.cad.st = .ready) (period : s.cad.period ≠ 0)
    (early : -4000 ≤ s.edgeOff off) (late : s.edgeOff off ≤ 4000) : s.beat off = s.acceptEdge (s.edgeTime off) := by
  have seen : (((s.predicted : Nat) : Int) + s.edgeOff off).toNat = s.edgeTime off := by
    rw [State.predicted_of_period period]; rfl
  unfold State.beat
  rw [seen]
  split
  case h_1 left => simp [State.dealing, left] at table
  case h_2 unlocked => simp [State.dealing, unlocked] at table
  case h_3 => exact if_pos ⟨early, late⟩

/-- A flywheel edge stands in for a missed one and is counted (R44, R45). -/
def State.missCounted (s : State) : State :=
  { s with cad := { s.cad with st := .flywheel, missRun := s.cad.missRun + 1, flyCount := s.cad.flyCount + 1 } }

theorem State.flywheel_eq (s : State) : s.flywheel = s.missCounted.trickStart s.predicted := rfl

/-- A flywheel edge in the last trick begins the next deal at the predicted time (R44). -/
theorem State.beginsNext_flywheel {s : State} {l : Nat} (h : AtLastTrick s l) (period : s.cad.period ≠ 0) :
    s.BeginsNext l (s.cad.startPs + 1000 * s.cad.period) s.flywheel.cad := by
  have stands : AtLastTrick s.missCounted l := { h with }
  rw [State.flywheel_eq, ← State.predicted_of_period period]
  exact State.beginsNext_trickStart s.predicted stands (by simp [State.missCounted])

/-- A device that deals or is READY holds its position. -/
theorem State.not_acquiring {s : State} (table : s.dealing = true ∨ s.cad.st = .ready) : s.cad.st ≠ .acquiring := by
  intro acq
  simp [State.dealing, acq] at table

/-- DEAL_MARK in the last trick is the edge it names: a BEAT edge. -/
theorem execDealMark_beat {s : State} {l : Nat} (off : Int) (h : AtLastTrick s l) : execDealMark (some off) s = .next (s.beat off) := by
  simp [execDealMark, h.len, h.last]

/-- DEAL_MARK in the last trick is the edge it names: a flywheel edge of a device that deals, the sixteenth in a row at most (R45). -/
theorem execDealMark_flywheel {s : State} {l : Nat} (h : AtLastTrick s l) (deals : s.dealing = true) (few : s.cad.missRun < 16) :
    execDealMark none s = .next s.flywheel := by
  simp [execDealMark, h.len, h.last, deals, few]

end Sys2Proof.Machine

namespace Sys2Proof.Proofs
open Sys2Proof Sys2Proof.Machine

/-- Settles O3: the edge, of either kind, begins the trick whose start runs the mark, and nothing done at the mark moves the clock of the deal it begins. -/
theorem markBeginsNextDeal : Obligations.MarkBeginsNextDeal := by
  unfold Obligations.MarkBeginsNextDeal
  intro edge s l len last period decided unstretched unreset shown
  have h : AtLastTrick s l := ⟨len, last, decided, unstretched, unreset⟩
  cases edge with
  | some off =>
    obtain ⟨table, early, late⟩ := shown
    refine ⟨s.beat off, execDealMark_beat off h, ?_⟩
    rw [State.beat_accepted table period early late]
    exact State.beginsNext_acceptEdge _ h (State.not_acquiring table)
  | none =>
    obtain ⟨deals, few⟩ := shown
    exact ⟨s.flywheel, execDealMark_flywheel h deals few, State.beginsNext_flywheel h period⟩

end Sys2Proof.Proofs
end

section
/-!
Lemmas on the issue of a word of deal code (R102, R103, R121, R128, R183, R184): what its checks, its meters and its sends leave alone, and what going in flight changes.
-/
namespace Sys2Proof.Machine

/-! ## The part of the state that only an issue moves -/

/-- Cores and items in flight, with what no issue of deal code touches: HBM bytes, contexts, seats, forms, the deal clock, vault images and the running plan. -/
structure Fabric where
  core : Nat → Core
  items : List Item
  bytes : List Host.Cell
  contexts : List (Nat × Context)
  seats : List (Nat × Seat)
  forms : List Form
  cad : Cad
  images : List (Nat × ImageEntry)
  running : Option Plan

def State.fabric (s : State) : Fabric :=
  { core := s.core, items := s.svis.items, bytes := s.mem.bytes, contexts := s.mem.contexts, seats := s.seats, forms := s.forms, cad := s.cad
    images := s.nv.images, running := s.dealer.running }

/-- The code form is the running plan's, among the forms loaded. -/
theorem State.codeForm_of_fabric {s t : State} (running : t.fabric.running = s.fabric.running) (forms : t.fabric.forms = s.fabric.forms) :
    t.codeForm = s.codeForm := by
  have form : t.form = s.form := funext fun id => congrArg (List.find? fun f : Form => decide (f.id = id)) forms
  have plan : (fun p : Plan => p.form t) = fun p => p.form s := funext fun p => congrArg p.formId.bind form
  exact (congrArg (Option.bind · fun p : Plan => p.form t) running).trans (congrArg s.dealer.running.bind plan)

/-- Core `k` stands as `c`. -/
def Fabric.put (v : Fabric) (k : Nat) (c : Core) : Fabric := { v with core := Function.update v.core k c }

/-- Core `k` stands as `c`, and `i` is in flight behind the others. -/
def Fabric.launch (v : Fabric) (k : Nat) (c : Core) (i : Item) : Fabric := { v.put k c with items := v.items ++ [i] }

@[simp] theorem Fabric.put_put (v : Fabric) (k : Nat) (c d : Core) : (v.put k c).put k d = v.put k d := by simp [Fabric.put]

@[simp] theorem Fabric.core_put (v : Fabric) (k : Nat) (c : Core) : (v.put k c).core k = c := by simp [Fabric.put]

@[simp] theorem Fabric.put_core (v : Fabric) (k : Nat) : v.put k (v.core k) = v := by simp [Fabric.put]

@[simp] theorem Fabric.launch_put (v : Fabric) (k : Nat) (c d : Core) (i : Item) : (v.put k c).launch k d i = v.launch k d i := by
  simp [Fabric.launch]; rfl

@[simp] theorem Fabric.put_launch (v : Fabric) (k : Nat) (c d : Core) (i : Item) : (v.launch k c i).put k d = v.launch k d i := by
  simp [Fabric.launch, Fabric.put]

/-- Writing a core puts it among the cores. -/
theorem State.setCore_fabric (s : State) (k : Nat) (c : Core) : (s.setCore k c).fabric = s.fabric.put k c := by
  have cores : (s.setCore k c).core = Function.update s.core k c := by
    funext j
    by_cases h : j = k
    · subst h; simp [State.core, State.setCore]
    · simp [State.core, State.setCore, h, aget_aset_other]
  exact congrArg (fun f => ({ s.fabric with core := f } : Fabric)) cores

@[simp] theorem State.setCstore_fabric (s : State) (k : Nat) (c : Cluster) : (s.setCstore k c).fabric = s.fabric := rfl

/-! ## Events, notices and causes -/

@[simp] theorem State.post_fabric (s : State) (r : EvReq) : (s.post r).fabric = s.fabric := by
  have images : (s.logAppend r).nv.images = s.nv.images := (congrArg Nv.images (s.logAppend_nv r).1 :)
  have core : (s.post r).core = s.core := by funext k; simp [State.core]
  simp [State.fabric, images, core]

@[simp] theorem State.security_fabric (s : State) (d a b c e : Nat) : (s.security d a b c e).fabric = s.fabric :=
  State.post_fabric _ _

@[simp] theorem State.deckSend_fabric (s : State) (k c : Nat) (b : Bytes) : (s.deckSend k c b).fabric = s.fabric := by
  unfold State.deckSend; split <;> rfl

@[simp] theorem State.sendNotice_fabric (s : State) (k d a : Nat) : (s.sendNotice k d a).fabric = s.fabric := by
  unfold State.sendNotice
  split
  · rfl
  · exact foldl_keeps State.fabric (fun s k => s.deckSend_fabric k 2 _) _ _

@[simp] theorem State.addCauseAt_fabric (s : State) (n a b c d e : Nat) : (s.addCauseAt n a b c d e).fabric = s.fabric := by
  unfold State.addCauseAt
  split
  · rfl
  · exact State.sendNotice_fabric _ _ _ _

@[simp] theorem State.addCause_fabric (s : State) (a b c d e : Nat) : (s.addCause a b c d e).fabric = s.fabric :=
  State.addCauseAt_fabric _ _ _ _ _ _ _

/-! ## Reneges, overruns and chip waits -/

@[simp] theorem State.renege_fabric (s : State) (detail slot die : Nat) : (s.renege detail slot die).fabric = s.fabric := by
  unfold State.renege
  split
  · rfl
  · exact State.addCause_fabric _ _ _ _ _ _

@[simp] theorem State.overrun_fabric (s : State) (detail slot die place due : Nat) : (s.overrun detail slot die place due).fabric = s.fabric := by
  unfold State.overrun
  split
  · exact State.post_fabric _ _
  · exact State.addCause_fabric _ _ _ _ _ _

@[simp] theorem State.chipMissing_fabric (s : State) (x : Site) (b : Base) (cycle slot : Nat) : (s.chipMissing x b cycle slot).fabric = s.fabric := by
  unfold State.chipMissing; split <;> simp

@[simp] theorem State.waitOrdered_fabric (s : State) (x : Site) (b : Base) (cycle : Nat) (c : Core) : (s.waitOrdered x b cycle c).2.fabric = s.fabric := by
  unfold State.waitOrdered
  split
  · rfl
  · split <;> simp

/-- A chip wait takes chips and nothing else of the core. -/
theorem Core.takeChips_eq {c c' : Core} {b : Base} (h : c.takeChips b = some c') : c' = { c with chips := c'.chips } := by
  unfold Core.takeChips at h
  dsimp only at h
  split at h
  · cases h; rfl
  · split at h
    · cases h; rfl
    · cases h

/-- A wait found unposted leaves the core as it is (R155). -/
theorem State.waitOrdered_core (s : State) (x : Site) (b : Base) (cycle : Nat) (c : Core) :
    (s.waitOrdered x b cycle c).1 = { c with chips := (s.waitOrdered x b cycle c).1.chips } := by
  unfold State.waitOrdered
  split
  next taken => exact Core.takeChips_eq taken
  next => split <;> rfl

/-! ## What an instruction reads as it is built -/

@[simp] theorem translate_fabric (s : State) (ctx va : Nat) : (translate s ctx va).2.fabric = s.fabric := by
  unfold translate
  split
  · rfl
  · dsimp only; split <;> rfl

@[simp] theorem State.programLine_fabric (s : State) (ahead : List (Nat × Bytes)) (account : Nat) (fails wr : Bool) (v : VLines) (va : Nat) :
    (s.programLine ahead account fails wr v va).2.fabric = s.fabric := by
  have walked := translate_fabric s account va
  unfold State.programLine State.takeBytes
  split
  next h => rw [h] at walked; exact walked
  next h =>
    rw [h] at walked
    dsimp only
    repeat' split
    all_goals exact walked

@[simp] theorem State.vLines_fabric (e : Env) (own : List (Nat × Bytes)) (wr : Bool) (l : List Nat) :
    ∀ (s : State) (v : VLines), (s.vLines e own wr l v).2.fabric = s.fabric := by
  induction l with
  | nil => exact fun _ _ => rfl
  | cons va l ih =>
    intro s v
    unfold State.vLines
    dsimp only
    split
    · exact ih _ _
    · exact (ih _ _).trans (State.programLine_fabric _ _ _ _ _ _ _)

theorem State.securityIf_fabric (b : Bool) (s : State) (d a p c e : Nat) : (if b then s.security d a p c e else s).fabric = s.fabric := by
  split <;> simp

theorem moveLeg_fabric (e : Env) (o : LOps) (m : Moved) (g : Leg) : (moveLeg e o m g).st.fabric = m.st.fabric := by
  unfold moveLeg
  dsimp only
  split
  · rfl
  · refine (State.securityIf_fabric _ _ _ _ _ _ _).trans ?_
    repeat' split
    all_goals simp

theorem moveAll_fabric (e : Env) (o : LOps) (base : Effect) (s : State) (legs : List Leg) : (moveAll e o base s legs).2.fabric = s.fabric :=
  foldl_keeps (fun m : Moved => m.st.fabric) (moveLeg_fabric e o) legs _

theorem lmovEffect_fabric (s : State) (e : Env) (o : LOps) (x : Ext) : (lmovEffect s e o x).2.fabric = s.fabric := by
  unfold lmovEffect
  dsimp only
  split
  · rfl
  · exact moveAll_fabric _ _ _ _ _

theorem listMove_fabric (s : State) (e : Env) (o : LOps) (x : Ext) (gather : Bool) : (listMove s e o x gather).2.fabric = s.fabric := by
  unfold listMove
  split
  · dsimp only
    split
    · rfl
    · exact moveAll_fabric _ _ _ _ _
  · rfl

theorem ldaEffect_fabric (s : State) (e : Env) (o : LdaOps) : (ldaEffect s e o).2.fabric = s.fabric := by
  unfold ldaEffect
  split
  · exact (State.securityIf_fabric _ _ _ _ _ _ _).trans (State.vLines_fabric _ _ _ _ _ _)
  · rfl

/-- Building an instruction's effect walks pages and takes free values, no more. -/
@[simp] theorem buildOp_fabric (s : State) (e : Env) (op : SvisOp) : (buildOp s e op).2.fabric = s.fabric := by
  cases op with
  | lmov o x => exact lmovEffect_fabric s e o x
  | lgath o x => exact listMove_fabric s e o x true
  | lscat o x => exact listMove_fabric s e o x false
  | lda o => exact ldaEffect_fabric s e o
  | _ => rfl

/-! ## Conflicts, meters, reads and sends -/

@[simp] theorem State.conflictOthers_fabric (s : State) (e : Env) (f : Effect) : (s.conflictOthers e f).fabric = s.fabric :=
  foldl_keeps State.fabric (fun s i => by split <;> simp) _ s

theorem State.meterOne_fabric (s : State) (peak place die n key : Nat) (get : Svis → List (Nat × Nat)) (set : Svis → List (Nat × Nat) → Svis)
    (meters : ∀ (s : State) l, ({ s with svis := set s.svis l } : State).fabric = s.fabric) :
    (s.meterOne peak place die n get set key).fabric = s.fabric := by
  unfold State.meterOne
  dsimp only
  split
  · exact (State.addCause_fabric _ _ _ _ _ _).trans (meters s _)
  · exact meters s _

@[simp] theorem State.meter_fabric (s : State) (f : Form) (e : Effect) (die slot : Nat) : (s.meter f e die slot).fabric = s.fabric := by
  have window : ∀ (u : State) (w : Nat), (if u.svis.meterWin = w then u else
      { u with svis := { u.svis with meterWin := w, hbmMeter := [], vaultMeter := [], deckMeter := [] } }).fabric = u.fabric :=
    fun u w => by split <;> rfl
  have hbm : ∀ u : State, (e.hbmBytes.foldl (fun s x => s.meterOne f.cert.hbmPeak (placeDie x.1) x.1 x.2 (·.hbmMeter) (fun v l => { v with hbmMeter := l }) x.1) u).fabric = u.fabric :=
    fun u => foldl_keeps State.fabric (fun s x => State.meterOne_fabric s _ _ _ _ _ _ _ fun _ _ => rfl) _ u
  have vault : ∀ u : State, (if e.vaultBytes = 0 then u else
      u.meterOne f.cert.vaultPeak (placeDie die) die e.vaultBytes (·.vaultMeter) (fun v l => { v with vaultMeter := l }) die).fabric = u.fabric := fun u => by
    split
    · rfl
    · exact State.meterOne_fabric u _ _ _ _ _ _ _ fun _ _ => rfl
  have deck : ∀ u : State, (match e.deckBytes with
      | some (l, n) => u.meterOne f.cert.deckPeak (placeLink l) die n (·.deckMeter) (fun v l => { v with deckMeter := l }) l
      | none => u).fabric = u.fabric := fun u => by
    split
    · exact State.meterOne_fabric u _ _ _ _ _ _ _ fun _ _ => rfl
    · rfl
  exact (deck _).trans ((vault _).trans ((hbm _).trans (window s _)))

@[simp] theorem State.noteReads_fabric (s : State) (f : Form) (die : Nat) (e : Effect) : (s.noteReads f die e).fabric = s.fabric :=
  foldl_keeps State.fabric (fun s _ => s.addCause_fabric _ _ _ _ _) _ _

@[simp] theorem State.noteSat_fabric (s : State) (o : CodeOwner) (sat : Bool) : (s.noteSat o sat).fabric = s.fabric := by
  unfold State.noteSat
  split
  · rfl
  · split <;> rfl

@[simp] theorem State.sendDeck_fabric (s : State) (e : Env) (f : Effect) : (s.sendDeck e f).fabric = s.fabric := by
  unfold State.sendDeck
  split
  · rfl
  · split
    · exact foldl_keeps State.fabric (fun s x => s.deckSend_fabric _ _ _) _ s
    · simp

@[simp] theorem State.holdWord_fabric (s : State) (x : Site) (b : Base) (op : SvisOp) : (s.holdWord x b op).fabric = s.fabric := by
  unfold State.holdWord; dsimp only; split <;> rfl

/-! ## Lines of HBM at the Kitties and the directory -/

@[simp] theorem State.kittyDrop_fabric (s : State) (die line : Nat) : (s.kittyDrop die line).fabric = s.fabric := by
  unfold State.kittyDrop; split <;> rfl

@[simp] theorem State.beginEvict_fabric (s : State) (die line : Nat) : (s.beginEvict die line).fabric = s.fabric := by
  unfold State.beginEvict
  split
  · rfl
  · split <;> rfl

@[simp] theorem State.kittyAccess_fabric (s : State) (die line : Nat) : (s.kittyAccess die line).fabric = s.fabric := by
  unfold State.kittyAccess
  dsimp only
  split
  · rfl
  · split
    · exact State.beginEvict_fabric _ _ _
    · rfl

@[simp] theorem State.setDir_fabric (s : State) (line : Nat) (d : DirState) : (s.setDir line d).fabric = s.fabric := rfl

@[simp] theorem State.evicted_fabric (s : State) (line die : Nat) : (s.evicted line die).fabric = s.fabric := rfl

@[simp] theorem State.crossings_fabric (s : State) (line : Nat) (l : List Nat) : (l.foldl (fun s d => s.crossing line d) s).fabric = s.fabric :=
  foldl_keeps State.fabric (fun s d => by rfl) l s

@[simp] theorem State.kittyDrops_fabric (s : State) (line : Nat) (l : List Nat) : (l.foldl (fun s d => s.kittyDrop d line) s).fabric = s.fabric :=
  foldl_keeps State.fabric (fun s d => s.kittyDrop_fabric d line) l s

@[simp] theorem State.scRequest_fabric (s : State) (a : CohAgent) (wr : Bool) (line : Nat) : (s.scRequest a wr line).fabric = s.fabric := by
  cases a <;> simp [State.scRequest, apply_ite State.fabric]

@[simp] theorem State.memLine_fabric (s : State) (a : CohAgent) (wr : Bool) (pa : Nat) : (s.memLine a wr pa).fabric = s.fabric := by
  unfold State.memLine
  split
  · rfl
  · split <;> simp

/-! ## Going in flight (R121, R183, R184) -/

/-- What a word's issue leaves of its core and puts in flight: the store and the streams' places as `e.core` has them, the queue held from the issue cycle, and an item of that queue which completes no earlier than the queue's last. -/
structure Launched (e : Env) (b : Base) (c : Core) (i : Item) : Prop where
  store : c.store = e.core.store
  streams : c.streams = e.core.streams
  held : (c.qstate e.q).issue = e.cycle
  core : i.core = e.key
  queue : i.queue = e.q
  owner : i.owner = e.site.owner
  issue : i.issue = e.cycle
  post : i.post = if b.pe = 1 then some b.post.toNat else none
  done : (e.core.qstate e.q).done ≤ i.done

/-- The item is in flight. -/
def State.withItem (s : State) (i : Item) : State := { s with svis := { s.svis with items := s.svis.items ++ [i], nextItem := s.svis.nextItem + 1 } }

/-- The lines of HBM that an effect reads and writes are met at the Kitties and the directory (R181, R268). -/
def State.meetLines (s : State) (e : Env) (f : Effect) : State :=
  f.hbm.foldl (fun s w => s.memLine (.die e.site.die) true w.1) (f.reads.foldl (fun s pa => s.memLine (.die e.site.die) false pa) s)

@[simp] theorem State.meetLines_fabric (s : State) (e : Env) (f : Effect) : (s.meetLines e f).fabric = s.fabric :=
  (foldl_keeps State.fabric (fun s _ => s.memLine_fabric _ _ _) f.hbm _).trans (foldl_keeps State.fabric (fun s _ => s.memLine_fabric _ _ _) f.reads s)

theorem State.launch_eq (s : State) (e : Env) (b : Base) (f : Effect) (word : Nat) :
    ∃ c i, s.launch e b f word = ((s.setCore e.key c).withItem i).meetLines e f ∧ Launched e b c i :=
  ⟨_, _, rfl, by constructor <;> simp [Core.qstate]⟩

/-- An effect goes in flight: one item more, and its queue held. -/
theorem State.launch_fabric (s : State) (e : Env) (b : Base) (f : Effect) (word : Nat) :
    ∃ c i, (s.launch e b f word).fabric = s.fabric.launch e.key c i ∧ Launched e b c i := by
  obtain ⟨c, i, launched, h⟩ := s.launch_eq e b f word
  refine ⟨c, i, ?_, h⟩
  rw [launched, State.meetLines_fabric]
  exact congrArg (fun v : Fabric => { v with items := s.svis.items ++ [i] }) (s.setCore_fabric e.key c)

/-! ## What a C instruction does at issue (Table 5.12) -/

/-- Store, streams' places and queues of two cores agree. -/
structure SameQueues (c d : Core) : Prop where
  store : d.store = c.store
  streams : d.streams = c.streams
  queues : d.queues = c.queues

theorem Launched.of_sameQueues {e : Env} {b : Base} {c d : Core} {i : Item} (h : Launched e b c i) (same : SameQueues c d) : Launched e b d i :=
  { h with
    store := same.store.trans h.store, streams := same.streams.trans h.streams
    held := by rw [Core.qstate, same.queues]; exact h.held }

/-- Core `k` alone moves, and neither its store nor its streams' places nor its queues. -/
def State.Touches (s t : State) (k : Nat) : Prop := ∃ c, t.fabric = s.fabric.put k c ∧ SameQueues (s.core k) c

theorem State.Touches.of_same {s t : State} {k : Nat} (h : t.fabric = s.fabric) : s.Touches t k :=
  ⟨s.core k, h.trans (s.fabric.put_core k).symm, rfl, rfl, rfl⟩

theorem State.Touches.setCore {s : State} {k : Nat} {c : Core} (h : SameQueues (s.core k) c) : s.Touches (s.setCore k c) k :=
  ⟨c, s.setCore_fabric k c, h⟩

theorem State.core_of_put {s t : State} {k : Nat} {c : Core} (h : t.fabric = s.fabric.put k c) : t.core k = c :=
  (congrFun (congrArg Fabric.core h) k).trans (s.fabric.core_put k c)

theorem State.Touches.trans {s t u : State} {k : Nat} (h : s.Touches t k) (g : t.Touches u k) : s.Touches u k := by
  obtain ⟨c, ht, hc⟩ := h
  obtain ⟨d, hu, hd⟩ := g
  rw [State.core_of_put ht] at hd
  exact ⟨d, by rw [hu, ht, Fabric.put_put], hd.store.trans hc.store, hd.streams.trans hc.streams, hd.queues.trans hc.queues⟩

theorem Core.writeReg_sameQueues (c : Core) (i cycle v : Nat) : SameQueues c (c.writeReg i cycle v) := by
  unfold Core.writeReg; split <;> exact ⟨rfl, rfl, rfl⟩

/-- Regions are those of the site's own core or of a cluster. -/
theorem State.setRegions_touches (s : State) (x : Site) (st : BitVec 1) (l : List StoreRegion) :
    s.Touches (s.setRegions (regionRef x st) l) (siteKey x) := by
  unfold regionRef
  split
  · exact .setCore ⟨rfl, rfl, rfl⟩
  · exact .of_same rfl

theorem State.releaseRegions_touches (s : State) (x : Site) (st : BitVec 1) : s.Touches (s.releaseRegions (regionRef x st)) (siteKey x) := by
  unfold State.releaseRegions
  dsimp only
  split
  · exact s.setRegions_touches x st _
  · exact .of_same rfl

/-- A C instruction writes registers and regions of its own core. -/
theorem State.control_touches (s : State) (x : Site) (op : SvisOp) (cycle : Nat) : s.Touches (s.control x op cycle) (siteKey x) := by
  cases op with
  | seta d imm => exact .setCore (Core.writeReg_sameQueues _ _ _ _)
  | adda d imm => exact .setCore (Core.writeReg_sameQueues _ _ _ _)
  | addid d sel scale => exact .setCore (Core.writeReg_sameQueues _ _ _ _)
  | region o =>
    simp only [State.control]
    split
    · exact .of_same rfl
    · exact s.setRegions_touches x _ _
  | rfree num st => exact (s.setRegions_touches x st _).trans (State.releaseRegions_touches _ x st)
  | _ => exact .of_same rfl

/-! ## Deal code issues (R102) -/

/-- What is noted of an effect in flight: the audit window, the bytes moved, what the reads met, saturation and sends. -/
def State.noteIssue (s : State) (form : Form) (e : Env) (f : Effect) (slot : Nat) : State :=
  let c := s.core e.key
  let s := s.setCore e.key { c with dealWins := sins (e.cycle / 16384) c.dealWins }
  let s : State := { s with vault := { s.vault with aboveLowest := s.vault.aboveLowest + f.aboveLowest } }
  (((s.meter form f e.site.die slot).noteReads form e.site.die f).noteSat e.site.owner f.sat).sendDeck e f

theorem State.noteIssue_touches (s : State) (form : Form) (e : Env) (f : Effect) (slot : Nat) : s.Touches (s.noteIssue form e f slot) e.key := by
  refine (State.Touches.setCore (c := { s.core e.key with dealWins := sins (e.cycle / 16384) (s.core e.key).dealWins }) ⟨rfl, rfl, rfl⟩).trans (.of_same ?_)
  unfold State.noteIssue
  simp only [State.sendDeck_fabric, State.noteSat_fabric, State.noteReads_fabric, State.meter_fabric]
  rfl

/-- Its checks made, the word goes in flight, is noted and does what a C instruction does. -/
theorem State.issueDeal_eq (s : State) (e : Env) (b : Base) (op : SvisOp) (slot word : Nat) {form : Form} (code : s.codeForm = some form) :
    ∃ (f : Effect) (u : State), s.issueDeal e b op slot word = ((u.launch e b f word).noteIssue form e f slot).control e.site op e.cycle ∧ u.fabric = s.fabric := by
  unfold State.issueDeal
  rw [code]
  refine ⟨_, _, rfl, (State.conflictOthers_fabric _ _ _).trans ?_⟩
  exact (foldl_keeps State.fabric (fun s d => s.renege_fabric _ _ _) _ _).trans (buildOp_fabric s e op)

theorem State.issueDeal_fabric (s : State) (e : Env) (b : Base) (op : SvisOp) (slot word : Nat) {form : Form} (code : s.codeForm = some form)
    (key : e.key = siteKey e.site) : ∃ c i, (s.issueDeal e b op slot word).fabric = s.fabric.launch e.key c i ∧ Launched e b c i := by
  obtain ⟨f, u, issued, same⟩ := s.issueDeal_eq e b op slot word code
  obtain ⟨c, i, flies, h⟩ := u.launch_fabric e b f word
  obtain ⟨d, noted, hd⟩ := ((u.launch e b f word).noteIssue_touches form e f slot).trans (key ▸ State.control_touches _ e.site op e.cycle)
  have core : (u.launch e b f word).core e.key = c := (congrFun (congrArg Fabric.core flies) e.key).trans (Function.update_self _ _ _)
  exact ⟨d, i, by rw [issued, noted, flies, same, Fabric.put_launch], h.of_sameQueues (core ▸ hd)⟩

/-! ## A word of deal code that may issue (R120, R128) -/

/-- A stream's position names the stream and its owner. -/
theorem State.streamPos_names (s : State) (x : Site) : (s.streamPos x).stream = x.stream ∧ (s.streamPos x).owner = x.owner := by
  unfold State.streamPos
  split
  next found => simpa using List.find?_some found
  next => exact ⟨rfl, rfl⟩

theorem StreamPos.after_names (p : StreamPos) (x : Site) (op : SvisOp) (cycle : Nat) :
    (p.after x op cycle).stream = p.stream ∧ (p.after x op cycle).owner = p.owner := by
  unfold StreamPos.after; dsimp only; split <;> exact ⟨rfl, rfl⟩

/-- The core with the site's stream at position `p`. -/
def Core.placed (c : Core) (x : Site) (p : StreamPos) : Core :=
  { c with streams := c.streams.filter (fun q => !(q.stream = x.stream && q.owner = x.owner)) ++ [p] }

/-- Moving the stream on moves its core alone. -/
theorem State.setStreamPos_fabric {s w : State} (same : w.fabric = s.fabric) (x : Site) (p : StreamPos) :
    (w.setStreamPos x p).fabric = s.fabric.put (siteKey x) ((s.core (siteKey x)).placed x p) := by
  have core : w.core = s.core := congrArg Fabric.core same
  rw [← same, ← core]
  exact w.setCore_fabric _ _

/-- The position put at a core is the one its stream has there. -/
theorem State.streamPos_of_placed {t : State} {x : Site} {c : Core} {p : StreamPos} (names : p.stream = x.stream ∧ p.owner = x.owner)
    (h : (t.core (siteKey x)).streams = (c.placed x p).streams) : t.streamPos x = p := by
  have others : (c.streams.filter (fun q => !(q.stream = x.stream && q.owner = x.owner))).find? (fun q => q.stream = x.stream && q.owner = x.owner) = none := by
    rw [List.find?_eq_none]
    intro q kept
    simpa [imp_iff_not_or] using (List.mem_filter.mp kept).2
  have last : [p].find? (fun q => q.stream = x.stream && q.owner = x.owner) = some p := by simp [names]
  unfold State.streamPos
  rw [h, Core.placed, List.find?_append, others, last]
  rfl

/-- The state `u` and the environment `e` in which the word's checks are made: its stream has moved past it, and of its core as the word sees it store and queues are those of before. -/
structure AtIssue (s : State) (x : Site) (op : SvisOp) (cycle : Nat) (u : State) (e : Env) : Prop where
  fabric : u.fabric = s.fabric.put (siteKey x) ((s.core (siteKey x)).placed x ((s.streamPos x).after x op cycle))
  site : e.site = x
  key : e.key = siteKey x
  queue : e.q = opQueue op
  issue : e.cycle = cycle
  store : e.core.store = (s.core (siteKey x)).store
  queues : e.core.queues = (s.core (siteKey x)).queues
  streams : e.core.streams = ((s.core (siteKey x)).placed x ((s.streamPos x).after x op cycle)).streams

/-- A word that may issue passes the Blocker and issues in ordered mode at its stated cycle. -/
theorem WordReady.issue_eq {s : State} {x : Site} {b : Base} {op : SvisOp} {slot cycle : Nat} {form : Form} (h : WordReady s x b op slot cycle form) :
    ∃ u e word, s.issue x b op = State.issueDeal u e b op slot word ∧ AtIssue s x op cycle u e := by
  obtain ⟨base, place, rfl⟩ := h.place
  have mode : regionMode x.owner = false := by rw [h.owner]; rfl
  have ordered : s.issue x b op = s.issueOrdered x b op := by
    simp [State.issue, mode, h.may, h.legal, h.allowed, h.same]
  rw [ordered]
  have free := Nat.not_lt.mpr h.free
  unfold State.issueOrdered
  simp only [place, h.going, h.behind, h.now, h.owner, free]
  have checked := (State.holdWord_fabric _ x b op).trans (s.waitOrdered_fabric x b (base + b.issue.toNat) ((s.core (siteKey x)).settle (base + b.issue.toNat)))
  have moved := State.setStreamPos_fabric checked x ((s.streamPos x).after x op (base + b.issue.toNat))
  have seen := s.waitOrdered_core x b (base + b.issue.toNat) ((s.core (siteKey x)).settle (base + b.issue.toNat))
  exact ⟨_, _, _, if_neg (by simp), moved, rfl, rfl, rfl, rfl, (congrArg Core.store seen :), (congrArg Core.queues seen :),
    (congrArg Core.streams (State.core_of_put moved) :)⟩

theorem exec_commandOf (x : Site) (b : Base) (op : SvisOp) (s : State) : exec (commandOf x b op) s = .next (s.issue x b op) := by
  cases op with
  | vec v o => cases v <;> rfl
  | _ => rfl

end Sys2Proof.Machine

namespace Sys2Proof.Proofs
open Sys2Proof Sys2Proof.Machine

/-- Settles O19: the word passes the Blocker, its stream moves past it, and whatever its checks find moves neither cores nor items; its effect then goes in flight. -/
theorem dealCodeWordsIssue : Obligations.DealCodeWordsIssue := by
  unfold Obligations.DealCodeWordsIssue
  intro op x b slot cycle form s ready
  obtain ⟨u, e, word, issued, h⟩ := ready.issue_eq
  have code : u.codeForm = some form :=
    (State.codeForm_of_fabric (congrArg Fabric.running h.fabric :) (congrArg Fabric.forms h.fabric :)).trans ready.form
  obtain ⟨c, i, flies, hi⟩ := u.issueDeal_fabric e b op slot word code (h.key.trans (congrArg siteKey h.site.symm))
  rw [← issued, h.fabric, h.key, Fabric.launch_put] at flies
  have core : (s.issue x b op).core = Function.update s.core (siteKey x) c := congrArg Fabric.core flies
  have own : (s.issue x b op).core (siteKey x) = c := by rw [core, Function.update_self]
  refine ⟨s.issue x b op, exec_commandOf x b op s, ?_, ⟨i, congrArg Fabric.items flies, ?_⟩, ?_, ?_, ?_, congrArg Fabric.bytes flies,
    congrArg Fabric.contexts flies, congrArg Fabric.seats flies, congrArg Fabric.forms flies, congrArg Fabric.cad flies, congrArg Fabric.images flies⟩
  · have names := (s.streamPos x).after_names x op cycle
    rw [(s.streamPos_names x).1, (s.streamPos_names x).2] at names
    exact State.streamPos_of_placed names (by rw [own, hi.streams, h.streams])
  · have done := hi.done
    rw [Core.qstate, h.queues, h.queue] at done
    exact ⟨hi.core.trans h.key, hi.queue.trans h.queue, hi.owner.trans (congrArg Site.owner h.site), hi.issue.trans h.issue, hi.post, done⟩
  · rw [own, ← h.queue, hi.held, h.issue]
  · rw [own, hi.store, h.store]
  · intro k other
    rw [core, Function.update_of_ne other]

end Sys2Proof.Proofs
end

section
/-!
Lemmas on the Ante and the cutoff (R63, R64, R66, R72, R249 to R255): the Ante moves neither the deal clock nor the Dealer, a seat or a form, and the cutoff selects one plan.
-/
namespace Sys2Proof.Machine

/-! ## The Ante: the deal clock, the Dealer, seats and forms stay -/

/-- The deal clock, the Dealer's own state, the seats and the forms. -/
structure Table where
  cad : Cad
  dealer : Dealer
  seats : List (Nat × Seat)
  forms : List Form

def State.table (s : State) : Table := { cad := s.cad, dealer := s.dealer, seats := s.seats, forms := s.forms }

@[simp] theorem State.sendNotice_table (s : State) (k d a : Nat) : (s.sendNotice k d a).table = s.table := by simp [State.table]

@[simp] theorem State.security_table (s : State) (d a b c e : Nat) : (s.security d a b c e).table = s.table := by simp [State.table]

@[simp] theorem State.post_table (s : State) (r : EvReq) : (s.post r).table = s.table := by simp [State.table]

@[simp] theorem State.sheetCpl_table (s : State) (a b c d e : Nat) : (s.sheetCpl a b c d e).table = s.table := by simp [State.table]

@[simp] theorem State.sheetDone_table (s : State) (x : Sheet) (a : Nat) : (s.sheetDone x a).table = s.table := by simp [State.table]

@[simp] theorem translate_table (s : State) (ctx va : Nat) : (translate s ctx va).2.table = s.table := by
  unfold translate
  split
  · rfl
  · dsimp only; split <;> rfl

@[simp] theorem pagesOf_table (ctx : Nat) (wr rd sc : Bool) (n : Nat) : ∀ (s : State) (va stop : Nat), (pagesOf s ctx wr rd sc n va stop).2.table = s.table := by
  induction n with
  | zero => exact fun _ _ _ => rfl
  | succ n ih =>
    intro s va stop
    have walked := translate_table s ctx va
    unfold pagesOf
    split
    · rfl
    split
    next h => rw [h] at walked; exact walked
    next x s' h =>
      rw [h] at walked
      have rest := (ih s' (x.pageVa + x.size) stop).trans walked
      split
      · exact walked
      split
      next g => rw [g] at rest; exact rest
      next g => rw [g] at rest; exact rest

@[simp] theorem kvMap_table (s : State) (t : Seat) : (kvMap s t).2.table = s.table := by
  unfold kvMap
  dsimp only
  split
  · rfl
  have read := pagesOf_table t.account false true true (pagesFuel (64 + 8 * t.kvPages)) s t.kvRoot (t.kvRoot + (64 + 8 * t.kvPages))
  split
  next h => rw [h] at read; exact read
  next h => rw [h] at read; rw [apply_ite Prod.snd, ite_self]; exact read

@[simp] theorem kvFaults_table (ctx : Nat) (l : List Nat) : ∀ s : State, (kvFaults ctx l s).2.table = s.table := by
  induction l with
  | nil => exact fun _ => rfl
  | cons va l ih => exact fun s => (ih _).trans (translate_table s ctx va)

@[simp] theorem kvWindows_table (f : Form) (fi slot pos seat : Nat) (t : Seat) (e : Foot) (ring : Bool) (l : List (Nat × Nat)) :
    ∀ s : State, (kvWindows s f fi slot pos seat t e ring l).2.table = s.table := by
  induction l with
  | nil => exact fun _ => rfl
  | cons g l ih =>
    intro s
    have here := pagesOf_table t.account (e.write && decide (t.kvLen / Config.tokensPerPage f.id slot ≤ g.1)) e.read false 2 s g.2 (g.2 + 65536)
    rw [kvWindows]
    split
    next read =>
      rw [read] at here
      have rest := (ih _).trans here
      split
      next windows =>
        rw [windows] at rest
        split <;> exact rest

@[simp] theorem resolveFoot_table (s : State) (f : Form) (slot pos seat : Nat) (t : Seat) (kv : Option (List Nat × Bool)) (fi : Nat) (e : Foot) :
    (resolveFoot s f slot pos seat t kv fi e).2.table = s.table := by
  unfold resolveFoot
  split
  · rfl
  split
  · split
    · rfl
    · exact kvWindows_table _ _ _ _ _ _ _ _ _ _
  have pages := pagesOf_table (footBase f e slot seat t).1 e.write e.read (e.kind = 3) (pagesFuel e.length) s (footBase f e slot seat t).2.1 ((footBase f e slot seat t).2.1 + e.length)
  dsimp only
  split
  next h => rw [h] at pages; exact pages
  next h => rw [h] at pages; exact pages

@[simp] theorem resolveFoots_table (f : Form) (slot pos seat : Nat) (t : Seat) (kv : Option (List Nat × Bool)) (l : List (Nat × Foot)) :
    ∀ s : State, (resolveFoots s f slot pos seat t kv l).2.table = s.table := by
  induction l with
  | nil => exact fun _ => rfl
  | cons e l ih => exact fun s => (ih _).trans (resolveFoot_table s f slot pos seat t kv e.1 e.2)

@[simp] theorem resolveSeat_table (s : State) (f : Form) (slot pos seat : Nat) (t : Seat) (foots : List (Nat × Foot)) :
    (resolveSeat s f slot pos seat t foots).2.table = s.table := by
  have map := kvMap_table s t
  unfold resolveSeat
  split
  · exact resolveFoots_table _ _ _ _ _ _ _ _
  split
  next h => rw [h] at map; exact (resolveFoots_table _ _ _ _ _ _ _ _).trans map
  next h => rw [h] at map; exact (resolveFoots_table _ _ _ _ _ _ _ _).trans ((kvFaults_table _ _ _).trans map)

theorem State.securityIf_table (b : Bool) (s : State) (d a p c e : Nat) : (if b then s.security d a p c e else s).table = s.table := by
  split <;> simp

@[simp] theorem anteEntry_table (s : State) (f : Form) (deal : Nat) (e : Entry) : (anteEntry s f deal e).2.2.table = s.table := by
  unfold anteEntry
  extract_lets t vid _ counted fold
  have resolved := resolveSeat_table s f e.slot e.pos e.seat t (slotFoots f e.slot)
  have voids : counted.table = s.table := by unfold counted; split <;> rfl
  split
  · exact (State.sendNotice_table _ _ _ _).trans voids
  split
  · exact (State.sendNotice_table _ _ _ _).trans (State.security_table _ _ _ _ _ _)
  dsimp only
  split
  · exact (State.sendNotice_table _ _ _ _).trans ((State.securityIf_table _ _ _ _ _ _ _).trans resolved)
  split
  · exact (State.sendNotice_table _ _ _ _).trans resolved
  · exact resolved

theorem anteEntries_table (f : Form) (deal : Nat) (l : List Entry) : ∀ s : State, (anteEntries f deal l s).2.2.table = s.table := by
  induction l with
  | nil => exact fun _ => rfl
  | cons e l ih => exact fun s => (ih _).trans (anteEntry_table s f deal e)

/-- The Ante of a plan moves nothing of the table (R72). -/
@[simp] theorem State.runAnte_table (s : State) (deal : Nat) (p : Plan) : (s.runAnte deal p).2.table = s.table := by
  unfold State.runAnte
  split
  · rfl
  · exact anteEntries_table _ _ _ s

/-- Testing an entry again runs at most its own steps of the Ante (R69). -/
theorem State.retestEntry_table (s : State) (f : Form) (d : Nat) (p : Plan) (e : Entry) : (s.retestEntry f d p e).2.table = s.table := by
  unfold State.retestEntry
  extract_lets put
  split
  · rfl
  split
  · rfl
  split
  · rfl
  · exact anteEntry_table s f d _

theorem trySheets_table (n : Nat) (l : List (Source × Sheet)) : ∀ s : State, (trySheets n l s).2.table = s.table := by
  induction l with
  | nil => exact fun _ => rfl
  | cons x l ih =>
    intro s
    unfold trySheets
    split
    · exact (ih _).trans (State.sheetDone_table _ _ _)
    · split <;> rfl

/-! ## Selection (R64) -/

/-- The sheets whose deal is taken have their status, and no more. -/
theorem State.sheetsDone_table (s : State) (l : List (Source × Sheet)) (status : State → Nat) : (l.foldl (fun s x => s.sheetDone x.2 (status s)) s).table = s.table :=
  foldl_keeps State.table (fun s x => s.sheetDone_table x.2 _) l s

theorem State.standingAnte_table (s : State) (n : Nat) : (match s.standingPlan with
    | some q => s.runAnte n q
    | none => (idlePlan false, s)).2.table = s.table := by
  split <;> simp

/-- Selecting a plan changes of the table at most the held re-deal. -/
theorem State.selectPlan_table (s : State) (n : Nat) :
    ∃ r, (s.selectPlan n).2.table = { s.table with dealer := { s.dealer with redeal := r } } := by
  unfold State.selectPlan
  split
  next p _ =>
    have done := s.sheetsDone_table (s.sheetCandidates n) fun s => if s.group.diverged then 0x0D else 0x0C
    extract_lets u owed _ barred
    have owing : owed.table = s.table := by
      unfold owed
      split
      · exact (State.sheetCpl_table _ _ _ _ _ _).trans done
      · exact done
    split
    · split
      · exact ⟨s.dealer.redeal, (u.runAnte_table n p).trans done⟩
      · exact ⟨none, (barred.standingAnte_table n).trans (congrArg (fun v : Table => { v with dealer := { v.dealer with redeal := none } }) owing)⟩
    · exact ⟨s.dealer.redeal, done⟩
  next =>
    have tried := trySheets_table n (s.sheetCandidates n) s
    refine ⟨s.dealer.redeal, ?_⟩
    split
    next h => rw [h] at tried; exact (State.runAnte_table _ _ _).trans tried
    next h => rw [h] at tried; exact (State.standingAnte_table _ _).trans tried

/-- What the cutoff has done before it selects: it is done, and a replacing standing sheet is in force (R63, R66). -/
def State.atCutoff (s : State) : State :=
  { s with cad := { s.cad with cutDone := true }, dealer := { s.dealer with standing := s.dealer.standingNext.or s.dealer.standing, standingNext := none } }

/-- What the cutoff puts in force: the plan, no sheet for its deal, and the plan the repeat sheet would name (R64, R67). -/
def State.takePlan (s : State) (n : Nat) (p : Plan) : State :=
  { s with dealer := { s.dealer with
      selected := some p, sheets := s.dealer.sheets.filter (·.target ≠ n), lastPlan := if p.formId.isSome then some p else s.dealer.lastPlan } }

/-- A device that may select at its cutoff trick selects. -/
theorem execSheetCutoff_due {s : State} (may : s.mayCut = true) (due : s.cutoffTrick = some s.cad.trick) :
    let r := s.atCutoff.selectPlan (s.cad.deal + 1)
    execSheetCutoff s = .next ((r.2.takePlan (s.cad.deal + 1) r.1).sendSelect (s.cad.deal + 1) r.1) := by
  have passed : ¬(!s.mayCut || decide (s.cutoffTrick ≠ some s.cad.trick)) = true := by simp [may, due]
  exact congrArg Host.Outcome.next (if_neg passed)

/-- After the cutoff no plan is selected again. -/
theorem State.mayCut_of_cutDone {s : State} (done : s.cad.cutDone = true) : s.mayCut = false := by simp [State.mayCut, done]

/-- At the cutoff one plan is selected for the next deal; the clock, the running plan, seats and forms stay (R63, R64, R66). -/
theorem sheetCutoff_selects {s : State} (may : s.mayCut = true) (due : s.cutoffTrick = some s.cad.trick) :
    ∃ t q, execSheetCutoff s = .next t ∧ t.dealer.selected = some q ∧ t.mayCut = false ∧ t.cad = { s.cad with cutDone := true } ∧ t.dealer.running = s.dealer.running
      ∧ t.dealer.standing = s.dealer.standingNext.or s.dealer.standing ∧ (∀ x ∈ t.dealer.sheets, x.target ≠ s.cad.deal + 1) ∧ t.seats = s.seats ∧ t.forms = s.forms := by
  obtain ⟨redeal, selected⟩ := s.atCutoff.selectPlan_table (s.cad.deal + 1)
  refine ⟨_, (s.atCutoff.selectPlan (s.cad.deal + 1)).1, execSheetCutoff_due may due, ?_⟩
  generalize s.atCutoff.selectPlan (s.cad.deal + 1) = r at selected
  have table : ((r.2.takePlan (s.cad.deal + 1) r.1).sendSelect (s.cad.deal + 1) r.1).table = (r.2.takePlan (s.cad.deal + 1) r.1).table := State.sendNotice_table _ _ _ _
  have dealer : ((r.2.takePlan (s.cad.deal + 1) r.1).sendSelect (s.cad.deal + 1) r.1).dealer = (r.2.takePlan (s.cad.deal + 1) r.1).dealer := congrArg Table.dealer table
  have cad : ((r.2.takePlan (s.cad.deal + 1) r.1).sendSelect (s.cad.deal + 1) r.1).cad = { s.cad with cutDone := true } :=
    (congrArg Table.cad table).trans (congrArg Table.cad selected)
  rw [dealer]
  refine ⟨rfl, State.mayCut_of_cutDone (by rw [cad]), cad, congrArg (fun v => v.dealer.running) selected, congrArg (fun v => v.dealer.standing) selected, ?_,
    (congrArg Table.seats table).trans (congrArg Table.seats selected), (congrArg Table.forms table).trans (congrArg Table.forms selected)⟩
  intro x listed
  simpa using (List.mem_filter.mp listed).2

end Sys2Proof.Machine
end

section
/-!
Lemmas on the repairs (R331 to R358): whatever a repair does to the maps, of the deal clock, the seats and the Dealer it moves nothing but the events that wait.
-/
namespace Sys2Proof.Machine

/-- From `s` to `t` the Dealer's waiting events have grown; the rest of the Dealer, the deal clock and the seats stay. -/
structure State.Reports (s t : State) : Prop where
  cad : t.cad = s.cad
  seats : t.seats = s.seats
  dealer : ∃ more later, t.dealer = { s.dealer with toPost := s.dealer.toPost ++ more, afterWake := later }

theorem State.Reports.of_table {s t : State} (h : t.table = s.table) : s.Reports t :=
  ⟨congrArg Table.cad h, congrArg Table.seats h, [], s.dealer.afterWake, by rw [List.append_nil]; exact congrArg Table.dealer h⟩

theorem State.Reports.refl (s : State) : s.Reports s := .of_table rfl

theorem State.Reports.trans {s t u : State} (h : s.Reports t) (g : t.Reports u) : s.Reports u := by
  obtain ⟨l, a, hd⟩ := h.dealer
  obtain ⟨m, b, gd⟩ := g.dealer
  exact ⟨g.cad.trans h.cad, g.seats.trans h.seats, l ++ m, b, by simp [gd, hd]⟩

theorem State.Reports.foldl {α : Type} {f : State → α → State} (step : ∀ s x, State.Reports s (f s x)) (s : State) (l : List α) : s.Reports (l.foldl f s) :=
  List.foldlRecOn l f (.refl s) fun _ h x _ => h.trans (step _ x)

theorem State.queuePost_reports (s : State) (r : EvReq) : s.Reports (s.queuePost r) := by
  unfold State.queuePost
  split
  · exact ⟨rfl, rfl, [], _, by rw [List.append_nil]⟩
  split
  · exact ⟨rfl, rfl, [r], _, rfl⟩
  · exact .of_table (s.post_table r)

/-! ## A repair made after others: the maps, and the event of it -/

theorem State.Reports.repair {s u : State} (h : s.Reports u) (r : Repair) : s.Reports { u with repair := r } := ⟨h.cad, h.seats, h.dealer⟩

theorem State.Reports.nv {s u : State} (h : s.Reports u) (n : Nv) : s.Reports { u with nv := n } := ⟨h.cad, h.seats, h.dealer⟩

theorem State.Reports.setCluster {s u : State} (h : s.Reports u) (key : Nat) (m : ClusterMap) : s.Reports (u.setCluster key m) := h.nv _

theorem State.Reports.setDie {s u : State} (h : s.Reports u) (d : Nat) (f : DieMap → DieMap) : s.Reports (u.setDie d f) := h.nv _

theorem State.Reports.bumpGeneration {s u : State} (h : s.Reports u) : s.Reports u.bumpGeneration := h.repair _

theorem State.Reports.setCondemned {s u : State} (h : s.Reports u) (d row col p : Nat) : s.Reports (u.setCondemned d row col p) :=
  (h.setCluster _ _).bumpGeneration.repair _

theorem State.Reports.transient {s u : State} (h : s.Reports u) : s.Reports u.transient := h.repair _

theorem State.Reports.clearSuspect {s u : State} (h : s.Reports u) (x : Suspect) : s.Reports (u.clearSuspect x) := h.repair _

theorem State.Reports.queuePost {s u : State} (h : s.Reports u) (r : EvReq) : s.Reports (u.queuePost r) := h.trans (u.queuePost_reports r)

theorem State.Reports.repairEvent {s u : State} (h : s.Reports u) (action rank detail place guard : Nat) :
    s.Reports (u.repairEvent action rank detail place guard) := h.queuePost _

theorem State.Reports.shortDeck {s u : State} (h : s.Reports u) (d before : Nat) : s.Reports (u.shortDeck d before) := by
  unfold State.shortDeck
  split
  · exact h
  · exact h.queuePost _

theorem State.Reports.retireColumn {s u : State} (h : s.Reports u) (d col rank detail : Nat) : s.Reports (u.retireColumn d col rank detail) := by
  unfold State.retireColumn
  dsimp only
  split
  · exact h
  · exact (((h.setDie _ _).bumpGeneration.repair _).repairEvent _ _ _ _ _).shortDeck _ _

theorem State.Reports.loseDie {s u : State} (h : s.Reports u) (d rank detail : Nat) : s.Reports (u.loseDie d rank detail) := by
  have lost : s.Reports (if u.deck d = 2 then u else (u.setDie d (fun m => { m with lost := true })).bumpGeneration) := by
    split
    · exact h
    · exact (h.setDie _ _).bumpGeneration
  exact (lost.repairEvent _ _ _ _ _).shortDeck _ _

theorem State.Reports.substitute {s u v : State} {d row col c : Nat} {excl : Option Nat} (h : s.Reports u) (taken : u.substitute d row col c excl = some v) : s.Reports v := by
  unfold State.substitute at taken
  split at taken
  · cases taken
  · cases taken; exact (h.setCluster _ _).bumpGeneration

theorem State.Reports.condemn {s u : State} (h : s.Reports u) (d row col p rank detail : Nat) : s.Reports (u.condemn d row col p rank detail) := by
  have marked : s.Reports ((u.setCondemned d row col p).repairEvent 2 rank detail (placeCore d row col p) 0) := (h.setCondemned _ _ _ _).repairEvent _ _ _ _ _
  unfold State.condemn
  extract_lets carried v
  clear_value carried
  split
  · exact marked
  split
  next taken => exact (marked.substitute taken).repairEvent _ _ _ _ _
  next => exact marked.retireColumn _ _ _ _

theorem State.Reports.repairUnit {s u : State} (h : s.Reports u) (x : UnitRef) (rank detail : Nat) : s.Reports (u.repairUnit x rank detail) := by
  cases x with
  | core d r c p => exact h.condemn _ _ _ _ _ _
  | coreStore d r c p => exact h.condemn _ _ _ _ _ _
  | hub => exact h
  | gateway d r => exact h.loseDie _ _ _
  | vaultPort d => exact h.loseDie _ _ _
  | die d => exact h.loseDie _ _ _
  | _ => exact h.retireColumn _ _ _ _

theorem State.Reports.markUnit {s u : State} (h : s.Reports u) (x : UnitRef) (rank detail : Nat) : s.Reports (u.markUnit x rank detail) := by
  unfold State.markUnit
  extract_lets deal key again _ marked
  have noted : s.Reports marked := h.repair _
  split
  · exact noted.repairUnit _ _ _
  · exact noted

theorem State.watch_reports (s : State) : s.Reports s.watch :=
  ((State.Reports.refl s).repair _).trans (.foldl (fun u _ => u.queuePost_reports _) _ _)

theorem State.raiseGuard_reports (s : State) (ns deal : Nat) : s.Reports (s.raiseGuard ns deal) := by
  unfold State.raiseGuard
  split
  · exact .refl s
  dsimp only
  split
  · exact .refl s
  · exact ((State.Reports.refl s).repair _).repairEvent _ _ _ _ _

/-! ## Suspects and verdicts (R343, R344) -/

theorem State.substituteSuspect_reports (s : State) (x : Suspect) : s.Reports (s.substituteSuspect x) := by
  have said : ∀ r, s.Reports (s.queuePost r) := s.queuePost_reports
  unfold State.substituteSuspect
  dsimp only
  split
  next carried => exact (((said _).substitute carried).repair _).repairEvent _ _ _ _ _
  split
  · exact (((said _).setCluster _ _).bumpGeneration.repair _).repairEvent _ _ _ _ _
  · exact (said _).retireColumn _ _ _ _

theorem State.verdict_reports (s : State) (x : Suspect) : s.Reports (s.verdict x) := by
  have cleared : s.Reports (s.clearSuspect x) := (State.Reports.refl s).clearSuspect x
  unfold State.verdict
  dsimp only
  split
  · exact .refl s
  split
  · split
    · exact (cleared.transient.markUnit _ _ _).repairEvent _ _ _ _ _
    · exact cleared.retireColumn _ _ _ _
  split
  · exact ((cleared.transient.markUnit _ _ _).markUnit _ _ _).repairEvent _ _ _ _ _
  split
  · exact cleared.condemn _ _ _ _ _ _
  split
  · exact (cleared.condemn _ _ _ _ _ _).repairEvent _ _ _ _ _
  split
  · have condemned : ∀ p place, s.Reports (((s.clearSuspect x).setCondemned x.die x.row x.col p).repairEvent 2 4 0x35 place 0) :=
      fun p place => (cleared.setCondemned _ _ _ _).repairEvent _ _ _ _ _
    split
    · exact ((condemned _ _).setCluster _ _).bumpGeneration.repairEvent _ _ _ _ _
    split
    next carried => exact ((condemned _ _).substitute carried).repairEvent _ _ _ _ _
    next => exact (condemned _ _).retireColumn _ _ _ _
  · exact cleared.retireColumn _ _ _ _

theorem State.decisionRepairs_reports (s : State) : s.Reports s.decisionRepairs :=
  ((State.Reports.foldl State.verdict_reports s _).trans (.foldl State.substituteSuspect_reports _ _)).trans (State.watch_reports _)

theorem State.checkOutcome_reports (s : State) (k : Check) (pass : Bool) : s.Reports (s.checkOutcome k pass) := by
  unfold State.checkOutcome
  split
  · exact ((State.Reports.refl s).transient.markUnit _ _ _).repairEvent _ _ _ _ _
  · exact (State.Reports.refl s).repairUnit _ _ _

theorem State.damageBlock_reports (s : State) (image die block detail : Nat) : s.Reports (s.damageBlock image die block detail) := by
  unfold State.damageBlock
  split
  · exact .refl s
  · exact ((State.Reports.refl s).nv _).queuePost _

theorem State.agingAtDecision_reports (s : State) : s.Reports s.agingAtDecision :=
  ((State.Reports.refl s).repair _).trans (State.raiseGuard_reports _ _ _)

end Sys2Proof.Machine
end

section
/-!
Lemmas on the decision of a deal (R14, R25, R26, R58, R65, R79, R349 to R353): what the settle work keeps of the deal clock, the Dealer and the seats, whichever way the deal is decided.
-/
namespace Sys2Proof.Machine

/-! ## What settling keeps -/

/-- A seat's record but for its state and the cause that holds it. -/
def Seat.progress (t : Seat) : Seat := { t with state := 0, heldCause := 0 }

/-- From `s` to `t` the deal clock and every seat's progress stay. -/
structure State.Lasts (s t : State) : Prop where
  cad : t.cad = s.cad
  progress : ∀ i, (t.seat i).progress = (s.seat i).progress

/-- From `s` to `t` the outcome, the deal counts and the checks stay too, no waiting event is lost, and without a waiting HOLD the seats stay. -/
structure State.Settles (s t : State) : Prop extends State.Lasts s t where
  outcome : t.dealer.lastOutcome = s.dealer.lastOutcome
  idle : t.dealer.idleDeals = s.dealer.idleDeals
  committed : t.dealer.committedDeals = s.dealer.committedDeals
  checks : t.dealer.checks = s.dealer.checks
  rereads : t.dealer.rereads = s.dealer.rereads
  events : s.dealer.toPost ⊆ t.dealer.toPost
  unheld : s.dealer.holds = [] → t.dealer.holds = [] ∧ t.seats = s.seats

/-- The part of the state that `State.Settles` speaks of. -/
structure Books where
  cad : Cad
  seats : List (Nat × Seat)
  outcome : Bool
  idle : Nat
  committed : Nat
  checks : List Check
  rereads : List VaultFail
  events : List EvReq
  holds : List PendingHold

def State.books (s : State) : Books :=
  { cad := s.cad, seats := s.seats, outcome := s.dealer.lastOutcome, idle := s.dealer.idleDeals, committed := s.dealer.committedDeals
    checks := s.dealer.checks, rereads := s.dealer.rereads, events := s.dealer.toPost, holds := s.dealer.holds }

theorem State.books_of_table {s t : State} (h : t.table = s.table) : t.books = s.books :=
  congrArg (fun v : Table => ({ cad := v.cad, seats := v.seats, outcome := v.dealer.lastOutcome, idle := v.dealer.idleDeals, committed := v.dealer.committedDeals, checks := v.dealer.checks, rereads := v.dealer.rereads, events := v.dealer.toPost, holds := v.dealer.holds } : Books)) h

theorem State.Lasts.of_seats {s t : State} (cad : t.cad = s.cad) (seats : t.seats = s.seats) : s.Lasts t :=
  ⟨cad, fun i => by rw [State.seat, State.seat, seats]⟩

theorem State.Lasts.trans {s t u : State} (h : s.Lasts t) (g : t.Lasts u) : s.Lasts u :=
  ⟨g.cad.trans h.cad, fun i => (g.progress i).trans (h.progress i)⟩

theorem State.Lasts.ite {s t u : State} {c : Prop} [Decidable c] (h : s.Lasts t) (g : t.Lasts u) : s.Lasts (if c then u else t) := by
  split
  · exact h.trans g
  · exact h

theorem State.Settles.of_books {s t : State} (h : t.books = s.books) : s.Settles t :=
  { State.Lasts.of_seats (congrArg Books.cad h) (congrArg Books.seats h) with
    outcome := congrArg Books.outcome h, idle := congrArg Books.idle h, committed := congrArg Books.committed h, checks := congrArg Books.checks h
    rereads := congrArg Books.rereads h, events := fun r waits => (congrArg (fun v : Books => r ∈ v.events) h).mpr waits
    unheld := fun none => ⟨(congrArg Books.holds h).trans none, congrArg Books.seats h⟩ }

theorem State.Settles.of_table {s t : State} (h : t.table = s.table) : s.Settles t := .of_books (State.books_of_table h)

theorem State.Settles.refl (s : State) : s.Settles s := .of_books rfl

theorem State.Settles.trans {s t u : State} (h : s.Settles t) (g : t.Settles u) : s.Settles u :=
  { h.toLasts.trans g.toLasts with
    outcome := g.outcome.trans h.outcome, idle := g.idle.trans h.idle, committed := g.committed.trans h.committed, checks := g.checks.trans h.checks
    rereads := g.rereads.trans h.rereads, events := List.Subset.trans h.events g.events
    unheld := fun none => by
      obtain ⟨none', seats⟩ := h.unheld none
      obtain ⟨none'', seats'⟩ := g.unheld none'
      exact ⟨none'', seats'.trans seats⟩ }

theorem State.Reports.settles {s t : State} (h : s.Reports t) : s.Settles t := by
  obtain ⟨more, later, dealer⟩ := h.dealer
  exact { State.Lasts.of_seats h.cad h.seats with
    outcome := by rw [dealer], idle := by rw [dealer], committed := by rw [dealer], checks := by rw [dealer], rereads := by rw [dealer]
    events := by rw [dealer]; exact List.subset_append_left _ _
    unheld := fun none => ⟨by rw [dealer]; exact none, h.seats⟩ }

/-! ## HOLDs that take effect (R58) -/

theorem State.setSeat_progress {s : State} {j : Nat} {t : Seat} (same : t.progress = (s.seat j).progress) (i : Nat) :
    ((s.setSeat j t).seat i).progress = (s.seat i).progress := by
  by_cases h : i = j
  · subst h; rw [State.seat_setSeat_same, same]
  · rw [State.seat_setSeat_other s j i t h]

theorem State.holdSeat_lasts (s : State) (i cause : Nat) : s.Lasts (s.holdSeat i cause) := ⟨rfl, State.setSeat_progress rfl⟩

theorem State.complete_lasts (s : State) (t : Ticket) (a : Nat) : s.Lasts (s.complete t a) := .of_seats (by simp) (by simp)

/-- The HOLDs that `due` names leave the Dealer; each of them moves a seat to HELD at most. -/
theorem State.settles_holds (s : State) (due : PendingHold → Bool) (f : State → PendingHold → State) (lasts : ∀ s x, State.Lasts s (f s x))
    (dealer : ∀ s x, (f s x).dealer = s.dealer) :
    s.Settles ((s.dealer.holds.filter due).foldl f { s with dealer := { s.dealer with holds := s.dealer.holds.filter (fun h => !due h) } }) := by
  generalize left : ({ s with dealer := { s.dealer with holds := s.dealer.holds.filter (fun h => !due h) } } : State) = u
  have kept : ((s.dealer.holds.filter due).foldl f u).dealer = u.dealer := foldl_keeps State.dealer dealer _ u
  have last : u.Lasts ((s.dealer.holds.filter due).foldl f u) := List.foldlRecOn _ f (.of_seats rfl rfl) fun _ h x _ => h.trans (lasts _ x)
  subst left
  exact { (State.Lasts.of_seats rfl rfl).trans last with
    outcome := by rw [kept], idle := by rw [kept], committed := by rw [kept], checks := by rw [kept], rereads := by rw [kept]
    events := by rw [kept]; exact List.Subset.refl _
    unheld := fun none => by rw [kept, none]; exact ⟨rfl, rfl⟩ }

theorem State.settleHolds_settles (s : State) (d : Nat) : s.Settles (s.settleHolds d) := by
  refine s.settles_holds (s.holdDue d) _ (fun u h => ?_) (fun u h => ?_)
  · refine State.Lasts.trans ?_ (State.complete_lasts _ _ _)
    split
    · exact u.holdSeat_lasts _ _
    · exact .of_seats rfl rfl
  · dsimp only
    split <;> simp [State.holdSeat]

/-! ## The held re-deal (R351 to R353) -/

theorem State.finishSheet_table (s : State) (p : Plan) (status : Nat) : (s.finishSheet p status).table = s.table := by
  unfold State.finishSheet; split <;> simp

theorem State.displace_settles (s : State) (target : Nat) : s.Settles (s.displace target) :=
  State.Settles.trans (.of_books (by rfl)) (.of_table (foldl_keeps State.table (fun s x => s.sheetDone_table x 0x0C) _ _))

theorem State.dropRedeal_settles (s : State) (status : Nat) : s.Settles (s.dropRedeal status) := by
  unfold State.dropRedeal
  split
  · exact .refl s
  next p _ =>
    dsimp only
    have finished : s.Settles ((State.finishSheet { s with dealer := { s.dealer with redeal := none } } p status).suspectsToBist) :=
      .of_books (State.books_of_table (State.finishSheet_table _ p status) :)
    exact finished.trans (State.settles_holds _ (fun h => p.names h.seat) _ (fun u h => (u.holdSeat_lasts _ _).trans (State.complete_lasts _ _ _)) fun u h => by simp [State.holdSeat])

theorem State.judgeRedeal_settles (s : State) : s.Settles s.judgeRedeal := by
  unfold State.judgeRedeal
  split
  · exact .refl s
  split
  · exact s.dropRedeal_settles _
  split
  · exact .refl s
  split
  · exact (State.Settles.of_table (s.sendNotice_table _ _ _)).trans (State.dropRedeal_settles _ _)
  split
  · exact s.dropRedeal_settles _
  · exact (State.Settles.of_books (by rfl)).trans (State.displace_settles _ _)

theorem State.judgeWhenDone_settles (s : State) : s.Settles s.judgeWhenDone := by
  unfold State.judgeWhenDone
  split
  · exact .refl s
  · exact s.judgeRedeal_settles

/-! ## The next deal's entries tested again (R69) -/

theorem State.retestEntries_table (d : Nat) (f : Form) (p : Plan) (s : State) :
    (p.entries.foldl (fun (acc : Plan × State) e => acc.2.retestEntry f d acc.1 e) (p, s)).2.table = s.table :=
  foldl_keeps (fun acc : Plan × State => acc.2.table) (fun acc e => acc.2.retestEntry_table f d acc.1 e) p.entries (p, s)

theorem State.retest_settles (s : State) : s.Settles s.retest := by
  unfold State.retest
  split
  · exact .refl s
  split
  · exact .refl s
  next p _ _ f _ => exact .of_books (State.books_of_table (s.retestEntries_table (s.cad.deal + 1) f p) :)

/-! ## The gather window (Table 2.1) -/

@[simp] theorem State.addCauseAt_books (s : State) (n a b c d e : Nat) : (s.addCauseAt n a b c d e).books = s.books := by
  unfold State.addCauseAt
  split
  · rfl
  · exact (State.books_of_table (State.sendNotice_table _ _ _ _) :)

theorem State.foldFound_books (s : State) (p : Plan) (d seat c : Nat) : (s.foldFound p d seat c).2.books = s.books :=
  State.books_of_table (s.sendNotice_table _ _ _)

theorem State.judgeOwner_books (s : State) (p : Plan) (d pa seatCause detail : Nat) : (s.judgeOwner p d pa seatCause detail).2.books = s.books := by
  unfold State.judgeOwner
  split
  · rfl
  · exact s.foldFound_books _ _ _ _
  · split
    · exact State.books_of_table (s.sendNotice_table _ _ _)
    · exact s.addCauseAt_books _ _ _ _ _ _
  · exact s.addCauseAt_books _ _ _ _ _ _

theorem State.judgeOwners_books {α : Type} (pa : α → Nat) (d seatCause detail : Nat) (l : List α) (acc : Plan × State) :
    (l.foldl (fun (acc : Plan × State) x => acc.2.judgeOwner acc.1 d (pa x) seatCause detail) acc).2.books = acc.2.books :=
  foldl_keeps (fun acc : Plan × State => acc.2.books) (fun acc x => acc.2.judgeOwner_books acc.1 d (pa x) seatCause detail) l acc

theorem State.judgeReads_books (s : State) (p : Plan) (d : Nat) : (s.judgeReads p d).2.books = s.books := by
  unfold State.judgeReads
  extract_lets reads writes _ u
  have read : (reads.foldl (fun (acc : Plan × State) x => acc.2.judgeOwner acc.1 d x.pa 0x16 0x40) (p, u)).2.books = s.books :=
    State.judgeOwners_books PoisonRead.pa d 0x16 0x40 reads (p, u)
  split
  next h =>
    rw [h] at read
    exact (State.judgeOwners_books ForeignWrite.pa d 0x15 0x41 writes _).trans read

theorem State.judgeWords_books (s : State) (p : Plan) : (s.judgeWords p).2.books = s.books := by
  refine foldl_keeps (fun acc : Plan × State => acc.2.books) (fun acc e => ?_) p.entries (p, s)
  split
  · rfl
  split
  · exact acc.2.foldFound_books _ _ _ _
  split
  · exact acc.2.foldFound_books _ _ _ _
  · rfl

theorem State.gather_books (s : State) (p : Plan) : (s.gather p).2.books = s.books := by
  have words : (if s.cad.drained then (p, s) else s.judgeWords p).2.books = s.books := by
    split
    · rfl
    · exact s.judgeWords_books p
  unfold State.gather
  dsimp only
  exact (State.judgeReads_books _ _ _).trans words

end Sys2Proof.Machine
end

section
/-!
Lemmas on the two ways a deal is decided (R14, R26, R65, R79, R349) and on the end of the checks a decision started (R300, R348, R350).
-/
namespace Sys2Proof.Machine

/-! ## A commit moves nothing of the deal clock (R79) -/

@[simp] theorem State.foldEntry_cad (s : State) (e : Entry) (c : Nat) : (s.foldEntry e c).cad = s.cad := rfl

@[simp] theorem State.reseat_cad (s : State) (i : Nat) : (s.reseat i).cad = s.cad := by
  unfold State.reseat; split <;> rfl

@[simp] theorem State.handOff_cad (s : State) (p : Plan) (f : Form) (e : Entry) (before : Seat) : (s.handOff p f e before).cad = s.cad := by
  unfold State.handOff; extract_lets; split <;> rfl

theorem State.queueMarkIf_cad (c : Bool) (s : State) (r : EvReq) : (if c then s.queueMark r else s).cad = s.cad := by
  split <;> rfl

@[simp] theorem State.commitEntry_cad (s : State) (p : Plan) (f : Form) (committed : List Entry) (e : Entry) : (s.commitEntry p f committed e).cad = s.cad := by
  unfold State.commitEntry
  refine (State.queueMarkIf_cad _ _ _).trans ?_
  dsimp only
  split
  · exact State.handOff_cad _ _ _ _ _
  · exact State.handOff_cad _ _ _ _ _

/-- What a settle window charges: PCIe bytes, the house, and the clears that wait. -/
theorem State.charged_cad (s : State) (house : List Nat) : ((s.applyPcie.chargeHouse house).applyClears).cad = s.cad := rfl

theorem State.commitDeal_cad (s : State) (p : Plan) : (s.commitDeal p).cad = s.cad := by
  have folded : ∀ (l : List Entry) (u : State), (l.foldl (fun s e => s.foldEntry e (e.cause.getD 0)) u).cad = u.cad :=
    fun l u => foldl_keeps State.cad (fun s e => s.foldEntry_cad e _) l u
  have reseated : ∀ (l : List Entry) (u : State), (l.foldl (fun s e => s.reseat e.seat) u).cad = u.cad :=
    fun l u => foldl_keeps State.cad (fun s e => s.reseat_cad e.seat) l u
  have slots : ∀ u : State, (p.slotFolds.foldl (fun v x => v.queueMark { ev 0x02 (x.2 % 256) s.cad.deal with subject := subjSlot x.1, w0 := subjSlot x.1, w1 := x.1, w3 := x.2 }) u).cad = u.cad :=
    fun u => foldl_keeps State.cad (fun v x => by rfl) _ u
  have committed : ∀ (f : Form) (all l : List Entry) (u : State), (l.foldl (fun s e => s.commitEntry p f all e) u).cad = u.cad :=
    fun f all l u => foldl_keeps State.cad (fun s e => s.commitEntry_cad p f all e) l u
  have owed : ∀ (u : State) (voids : Nat), (match p.owed with
      | some target => u.sheetCpl 0x01 p.tag target voids 0xFFFF
      | none => u).cad = u.cad := fun u voids => by split <;> simp
  unfold State.commitDeal
  split
  · rfl
  · dsimp only
    refine (owed _ _).trans ((State.charged_cad _ _).trans ?_)
    exact (committed _ _ _ _).trans ((reseated _ _).trans ((slots _).trans ((reseated _ _).trans (folded _ _))))

/-! ## A misdeal moves no seat's progress (R14, R349) -/

theorem State.discardSelected_lasts (s : State) : s.Lasts s.discardSelected := by
  refine .of_seats s.discardSelected_cad ?_
  unfold State.discardSelected
  dsimp only
  split
  · split <;> simp
  · rfl

theorem State.reseat_lasts (s : State) (i : Nat) : s.Lasts (s.reseat i) := by
  unfold State.reseat
  split
  · exact ⟨rfl, State.setSeat_progress rfl⟩
  · exact .of_seats rfl rfl

theorem State.rewriteDealerLines_lasts (s : State) (p : Plan) (pas : List Nat) : s.Lasts (s.rewriteDealerLines p pas) :=
  List.foldlRecOn _ _ (.of_seats rfl rfl) fun _ h _ _ => h.trans (.of_seats rfl rfl)

theorem State.undoWrites_lasts (s : State) : s.Lasts s.undoWrites := .of_seats rfl rfl

theorem State.chargeHouse_lasts (s : State) (c : List Nat) : s.Lasts (s.chargeHouse c) := .of_seats rfl rfl

theorem State.startChecks_lasts (s : State) (d : Nat) : s.Lasts (s.startChecks d) := .of_seats rfl rfl

theorem State.misdealDeal_lasts (s : State) (p : Plan) (d : Nat) (cs : List Cause) : s.Lasts (s.misdealDeal p d cs) := by
  have reseated : ∀ u : State, u.Lasts (p.entries.foldl (fun s e => s.reseat e.seat) u) :=
    fun u => List.foldlRecOn _ _ (.of_seats rfl rfl) fun v h e _ => h.trans (v.reseat_lasts e.seat)
  have repaired : ∀ u : State, u.Lasts u.decisionRepairs := fun u => u.decisionRepairs_reports.settles.toLasts
  have judged : ∀ u : State, u.Lasts u.judgeWhenDone := fun u => u.judgeWhenDone_settles.toLasts
  have dropped : ∀ {u v : State} (status : Nat), u.Lasts v → u.Lasts (v.dropRedeal status) := fun status h => h.trans (State.dropRedeal_settles _ status).toLasts
  unfold State.misdealDeal
  extract_lets pas _ _ told emptied seated undone charged _ _ _ _ held displaced mended checking _ _ revoked _ stopped diverged
  have told_lasts : s.Lasts told := .of_seats rfl rfl
  have charged_lasts : s.Lasts charged :=
    (((told_lasts.trans told.discardSelected_lasts).trans (reseated emptied)).trans (seated.undoWrites_lasts.trans (seated.undoWrites.rewriteDealerLines_lasts p pas))).trans (undone.chargeHouse_lasts [])
  clear_value charged
  have held_lasts : s.Lasts held := charged_lasts.trans (.of_seats rfl rfl)
  have checking_lasts : s.Lasts checking := ((State.Lasts.ite held_lasts (held.displace_settles _).toLasts).trans (repaired displaced)).trans (mended.startChecks_lasts d)
  clear_value checking
  have revoked_lasts : s.Lasts revoked := .ite checking_lasts (dropped 6 (.of_seats rfl rfl))
  clear_value revoked
  have stopped_lasts : s.Lasts stopped := .ite revoked_lasts (.of_seats rfl rfl)
  have diverged_lasts : s.Lasts diverged := .ite stopped_lasts (dropped 13 (.of_seats rfl rfl))
  split
  · exact (charged_lasts.trans ((repaired charged).trans (State.startChecks_lasts _ d))).trans (judged _)
  · exact diverged_lasts.trans (judged diverged)

/-! ## The decision (R26) -/

/-- The causes that count for deal `d` run by plan `p` (R26, R71). -/
def State.causesFor (s : State) (p : Plan) (d : Nat) : List Cause := s.dealer.causes.filter (fun c => c.deal = d && (p.formId.isSome || c.rank ≠ 9))

/-- The deal is decided, with plan `p` running. -/
def State.underDecision (s : State) (p : Plan) : State := { s with cad := { s.cad with decided := true }, dealer := { s.dealer with running := some p } }

/-- The running plan's pins are released, and the outcome is a commit. -/
def State.toldCommit (s : State) (p : Plan) : State := { s with dealer := { s.dealer with running := some { p with pins := [] }, lastOutcome := true, undo := [] } }

/-- Deal `d` run by plan `p` commits. -/
def State.commits (s : State) (p : Plan) (d : Nat) : State :=
  (((((s.commitDeal p).toldCommit p).startChecks d).settleHolds d).retest.decisionRepairs).judgeWhenDone

/-- Deal `d` run by plan `p` misdeals. -/
def State.misdeals (s : State) (p : Plan) (d : Nat) (cs : List Cause) : State :=
  let s := s.misdealDeal p d cs
  { s with dealer := { s.dealer with running := some { p with pins := [] }, lastOutcome := false } }

/-- What was found for deal `d` is gone with its meters. -/
def State.forgets (s : State) (d : Nat) : State :=
  { s with dealer := { s.dealer with
      causes := s.dealer.causes.filter (·.deal ≠ d), poisonReads := s.dealer.poisonReads.filter (·.deal ≠ d)
      foreignWrites := s.dealer.foreignWrites.filter (·.deal ≠ d), completions := none
      slotHbm := [], vaultBytes := 0, deckBytes := 0 } }

/-- Deal `d` run by plan `p` is decided: it commits where no cause counts and misdeals otherwise. -/
def State.decided (s : State) (p : Plan) (d : Nat) : State :=
  if s.causesFor p d = [] then (s.underDecision p).commits p d else (s.underDecision p).misdeals p d (s.causesFor p d)

/-- Deal `d` is decided on what its gather window found, the group's folds among it, and that is forgotten (Table 2.1, R388). -/
def State.decideOn (d : Nat) : Plan × State → State
  | (p, s) => (s.decided (s.groupFolds p) d).agingAtDecision.forgets d

theorem State.decideDeal_eq (s : State) : s.decideDeal = State.decideOn s.cad.deal (s.gather (s.dealer.running.getD (idlePlan false))) := rfl

/-- At T(L−64) of an undecided deal the decision is taken. -/
theorem execDealDecision_due {s : State} (deals : s.dealing = true) (undecided : s.cad.decided = false) (due : s.left = some 64) :
    execDealDecision s = .next s.decideDeal := by
  have now : (s.dealing && !s.cad.decided && s.atLeft 64) = true := by simp [deals, undecided, State.atLeft, due]
  exact congrArg Host.Outcome.next (if_pos now)

theorem State.commits_settles (s : State) (p : Plan) (d : Nat) : (((s.commitDeal p).toldCommit p).startChecks d).Settles (s.commits p d) :=
  (((State.settleHolds_settles _ d).trans (State.retest_settles _)).trans (State.decisionRepairs_reports _).settles).trans (State.judgeWhenDone_settles _)

theorem State.decided_cad (s : State) (p : Plan) (d : Nat) : (s.decided p d).cad = { s.cad with decided := true } := by
  unfold State.decided
  split
  · exact (State.commits_settles _ _ _).cad.trans (State.commitDeal_cad _ _)
  · exact (State.misdealDeal_lasts _ _ _ _).cad

/-- A deal whose outcome is a misdeal leaves every seat's progress (R14). -/
theorem State.decided_progress {s : State} {p : Plan} {d : Nat} (misdeal : (s.decided p d).dealer.lastOutcome = false) (i : Nat) :
    ((s.decided p d).seat i).progress = (s.seat i).progress := by
  unfold State.decided at misdeal ⊢
  split at misdeal
  · rw [(State.commits_settles _ _ _).outcome] at misdeal
    cases misdeal
  next found =>
    rw [if_neg found]
    exact (State.misdealDeal_lasts _ _ _ _).progress i

end Sys2Proof.Machine
end

section
/-!
Lemmas on the end of the checks and re-reads a decision started (R300, R348, R350), and on the decision of an idle deal (R65).
-/
namespace Sys2Proof.Machine

/-! ## Checks and re-reads end (R300, R348) -/

/-- Without what is under way nothing is under way. -/
theorem any_diff_filter {α : Type} [DecidableEq α] (l : List α) (p : α → Bool) : (l.diff (l.filter p)).any p = false := by
  have rest : ((l.diff (l.filter p) : List α) : Multiset α) = (l.filter (fun x => ¬ p x) : List α) := by
    simpa using Multiset.sub_filter_eq_filter_not (fun x => p x = true) (l : Multiset α)
  rw [List.any_eq_false]
  intro x left
  simpa using (List.mem_filter.mp ((Multiset.coe_eq_coe.mp rest).mem_iff.mp left)).2

theorem diff_self {α : Type} [DecidableEq α] (l : List α) : l.diff l = [] := by
  rw [← Multiset.coe_eq_zero, ← Multiset.coe_sub, tsub_self]

/-- A check's answer takes the check from those known; the deal clock and the re-reads stay. -/
theorem answerChecks_leaves (ks : List Check) : ∀ (bs : List Bool) (s : State), ks.length ≤ bs.length →
    (State.answerChecks ks bs s).cad = s.cad ∧ (State.answerChecks ks bs s).dealer.checks = s.dealer.checks.diff ks ∧ (State.answerChecks ks bs s).dealer.rereads = s.dealer.rereads := by
  induction ks with
  | nil => exact fun _ _ _ => ⟨rfl, rfl, rfl⟩
  | cons k ks ih =>
    intro bs s enough
    cases bs with
    | nil => simp at enough
    | cons b bs =>
      have found := (State.checkOutcome_reports { s with dealer := { s.dealer with checks := s.dealer.checks.erase k } } k b).settles
      obtain ⟨cad, checks, rereads⟩ := ih bs _ (by simpa using enough)
      rw [State.answerChecks, List.diff_cons]
      exact ⟨cad.trans found.cad, checks.trans (by rw [found.checks]), rereads.trans found.rereads⟩

theorem State.idleRedeal_settles (s : State) : s.Settles s.idleRedeal := .of_books rfl

/-- The block failed in the deal that the held re-deal repeats too (R300). -/
def State.failedBefore (s : State) (v : VaultFail) : Bool :=
  match s.dealer.redeal with
  | some r => r.redealOf.isSome && s.dealer.lastPlan.any (fun p => p.vaultFailed.contains (v.image, v.die, v.block))
  | none => false

/-- A block that its re-read finds damaged bars the re-deal, and a group hears of it (R300). -/
def State.barsRedeal (s : State) (v : VaultFail) : State :=
  let s := s.damageBlock v.image v.die v.block v.detail
  let s : State := if s.inGroup then s.sendNotice 4 (s.cad.deal + 1) 2 else s
  s.idleRedeal.dropRedeal 0x06

/-- The re-read of block `v` has ended. -/
def State.withoutReread (s : State) (v : VaultFail) : State := { s with dealer := { s.dealer with rereads := s.dealer.rereads.erase v } }

theorem answerRereads_cons (v : VaultFail) (vs : List VaultFail) (b : Bool) (bs : List Bool) (s : State) :
    State.answerRereads (v :: vs) (b :: bs) s =
      State.answerRereads vs bs (if b && !(s.withoutReread v).failedBefore v then s.withoutReread v else (s.withoutReread v).barsRedeal v) := rfl

theorem State.barsRedeal_settles (s : State) (v : VaultFail) : s.Settles (s.barsRedeal v) := by
  unfold State.barsRedeal
  extract_lets damaged told
  have said : damaged.Settles told := by
    unfold told
    split
    · exact .of_table (damaged.sendNotice_table _ _ _)
    · exact .refl damaged
  exact (((s.damageBlock_reports _ _ _ _).settles.trans said).trans told.idleRedeal_settles).trans (State.dropRedeal_settles _ _)

/-- A re-read's answer takes the block from those re-read; the deal clock and the checks stay. -/
theorem answerRereads_leaves (vs : List VaultFail) : ∀ (bs : List Bool) (s : State), vs.length ≤ bs.length →
    (State.answerRereads vs bs s).cad = s.cad ∧ (State.answerRereads vs bs s).dealer.checks = s.dealer.checks ∧ (State.answerRereads vs bs s).dealer.rereads = s.dealer.rereads.diff vs := by
  induction vs with
  | nil => exact fun _ _ _ => ⟨rfl, rfl, rfl⟩
  | cons v vs ih =>
    intro bs s enough
    cases bs with
    | nil => simp at enough
    | cons b bs =>
      have settled : (s.withoutReread v).Settles (if b && !(s.withoutReread v).failedBefore v then s.withoutReread v else (s.withoutReread v).barsRedeal v) := by
        split
        · exact .refl _
        · exact State.barsRedeal_settles _ v
      obtain ⟨cad, checks, rereads⟩ := ih bs _ (by simpa using enough)
      rw [answerRereads_cons, List.diff_cons]
      exact ⟨cad.trans settled.cad, checks.trans settled.checks, rereads.trans (congrArg (List.diff · vs) settled.rereads)⟩

/-- Once every check and re-read under way has its answer, none is under way. -/
theorem repairCheckDone_ends {s : State} {ps rs : List Bool} (busy : s.dealer.checks.any (·.running) = true ∨ s.dealer.rereads ≠ [])
    (checked : (s.dealer.checks.filter (·.running)).length ≤ ps.length) (read : s.dealer.rereads.length ≤ rs.length) :
    ∃ t, execRepairCheckDone ps rs s = .next t ∧ t.cad = s.cad ∧ t.dealer.checks.any (·.running) = false ∧ t.dealer.rereads = [] := by
  have waits : ¬(decide (s.dealer.checks.filter (·.running) = []) && decide (s.dealer.rereads = [])) = true := by
    intro none
    simp only [Bool.and_eq_true, decide_eq_true_eq, List.filter_eq_nil_iff] at none
    obtain ⟨still, unread⟩ := none
    obtain h | h := busy
    · obtain ⟨k, known, runs⟩ := List.any_eq_true.mp h
      exact still k known runs
    · exact h unread
  refine ⟨_, congrArg Host.Outcome.next (if_neg waits), ?_⟩
  dsimp only
  obtain ⟨cad, checks, rereads⟩ := answerChecks_leaves (s.dealer.checks.filter (·.running)) ps s checked
  generalize State.answerChecks (s.dealer.checks.filter (·.running)) ps s = u at *
  obtain ⟨cad', checks', rereads'⟩ := answerRereads_leaves u.dealer.rereads rs u (by rw [rereads]; exact read)
  have settled := (State.watch_reports (State.answerRereads u.dealer.rereads rs u)).settles.trans (State.judgeWhenDone_settles _)
  refine ⟨settled.cad.trans (cad'.trans cad), ?_, ?_⟩
  · rw [settled.checks, checks', checks]
    exact any_diff_filter _ _
  · rw [settled.rereads, rereads', diff_self]

/-! ## The decision of an idle deal (R65) -/

/-- Without reads, writes, HOLDs or entries to judge the gather window finds nothing. -/
theorem State.gather_none {s : State} {p : Plan} (entries : p.entries = []) (reads : s.dealer.poisonReads = []) (writes : s.dealer.foreignWrites = []) (holds : s.dealer.holds = []) :
    s.gather p = (p, s) := by
  have same : ({ s with dealer := { s.dealer with poisonReads := [], foreignWrites := [] } } : State) = s := by rw [← reads, ← writes]
  have words : (if s.cad.drained then (p, s) else s.judgeWords p) = (p, s) := by rw [State.judgeWords, entries, List.foldl_nil, ite_self]
  have judged : s.judgeReads p s.cad.deal = (p, s) := by
    unfold State.judgeReads
    rw [reads, writes]
    exact congrArg (Prod.mk p) same
  unfold State.gather
  dsimp only
  rw [words, judged, holds]
  rfl

/-- The COMMIT event of an idle deal: its number alone, with IDLE for the sheet's source (R65). -/
def idleCommit (d : Nat) : EvReq := { ev 0x01 0 d with w1 := 2 ^ 17 * 4 }

/-- An idle deal's commit counts the deal and says so; no seat moves. -/
theorem State.commitDeal_idle {s : State} {p : Plan} (idle : p.formId = none) :
    (s.commitDeal p).seats = s.seats ∧ (s.commitDeal p).dealer.idleDeals = s.dealer.idleDeals + 1 ∧ (s.commitDeal p).dealer.committedDeals = s.dealer.committedDeals
      ∧ (s.commitDeal p).dealer.toPost = s.dealer.toPost ++ [idleCommit s.cad.deal] ∧ (s.commitDeal p).dealer.holds = s.dealer.holds := by
  have noForm : p.form s = none := by rw [Plan.form, idle, Option.bind_none]
  unfold State.commitDeal
  rw [noForm]
  exact ⟨rfl, rfl, rfl, rfl, rfl⟩

/-- Where an idle deal has nothing to count against it, it commits its number alone (R65). -/
theorem State.decideDeal_idle {s : State} {p : Plan} (running : s.dealer.running = some p) (idle : p.formId = none) (entries : p.entries = [])
    (causes : s.dealer.causes = []) (reads : s.dealer.poisonReads = []) (writes : s.dealer.foreignWrites = []) (holds : s.dealer.holds = []) (records : s.group.records = []) :
    s.decideDeal.seats = s.seats ∧ s.decideDeal.dealer.idleDeals = s.dealer.idleDeals + 1 ∧ s.decideDeal.dealer.committedDeals = s.dealer.committedDeals
      ∧ idleCommit s.cad.deal ∈ s.decideDeal.dealer.toPost := by
  have folds : s.groupFolds p = p := by rw [State.groupFolds, records]; rfl
  have commits : s.decided p s.cad.deal = (s.underDecision p).commits p s.cad.deal := if_pos (by rw [State.causesFor, causes, List.filter_nil])
  obtain ⟨seats, counted, others, told, held⟩ := (s.underDecision p).commitDeal_idle idle
  have decision : s.decideDeal = ((s.underDecision p).commits p s.cad.deal).agingAtDecision.forgets s.cad.deal := by
    rw [State.decideDeal_eq, running, Option.getD_some, State.gather_none entries reads writes holds, State.decideOn, folds, commits]
  have settled := ((s.underDecision p).commits_settles p s.cad.deal).trans (State.agingAtDecision_reports _).settles
  rw [decision]
  generalize (s.underDecision p).commitDeal p = u at *
  generalize ((s.underDecision p).commits p s.cad.deal).agingAtDecision = t at *
  have told' : idleCommit s.cad.deal ∈ u.dealer.toPost := told ▸ List.mem_append_right _ (List.mem_singleton.mpr rfl)
  obtain ⟨-, kept⟩ := settled.unheld (held.trans holds)
  exact ⟨kept.trans seats, settled.idle.trans counted, settled.committed.trans others, settled.events told'⟩

/-! ## The decision of any deal (R14, R25, R26) -/

/-- The decision is taken on what the gather window leaves, and that moves neither the clock nor a seat. -/
theorem State.decideDeal_gathered (s : State) :
    ∃ (p : Plan) (u : State), u.cad = s.cad ∧ u.seats = s.seats ∧ s.decideDeal = (u.decided p s.cad.deal).agingAtDecision.forgets s.cad.deal := by
  have found := s.gather_books (s.dealer.running.getD (idlePlan false))
  rw [State.decideDeal_eq]
  generalize s.gather (s.dealer.running.getD (idlePlan false)) = r at found
  obtain ⟨p, u⟩ := r
  exact ⟨u.groupFolds p, u, congrArg Books.cad found, congrArg Books.seats found, rfl⟩

/-- Whichever way the deal is decided, the clock moves by the decision alone; what was found for the deal, its captured words and its meters are gone. -/
theorem State.decideDeal_forgets (s : State) :
    s.decideDeal.cad = { s.cad with decided := true } ∧ (∀ c ∈ s.decideDeal.dealer.causes, c.deal ≠ s.cad.deal) ∧ s.decideDeal.dealer.completions = none
      ∧ s.decideDeal.dealer.slotHbm = [] ∧ s.decideDeal.dealer.vaultBytes = 0 ∧ s.decideDeal.dealer.deckBytes = 0 := by
  obtain ⟨p, u, cad, -, decision⟩ := s.decideDeal_gathered
  have decided : (u.decided p s.cad.deal).agingAtDecision.cad = { s.cad with decided := true } := by
    rw [(State.agingAtDecision_reports _).cad, State.decided_cad, cad]
  rw [decision]
  exact ⟨decided, fun c known => by simpa using (List.mem_filter.mp known).2, rfl, rfl, rfl, rfl⟩

/-- A misdeal leaves every seat's progress (R14). -/
theorem State.decideDeal_progress {s : State} (misdeal : s.decideDeal.dealer.lastOutcome = false) (i : Nat) : (s.decideDeal.seat i).progress = (s.seat i).progress := by
  obtain ⟨p, u, cad, seats, decision⟩ := s.decideDeal_gathered
  have aged := (u.decided p s.cad.deal).agingAtDecision_reports.settles
  rw [decision] at misdeal ⊢
  have same : ((u.decided p s.cad.deal).seat i).progress = (u.seat i).progress := State.decided_progress (aged.outcome.symm.trans misdeal) i
  exact (aged.progress i).trans (same.trans ((State.Lasts.of_seats cad seats).progress i))

/-- The same progress is the same value of every field but the state and the cause that holds the seat. -/
theorem Seat.fields_of_progress {t u : Seat} (same : t.progress = u.progress) :
    t.step = u.step ∧ t.phaseIdx = u.phaseIdx ∧ t.kvLen = u.kvLen ∧ t.sel = u.sel ∧ t.osel = u.osel ∧ t.residency = u.residency ∧ t.deals = u.deals ∧ t.lastDeal = u.lastDeal
      ∧ t.sCoreTricks = u.sCoreTricks ∧ t.sHbm = u.sHbm ∧ t.sVault = u.sVault ∧ t.sEnergy = u.sEnergy ∧ t.taint = u.taint := by
  have field : ∀ {α : Type} (f : Seat → α), f t.progress = f u.progress := fun f => congrArg f same
  exact ⟨field Seat.step, field Seat.phaseIdx, field Seat.kvLen, field Seat.sel, field Seat.osel, field Seat.residency, field Seat.deals, field Seat.lastDeal,
    field Seat.sCoreTricks, field Seat.sHbm, field Seat.sVault, field Seat.sEnergy, field Seat.taint⟩

end Sys2Proof.Machine

namespace Sys2Proof.Proofs
open Sys2Proof Sys2Proof.Machine

/-- Settles O5: the settle work of a commit and of a misdeal, the answers of checks and re-reads, and the selection of a plan are each followed operation by operation, and none moves what the statement says stays. -/
theorem dealsAreDecided : Obligations.DealsAreDecided := by
  refine ⟨⟨?decision, ?checks⟩, ?idle, ?cutoff, ?misdeal⟩
  case decision =>
    intro s deals undecided due
    exact ⟨_, execDealDecision_due deals undecided due, s.decideDeal_forgets⟩
  case checks => exact fun s ps rs busy checked read _ _ => repairCheckDone_ends busy checked read
  case idle =>
    intro s deals undecided due ⟨p, running, idle, entries, _⟩ causes reads writes holds records _
    exact ⟨_, execDealDecision_due deals undecided due, State.decideDeal_idle running idle entries causes reads writes holds records⟩
  case cutoff => exact fun s may due => sheetCutoff_selects may due
  case misdeal =>
    intro s deals undecided due
    exact ⟨_, execDealDecision_due deals undecided due, fun misdeal i => Seat.fields_of_progress (State.decideDeal_progress misdeal i)⟩

end Sys2Proof.Proofs
end

section
/-!
Lemmas on the edges away from the mark (R20, R36, R44, R45, R574): which trick an edge begins, and what a stray edge and an edge without a position leave.
-/
namespace Sys2Proof.Machine

/-- The next trick of the deal in progress, begun at `t`. -/
def State.nextTrick (s : State) (t : Nat) : State := { s with now := max s.now t, cad := { s.cad with startPs := t, trick := s.cad.trick + 1 } }

/-- An edge that is no mark begins the next trick. -/
theorem State.trickStart_within {s : State} (t : Nat) (placed : s.cad.st ≠ .acquiring) (inside : s.cad.len ≠ some (s.cad.trick + 1)) :
    s.trickStart t = s.nextTrick t := by
  simp [State.trickStart, State.nextTrick, State.advanceTo, placed, inside]

/-- Only a device in ACQUIRING becomes READY. -/
theorem State.tryReady_of_placed {s : State} (placed : s.cad.st ≠ .acquiring) : s.tryReady = s := by
  simp [State.tryReady, placed]

/-- A device that deals stands in DEALING or in FLYWHEEL (R47). -/
theorem State.dealing_iff {s : State} : s.dealing = true ↔ s.cad.st = .dealing ∨ s.cad.st = .flywheel := by
  simp [State.dealing]

/-- An accepted edge ends the flywheel run of a device that deals. -/
theorem State.edgeCounted_of_dealing {s : State} (deals : s.dealing = true) :
    s.edgeCounted = { s with cad := { s.cad with st := .dealing, missRun := 0 } } := by
  obtain st | st := State.dealing_iff.mp deals <;> simp [State.edgeCounted, st]

/-- An edge accepted by a device that deals begins the next trick once it is counted. -/
theorem State.acceptEdge_within {s : State} (at' : Nat) (deals : s.dealing = true) (inside : s.cad.len ≠ some (s.cad.trick + 1)) :
    s.acceptEdge at' = s.edgeCounted.nextTrick (s.trickTime at') := by
  have placed : s.edgeCounted.cad.st ≠ .acquiring := State.edgeCounted_placed (State.not_acquiring (.inl deals))
  have unready : s.cad.st ≠ .ready := by
    intro ready
    simp [State.dealing, ready] at deals
  rw [State.acceptEdge_eq, if_neg unready, State.trickStart_within (s.trickTime at') placed inside]
  exact State.tryReady_of_placed placed

/-- A flywheel edge that is no mark begins the next trick at the predicted time, once it is counted. -/
theorem State.flywheel_within {s : State} (inside : s.cad.len ≠ some (s.cad.trick + 1)) : s.flywheel = s.missCounted.nextTrick s.predicted :=
  State.trickStart_within (s := s.missCounted) s.predicted (by simp [State.missCounted]) inside

/-- A BEAT edge further than 4 ns from the prediction is only counted by a device that expects edges (R36). -/
theorem State.beat_stray {s : State} {off : Int} (unplaced : ¬(s.cad.st = .unlocked ∨ s.cad.st = .left)) (period : s.cad.period ≠ 0)
    (far : s.edgeOff off < -4000 ∨ 4000 < s.edgeOff off) :
    s.beat off = { s with now := max s.now (s.edgeTime off), cad := { s.cad with strayCount := s.cad.strayCount + 1 } } := by
  have seen : (((s.predicted : Nat) : Int) + s.edgeOff off).toNat = s.edgeTime off := by
    rw [State.predicted_of_period period]; rfl
  unfold State.beat
  rw [seen]
  split
  case h_1 left => exact absurd (.inr left) unplaced
  case h_2 unlocked => exact absurd (.inl unlocked) unplaced
  case h_3 => exact if_neg (by omega)

/-- In UNLOCKED and LEFT a BEAT edge places the prediction and does nothing else (log entries 42 and 90). -/
theorem State.beat_placing {s : State} (off : Int) (free : s.cad.st = .unlocked ∨ s.cad.st = .left) :
    s.beat off = { s with
      now := max s.now ((s.predicted : Int) + s.edgeOff off).toNat, cad := { s.cad with startPs := ((s.predicted : Int) + s.edgeOff off).toNat } } := by
  obtain st | st := free <;> simp [State.beat, st, State.advanceTo]

/-- FLYWHEEL_EDGE is a flywheel edge of a device that deals, the sixteenth in a row at most (R45). -/
theorem execFlywheelEdge_deals {s : State} (deals : s.dealing = true) (few : s.cad.missRun < 16) : execFlywheelEdge s = .next s.flywheel := by
  simp [execFlywheelEdge, deals, few]

end Sys2Proof.Machine

namespace Sys2Proof.Proofs
open Sys2Proof Sys2Proof.Machine

/-- Settles O2: an edge within 4 ns, or the flywheel's, begins the next trick by the one rule for the start of a trick that is no mark; the others reach no trick. -/
theorem edgesMoveTheTrick : Obligations.EdgesMoveTheTrick := by
  unfold Obligations.EdgesMoveTheTrick
  refine ⟨?accepted, ?stray, ?placing, ?flywheel⟩
  case accepted =>
    intro off s deals period inside early late
    have begun : s.beat off = s.edgeCounted.nextTrick (s.trickTime (s.edgeTime off)) :=
      (State.beat_accepted (.inl deals) period early late).trans (State.acceptEdge_within _ deals inside)
    rw [State.edgeCounted_of_dealing deals] at begun
    exact congrArg Host.Outcome.next begun
  case stray =>
    intro off s expects period far
    refine congrArg Host.Outcome.next (State.beat_stray ?_ period far)
    rintro (st | st) <;> simp [State.dealing, st] at expects
  case placing => exact fun off s free => congrArg Host.Outcome.next (State.beat_placing off free)
  case flywheel =>
    intro s deals period few inside
    rw [← State.predicted_of_period period]
    exact (execFlywheelEdge_deals deals few).trans (congrArg Host.Outcome.next (State.flywheel_within inside))

end Sys2Proof.Proofs
end

section
/-!
Lemmas on what ends a device's place at the table and on the clock's marks inside a deal (R24, R25, R45, R46, R48, R56, R564, R575): departures and their release, the load hint, the drain window's end and the delay line.
-/
namespace Sys2Proof.Machine

/-! ## Departures and missed edges -/

/-- A device that has left the table holds no length, period, join mark or plan, and its load hint is low. -/
theorem State.leaveTable_leaves (s : State) (rank detail : Nat) (next : CadState) :
    (s.leaveTable rank detail next).cad.st = next ∧ (s.leaveTable rank detail next).cad.len = none ∧ (s.leaveTable rank detail next).cad.period = 0
      ∧ (s.leaveTable rank detail next).cad.joinMark = none ∧ (s.leaveTable rank detail next).dealer.running = none
      ∧ (s.leaveTable rank detail next).dealer.selected = none ∧ (s.leaveTable rank detail next).board.loadHint = false := by
  simp [State.leaveTable, State.flushEvents]

/-- A device that deals leaves for LEFT as one that leaves the table, with a misdeal (R46). -/
theorem State.toLeft_of_dealing {s : State} (detail : Nat) (deals : s.dealing = true) : s.toLeft detail = s.leaveTable 1 detail .left := by
  simp [State.toLeft, deals]

/-- The trick that the 17th missed edge in a row would have begun, at its predicted time. -/
def State.lostTrick (s : State) : State := { s.advanceTo s.predicted with cad := { s.cad with trick := s.cad.trick + 1 } }

/-- BEAT_LOSS after sixteen missed edges takes a device that deals from the table, in the trick the 17th would have begun (R45, R46). -/
theorem execBeatLoss_departs {s : State} (deals : s.dealing = true) (missed : s.cad.missRun = 16) : execBeatLoss s = .next (s.lostTrick.leaveTable 1 0x01 .left) := by
  rw [← State.toLeft_of_dealing 0x01 (show s.lostTrick.dealing = true from deals)]
  simp [execBeatLoss, deals, missed, State.lostTrick]

/-- A missed edge begins the count of edges again in ACQUIRING, and moves the prediction on (Table 2.5, log entry 42). -/
theorem execMissedEdge_acquiring {s : State} (st : s.cad.st = .acquiring) :
    execMissedEdge s = .next { s with now := max s.now s.predicted, cad := { s.cad with edgeRun := 0, startPs := s.predicted } } := by
  simp [execMissedEdge, st, State.advanceTo]

/-- A missed edge drops the position of a device in READY, which acquires afresh (Table 2.5). -/
theorem execMissedEdge_ready {s : State} (st : s.cad.st = .ready) :
    execMissedEdge s = .next { (s.advanceTo s.predicted).reacquire .acquiring with
      cad := { ((s.advanceTo s.predicted).reacquire .acquiring).cad with startPs := s.predicted } } := by
  simp [execMissedEdge, st]

/-- LEFT_RELEASE of a device in LEFT with nothing to post and no hold acquires afresh (R48). -/
theorem execLeftRelease_acquires {s : State} (st : s.cad.st = .left) (posted : s.dealer.toPost = []) (thermal : s.cad.holdThermal = false)
    (hub : s.cad.holdHub = false) : execLeftRelease s = .next (s.reacquire .acquiring) := by
  simp [execLeftRelease, st, posted, thermal, hub]

/-! ## The load hint and the delay line -/

/-- LOAD_HINT_RISE in the trick with 8 µs left before the mark of a plan with a form (R564). -/
theorem execLoadHintRise_rises {s : State} {n : Nat} {p : Plan} (left : s.left = some n) (deals : s.dealing = true) (before : 8000 ≤ n * s.cad.period)
    (within : (n - 1) * s.cad.period < 8000) (selected : s.dealer.selected = some p) (form : p.formId.isSome = true) :
    execLoadHintRise s = .next { s with board := { s.board with loadHint := true } } := by
  have busy : p.formId.isNone = false := by simpa using form
  simp [execLoadHintRise, left, deals, before, within, selected, busy]

/-- SEAM_START at T(L−256) lowers the load hint (R24, R564). -/
theorem execSeamStart_falls {s : State} (deals : s.dealing = true) (left : s.left = some 256) :
    execSeamStart s = .next { s with board := { s.board with loadHint := false } } := by
  simp [execSeamStart, State.atLeft, deals, left]

/-- DELAY_LINE_STEP moves the delay line where no trick runs (R575). -/
theorem execDelayLineStep_slews {s : State} (idle : s.cad.st = .unlocked ∨ s.cad.st = .acquiring ∨ s.cad.st = .left) : execDelayLineStep s = .next s.slew := by
  obtain st | st | st := idle <;> simp [execDelayLineStep, st]

/-! ## The end of the drain window -/

/-- What the end of the drain window leaves: the deal clock, the completion words taken, the seats, memory and the accounts. -/
structure Holdings where
  cad : Cad
  completions : Option (List (Nat × Option Nat))
  seats : List (Nat × Seat)
  mem : Memory
  accts : List (Nat × Acct)

def State.holdings (s : State) : Holdings := { cad := s.cad, completions := s.dealer.completions, seats := s.seats, mem := s.mem, accts := s.accts }

/-- The drain window has ended, and `words` stand. -/
def Holdings.drained (h : Holdings) (words : List (Nat × Option Nat)) : Holdings := { h with cad := { h.cad with drained := true }, completions := some words }

theorem State.sendNotice_holdings (s : State) (k d a : Nat) : (s.sendNotice k d a).holdings = s.holdings := by simp [State.holdings]

theorem State.addCauseAt_holdings (s : State) (n rank detail slot die place : Nat) : (s.addCauseAt n rank detail slot die place).holdings = s.holdings := by
  unfold State.addCauseAt
  split
  · rfl
  · exact (State.sendNotice_holdings _ _ _ _ :)

theorem State.overrun_holdings (s : State) (detail slot die place due : Nat) : (s.overrun detail slot die place due).holdings = s.holdings := by
  unfold State.overrun
  split
  · simp [State.holdings]
  · exact (State.addCauseAt_holdings _ _ _ _ _ _ _ :)

theorem State.judgeOwner_holdings (s : State) (p : Plan) (d pa seatCause detail : Nat) : (s.judgeOwner p d pa seatCause detail).2.holdings = s.holdings := by
  unfold State.judgeOwner
  split
  · rfl
  · exact s.sendNotice_holdings _ _ _
  · split
    · exact s.sendNotice_holdings _ _ _
    · exact s.addCauseAt_holdings _ _ _ _ _ _
  · exact s.addCauseAt_holdings _ _ _ _ _ _

theorem State.judgeOwners_holdings {α : Type} (pa : α → Nat) (d seatCause detail : Nat) (l : List α) (acc : Plan × State) :
    (l.foldl (fun (acc : Plan × State) x => acc.2.judgeOwner acc.1 d (pa x) seatCause detail) acc).2.holdings = acc.2.holdings :=
  foldl_keeps (fun acc : Plan × State => acc.2.holdings) (fun acc x => acc.2.judgeOwner_holdings acc.1 d (pa x) seatCause detail) l acc

/-- Judging the poison and the foreign writes of a deal folds, registers causes and tells the group (R257, R259). -/
theorem State.judgeReads_holdings (s : State) (p : Plan) (d : Nat) : (s.judgeReads p d).2.holdings = s.holdings :=
  (State.judgeOwners_holdings ForeignWrite.pa d 0x15 0x41 _ _).trans (State.judgeOwners_holdings PoisonRead.pa d 0x16 0x40 _ _)

/-- Judging the completion words folds seats of the plan and tells the group (Table 3.3). -/
theorem State.judgeWords_holdings (s : State) (p : Plan) : (s.judgeWords p).2.holdings = s.holdings := by
  refine foldl_keeps (fun acc : Plan × State => acc.2.holdings) (fun acc e => ?_) p.entries (p, s)
  split
  · rfl
  split
  · exact acc.2.sendNotice_holdings _ _ _
  split
  · exact acc.2.sendNotice_holdings _ _ _
  · rfl

theorem State.judgeRunning_holdings (s : State) : s.judgeRunning.holdings = s.holdings := by
  unfold State.judgeRunning
  split
  · rfl
  · exact (s.judgeReads_holdings _ _ :)

/-- DRAIN_END at T(L−193) takes the completion words and moves nothing else of what a deal holds (R25, R56). -/
theorem execDrainEnd_holds {s : State} (deals : s.dealing = true) (undrained : s.cad.drained = false) (left : s.left = some 193) :
    ∃ t words, execDrainEnd s = .next t ∧ t.holdings = s.holdings.drained words := by
  have due : (!s.dealing || s.cad.drained || !s.atLeft 193) = false := by simp [deals, undrained, State.atLeft, left]
  unfold execDrainEnd
  rw [due, if_neg Bool.false_ne_true]
  extract_lets u words _ _ v
  have overran : u.holdings = s.holdings := foldl_keeps State.holdings (fun s d => s.overrun_holdings 0x22 0xFFF d (placeDie d) _) _ s
  have drained : v.holdings = s.holdings.drained words := congrArg (Holdings.drained · words) overran
  refine ⟨_, words, rfl, ?_⟩
  split
  next p _ => exact (State.judgeRunning_holdings _).trans ((v.judgeWords_holdings p).trans drained)
  next => exact drained

end Sys2Proof.Machine

namespace Sys2Proof.Proofs
open Sys2Proof Sys2Proof.Machine

/-- Settles O4: each event's outcome is the one update its lemma names; what is met at the end of the drain window is only folded in the plan, registered and told to the group. -/
theorem missedEdgesSeamAndHint : Obligations.MissedEdgesSeamAndHint := by
  unfold Obligations.MissedEdgesSeamAndHint
  refine ⟨⟨?loss, ?acquiring, ?ready, ?release⟩, ?rise, ?seam, ?drain, ?line⟩
  case loss => exact fun s deals missed => ⟨_, execBeatLoss_departs deals missed, State.leaveTable_leaves _ _ _ _⟩
  case acquiring =>
    intro s st period
    rw [← State.predicted_of_period period]
    exact execMissedEdge_acquiring st
  case ready => exact fun s st => ⟨_, execMissedEdge_ready st, rfl, rfl, rfl, rfl, rfl, rfl⟩
  case release => exact fun s st posted thermal hub => ⟨_, execLeftRelease_acquires st posted thermal hub, rfl, rfl, rfl, rfl, rfl, rfl⟩
  case rise => exact fun s n left deals before within ⟨p, selected, form⟩ => execLoadHintRise_rises left deals before within selected form
  case seam => exact fun s deals left => execSeamStart_falls deals left
  case drain =>
    intro s deals undrained left
    obtain ⟨t, words, ends, holds⟩ := execDrainEnd_holds deals undrained left
    exact ⟨t, ends, congrArg (fun h : Holdings => h.cad.drained) holds, congrArg (fun h : Holdings => h.completions.isSome) holds,
      congrArg Holdings.seats holds, congrArg Holdings.mem holds, congrArg Holdings.accts holds⟩
  case line => exact fun s idle => execDelayLineStep_slews idle

end Sys2Proof.Proofs
end

section
/-!
Lemmas on State.reset (R47, R53, R440, chapter 16): what the device holds before its start.
-/
namespace Sys2Proof.Machine

/-- Only READY, DEALING and FLYWHEEL hold a position (R47). -/
theorem State.curDeal_of_unlocked {s : State} (st : s.cad.st = .unlocked) : s.curDeal = 0 := by simp [State.curDeal, st]

/-- Memory that nothing has written is in canonical form. -/
theorem Memory.wf_of_empty {m : Memory} (h : m.bytes = []) : m.wf = true := by simp [Memory.wf, h, cellsAbove]

end Sys2Proof.Machine

namespace Sys2Proof.Proofs
open Sys2Proof Sys2Proof.Machine

/-- Settles O57: the fields are the values `State.reset` is built of, the position follows from UNLOCKED and the canonical form from a memory with nothing listed. -/
theorem resetValues : Obligations.ResetValues := by
  unfold Obligations.ResetValues
  exact ⟨rfl, State.curDeal_of_unlocked rfl, rfl, rfl, rfl, rfl, rfl, rfl, rfl, rfl, rfl, rfl, rfl, rfl, rfl, rfl, rfl, rfl, rfl, rfl, Memory.wf_of_empty rfl⟩

end Sys2Proof.Proofs
end

section
/-!
The state that refutes the statement on loose DMA (R264, R266): distinct queues, listed out of order.
A list of queues with distinct keys need not be rising, and `aset` puts a key in front of the first greater one. A turn of a queue that stands behind a greater one so leaves its old entry in the list; that entry still counts as moving, has a turn of its own each round, and moves nothing in it.
-/
namespace Sys2Proof.Machine

/-- A queue whose descriptor in hand, of no bytes, ends with its next turn. -/
def endingQueue : LdmaQueue := { account := some 0, hand := some ([], none) }

/-- A queue whose next descriptor has three lines, from the host to address 0. -/
def threeLineQueue : LdmaQueue :=
  { account := some 0, tail := 1, ring := [(0, { src := 0, dst := 0, len := 192, srcHost := true, dstHost := false, irq := false, tag := 0, rsvd := false })] }

/-- Run-ready, nothing dealt, address 0 translated to a page that may be written; queue 3 stands behind queue 5. -/
def queuesOutOfOrder : State := {
  start := { up := true, stage := 2, bist := true, hbm := true, vault := true }
  mem := { cached := [{ ctx := 0, va := 0, pa := dieUsable, size := 65536, r := true, w := true, sc := false }] }
  ldma := [(5, {}), (3, endingQueue), (7, threeLineQueue)] }

/-- The budget is five turns, one of queue 3 and four of queue 7, which go in turn from queue 3 on. The entry that queue 3's first turn leaves behind has the third and the fifth, so queue 7 moves two of its three lines, meets no fault and keeps its descriptor in hand. -/
theorem looseDmaDescriptor_starves :
    ∃ t, exec (.looseDmaDescriptor 7 [] none) queuesOutOfOrder = .next t ∧ (t.queue 7).bytesDone = 128 ∧ (t.queue 7).hit = none ∧ (t.queue 7).hand.isSome = true :=
  ⟨_, rfl, by decide⟩

end Sys2Proof.Machine

namespace Sys2Proof.Proofs
open Sys2Proof Sys2Proof.Machine

/-- Refutes O34: where the list of queues has distinct keys but is not rising, turns go to an entry that a queue left behind, and a descriptor taken while nothing is dealt keeps lines to move. -/
theorem not_looseDmaMoves : ¬ Obligations.LooseDmaMoves := by
  unfold Obligations.LooseDmaMoves
  rintro ⟨⟨-, descriptor, -⟩, -⟩
  obtain ⟨-, -, ends⟩ := descriptor 7 0 [] none queuesOutOfOrder rfl rfl rfl (by decide) (by decide) rfl
  obtain ⟨t, taken, idle, -⟩ := ends (by decide) (by decide) (by decide) (by decide)
  obtain ⟨u, taken', -, -, inHand⟩ := looseDmaDescriptor_starves
  obtain rfl : t = u := Host.Outcome.next.inj (taken.symm.trans taken')
  simp [idle] at inHand

end Sys2Proof.Proofs
end

section
/-!
Lemmas on the arrival of a sheet and on the cutoff (R62 to R66, R70, R547, R548, Table 3.10): the status each check gives, what the answer posts, and what an accepted sheet and the cutoff change.
-/
namespace Sys2Proof.Machine

/-! ## The arrival checks, in the order of log entry 21 -/

variable {s : State} {sh : Sheet} {buf : Nat} {b : Bytes}

/-- A sheet for a deal begun, or for the next one past its cutoff, is LATE. -/
theorem State.sheetStatus_late (dated : sh.standing = false) (late : sh.target ≤ s.cad.deal ∨ (sh.target = s.cad.deal + 1 ∧ s.cutoffPassed = true)) :
    s.sheetStatus sh = 0x02 := by
  have past : (!sh.standing && (!s.positionHeld || decide (sh.target ≤ s.cad.deal) || (decide (sh.target = s.cad.deal + 1) && s.cutoffPassed))) = true := by
    obtain begun | ⟨next, passed⟩ := late
    · simp [dated, begun]
    · simp [dated, next, passed]
  exact if_pos past

/-- A sheet for a later deal than the next is not LATE in a device that deals: a position is held, the deal is not begun, nor is it the next. -/
theorem sheet_inTime (deals : s.dealing = true) (ahead : s.cad.deal + 1 < sh.target) :
    s.positionHeld = true ∧ s.cad.deal < sh.target ∧ sh.target ≠ s.cad.deal + 1 :=
  ⟨by simp [State.positionHeld, deals], by omega, by omega⟩

/-- More than eight deals ahead is TOO_EARLY. -/
theorem State.sheetStatus_tooEarly (dated : sh.standing = false) (deals : s.dealing = true) (far : s.cad.deal + 8 < sh.target) : s.sheetStatus sh = 0x03 := by
  have ahead : s.cad.deal + 1 < sh.target := by omega
  simp [State.sheetStatus, sheet_inTime deals ahead, dated, far]

/-- A second sheet for a target, neither of them a cut, is DUPLICATE. -/
theorem State.sheetStatus_duplicate (dated : sh.standing = false) (uncut : sh.cut = false) (deals : s.dealing = true) (ahead : s.cad.deal + 1 < sh.target)
    (near : sh.target ≤ s.cad.deal + 8) (taken : ∃ x ∈ s.dealer.sheets, x.target = sh.target ∧ x.cut = false) : s.sheetStatus sh = 0x04 := by
  have second : s.dealer.sheets.any (fun x => x.target = sh.target && !x.cut) = true := by simpa using taken
  simp [State.sheetStatus, sheet_inTime deals ahead, dated, uncut, Nat.not_lt.mpr near, second]

/-- The form a sheet names is loaded, may be dealt, and takes its fills. -/
structure FormTakes (s : State) (sh : Sheet) : Prop where
  loaded : s.form sh.formId ≠ none
  fits : ∀ f, s.form sh.formId = some f → f.unload = [] ∧ f.revoked = false ∧ s.certified f = true ∧ fillsBad f sh = false ∧ sheetOverfull f sh = false

/-- A sheet for one of the deals two to eight ahead is ACCEPTED if its form takes it and it is a cut or the first of its target. -/
theorem State.sheetStatus_accepted (dated : sh.standing = false) (deals : s.dealing = true) (ahead : s.cad.deal + 1 < sh.target)
    (near : sh.target ≤ s.cad.deal + 8) (free : sh.cut = true ∨ ∀ x ∈ s.dealer.sheets, x.target = sh.target → x.cut = true) (form : FormTakes s sh) :
    s.sheetStatus sh = 0x00 := by
  have first : (!sh.cut && s.dealer.sheets.any (fun x => x.target = sh.target && !x.cut)) = false := by
    obtain cut | only := free
    · simp [cut]
    · simpa using fun _ => only
  obtain ⟨f, loaded⟩ := Option.ne_none_iff_exists'.mp form.loaded
  obtain ⟨kept, valid, certified, fills, room⟩ := form.fits f loaded
  simp [State.sheetStatus, sheet_inTime deals ahead, Nat.not_lt.mpr near, loaded, kept, valid, certified, fills, room, dated, first]

/-! ## The answer and its effect -/

/-- A sheet whose buffer no reset muted gets its answer. -/
theorem State.postArrival_heard (heard : buf ∉ s.host.sheetMute) (status tag target : Nat) :
    s.postArrival buf status tag target = s.sheetAnswered buf status tag target := by
  simp [State.postArrival, State.sheetAnswered, heard]

/-- A malformed sheet is BAD_SHEET, whatever else it says. -/
theorem execSheetArrival_malformed (busy : buf ∈ s.host.sheetBusy) (heard : buf ∉ s.host.sheetMute) (image : aget buf s.host.sheetBuf = some b)
    (malformed : parseSheet b = none) : execSheetArrival buf s = .next (s.sheetAnswered buf 0x07 (sheetHeader b).tag (sheetHeader b).target) := by
  simp [execSheetArrival, busy, image, malformed, State.postArrival_heard heard]

section
variable (busy : buf ∈ s.host.sheetBusy) (heard : buf ∉ s.host.sheetMute) (image : aget buf s.host.sheetBuf = some b) (wellFormed : parseSheet b = some sh)
include busy heard image wellFormed

/-- A LATE sheet is counted. -/
theorem execSheetArrival_late (status : s.sheetStatus sh = 0x02) :
    execSheetArrival buf s = .next (State.sheetAnswered { s with dealer := { s.dealer with latePending := s.dealer.latePending + 1 } } buf 0x02 sh.tag sh.target) := by
  simp [execSheetArrival, busy, heard, image, wellFormed, status, State.postArrival_heard]

/-- Any other rejection posts its status alone. -/
theorem execSheetArrival_rejected {n : Nat} (status : s.sheetStatus sh = n) (notLate : n ≠ 0x02) (rejected : n ≠ 0x00) :
    execSheetArrival buf s = .next (s.sheetAnswered buf n sh.tag sh.target) := by
  simp [execSheetArrival, busy, heard, image, wellFormed, status, notLate, rejected, State.postArrival_heard]

/-- An ACCEPTED sheet is answered and then registered. -/
theorem execSheetArrival_accepted (status : s.sheetStatus sh = 0x00) :
    execSheetArrival buf s = .next ((s.sheetAnswered buf 0x00 sh.tag sh.target).acceptSheet { sh with mute := false }) := by
  simp [execSheetArrival, busy, heard, image, wellFormed, status, State.postArrival_heard]

end

/-- A sheet that is no cut joins the queue. -/
theorem State.acceptSheet_queued (dated : sh.standing = false) (uncut : sh.cut = false) :
    s.acceptSheet sh = { s with dealer := { s.dealer with sheets := s.dealer.sheets ++ [sh] } } := by
  simp [State.acceptSheet, dated, uncut]

/-- A cut takes the place of the one sheet that waits for its deal, which receives CUT_OUT (R70). -/
theorem State.acceptSheet_cuts {x : Sheet} (dated : sh.standing = false) (cut : sh.cut = true)
    (one : s.dealer.sheets.filter (fun y => decide (y.target = sh.target)) = [x]) (heard : x.mute = false) :
    s.acceptSheet sh = State.sheetCpl { s with dealer := { s.dealer with
      sheets := s.dealer.sheets.filter (fun y => decide (y.target ≠ sh.target)) ++ [sh] } } 0x05 x.tag x.target 0 0xFFFF := by
  simp [State.acceptSheet, dated, cut, one, State.sheetDone, heard]

end Sys2Proof.Machine

namespace Sys2Proof.Proofs
open Sys2Proof Sys2Proof.Machine

/-- Settles O7: each status is the first check of Table 3.10 that fails, in the order of log entry 21, and its answer is the one update `sheetAnswered`. -/
theorem sheetArrivalStatus : Obligations.SheetArrivalStatus := by
  unfold Obligations.SheetArrivalStatus
  refine ⟨fun buf b s busy heard image malformed => execSheetArrival_malformed busy heard image malformed, ?_⟩
  intro buf b sh s busy heard image wellFormed dated deals
  refine ⟨?late, ?early, ?duplicate, ?accepted⟩
  case late => exact fun late => execSheetArrival_late busy heard image wellFormed (State.sheetStatus_late dated late)
  case early =>
    intro far
    exact execSheetArrival_rejected busy heard image wellFormed (State.sheetStatus_tooEarly dated deals far) (by decide) (by decide)
  case duplicate =>
    intro ahead near uncut taken
    exact execSheetArrival_rejected busy heard image wellFormed (State.sheetStatus_duplicate dated uncut deals ahead near taken) (by decide) (by decide)
  case accepted =>
    intro ahead near uncut first fits loaded
    have status := State.sheetStatus_accepted dated deals ahead near (.inr first) ⟨loaded, fits⟩
    exact (execSheetArrival_accepted busy heard image wellFormed status).trans (congrArg Host.Outcome.next (State.acceptSheet_queued dated uncut))

end Sys2Proof.Proofs
end

section
/-!
Lemmas on the cutoff (R63, R64, R66): the table it leaves, and the tricks at which it does nothing.
-/
namespace Sys2Proof.Machine

/-- The Dealer once its cutoff has selected `p` for deal `n`: what was due is in force, and no sheet for `n` waits. -/
def Dealer.afterCutoff (d : Dealer) (n : Nat) (p : Plan) : Dealer :=
  { d with
    standing := d.standingNext.or d.standing, standingNext := none, selected := some p
    sheets := d.sheets.filter (·.target ≠ n), lastPlan := if p.formId.isSome then some p else d.lastPlan }

/-- The cutoff selects a plan; of the table it changes what a cutoff is to change, and at most drops the held re-deal (R63, R64, R66). -/
theorem execSheetCutoff_table {s : State} (may : s.mayCut = true) (due : s.cutoffTrick = some s.cad.trick) :
    ∃ t p redeal, execSheetCutoff s = .next t
      ∧ t.table = { s.table with cad := { s.cad with cutDone := true }, dealer := { s.dealer.afterCutoff (s.cad.deal + 1) p with redeal } } := by
  obtain ⟨redeal, selected⟩ := s.atCutoff.selectPlan_table (s.cad.deal + 1)
  refine ⟨_, (s.atCutoff.selectPlan (s.cad.deal + 1)).1, redeal, execSheetCutoff_due may due, (State.sendNotice_table _ _ _ _).trans ?_⟩
  generalize s.atCutoff.selectPlan (s.cad.deal + 1) = r at selected
  exact congrArg (fun v : Table => { v with dealer := { v.dealer with
    selected := some r.1, sheets := v.dealer.sheets.filter (·.target ≠ s.cad.deal + 1)
    lastPlan := if r.1.formId.isSome then some r.1 else v.dealer.lastPlan } }) selected

/-- While a plan runs whose form is loaded, the cutoff trick is the form's (R63). -/
theorem State.cutoffTrick_of_form {s : State} {p : Plan} {f : Form} (running : s.dealer.running = some p) (form : p.form s = some f) :
    s.cutoffTrick = some f.cutoff := by
  simp [State.cutoffTrick, running, form]

/-- SHEET_CUTOFF at another trick, or once more, is no cutoff (log entry 1). -/
theorem execSheetCutoff_idle {s : State} (idle : s.cutoffTrick ≠ some s.cad.trick ∨ s.cad.cutDone = true) : execSheetCutoff s = .next s := by
  have passes : (!s.mayCut || decide (s.cutoffTrick ≠ some s.cad.trick)) = true := by
    obtain other | done := idle
    · simp [other]
    · simp [State.mayCut_of_cutDone done]
  exact congrArg Host.Outcome.next (if_pos passes)

end Sys2Proof.Machine

namespace Sys2Proof.Proofs
open Sys2Proof Sys2Proof.Machine

/-- Settles O8: an accepted cut is answered and then replaces the one sheet of its deal; a cutoff's effect is the one table that `execSheetCutoff_table` names. -/
theorem cutSheetsAndCutoff : Obligations.CutSheetsAndCutoff := by
  unfold Obligations.CutSheetsAndCutoff
  refine ⟨?cut, ?due, fun s idle => execSheetCutoff_idle idle⟩
  case cut =>
    intro buf b sh x s busy heard image wellFormed dated cut deals ahead near fits loaded one unmuted
    have status := State.sheetStatus_accepted dated deals ahead near (.inl cut) ⟨loaded, fits⟩
    exact (execSheetArrival_accepted busy heard image wellFormed status).trans (congrArg Host.Outcome.next (State.acceptSheet_cuts dated cut one unmuted))
  case due =>
    intro s p f deals undone running form trick
    have due : s.cutoffTrick = some s.cad.trick := trick ▸ State.cutoffTrick_of_form running form
    obtain ⟨t, q, redeal, cuts, table⟩ := execSheetCutoff_table (by simp [State.mayCut, deals, undone]) due
    have dealer : t.dealer = { s.dealer.afterCutoff (s.cad.deal + 1) q with redeal } := congrArg Table.dealer table
    refine ⟨t, q, cuts, ?_⟩
    rw [dealer]
    refine ⟨rfl, congrArg Table.cad table, rfl, rfl, fun x kept => ?_, fun x waits other => ?_, congrArg Table.seats table, congrArg Table.forms table, rfl⟩
    · simpa using (List.mem_filter.mp kept).2
    · exact List.mem_filter.mpr ⟨waits, by simpa using other⟩

end Sys2Proof.Proofs
end

section
/-!
Lemmas on the seat commands and ABORT (R54 to R58, R71, R81, Tables 3.4 and 3.5): what each of them answers and changes once it is admitted.
-/
namespace Sys2Proof.Machine

/-! ## What taking the command leaves for its own checks -/

@[simp] theorem State.seat_cmdTaken (s : State) (c : CmdSlot) (i : Nat) : (s.cmdTaken c).seat i = s.seat i := rfl

@[simp] theorem State.recordBad_cmdTaken (s : State) (c : CmdSlot) (t : Seat) : (s.cmdTaken c).recordBad t = s.recordBad t := rfl

@[simp] theorem State.acts_cmdTaken (s : State) (c : CmdSlot) (f a : Nat) : (s.cmdTaken c).acts f a = s.acts f a := rfl

@[simp] theorem State.payload_cmdTaken (s : State) (c : CmdSlot) : ((s.cmdTaken c).fn c.fn).payload = (s.fn c.fn).payload := by simp [State.cmdTaken]

@[simp] theorem State.acct_cmdTaken (s : State) (c : CmdSlot) (a : Nat) : (s.cmdTaken c).acct a = s.acct a := rfl

@[simp] theorem State.holdWhen_cmdTaken (s : State) (c : CmdSlot) (i : Nat) : (s.cmdTaken c).holdWhen i = s.holdWhen i := rfl

@[simp] theorem State.abortDeal_cmdTaken (s : State) (c : CmdSlot) : (s.cmdTaken c).abortDeal = s.abortDeal := rfl

/-- Completing the command just taken after it wrote a seat. -/
theorem complete_setSeat (s : State) (op : Nat) (c : CmdSlot) (status i : Nat) (t : Seat) :
    ((s.cmdTaken c).setSeat i t).complete (ticketOf s op c) status = (s.setSeat i t).cmdDone op c status 0 := complete_after s _ op c status rfl

/-- Completing the command just taken after it wrote the function's own record. -/
theorem complete_payload (s : State) (op : Nat) (c : CmdSlot) (status : Nat) (b : List (Nat × Bytes)) :
    ((s.cmdTaken c).setFn c.fn { (s.cmdTaken c).fn c.fn with payload := b }).complete (ticketOf s op c) status
      = (s.setFn c.fn { s.fn c.fn with payload := b }).cmdDone op c status 0 := by
  simp [State.complete, State.completeWith, State.owed, State.postCpl, State.cmdDone, State.cmdTaken, ticketOf, cplOf]

variable {s : State} {c : CmdSlot}

/-! ## When a HOLD takes effect (R58) -/

/-- A seat that no plan names is held at once. -/
theorem State.holdWhen_of_free {i : Nat} (running : planNames s.dealer.running i = false) (selected : planNames s.dealer.selected i = false)
    (redeal : planNames s.dealer.redeal i = false) : s.holdWhen i = none := by
  simp [State.holdWhen, running, selected, redeal]

/-- A seat that the deal in progress deals, before its decision boundary, is held at its decision. -/
theorem State.holdWhen_of_dealt {i : Nat} (deals : s.dealing = true) (running : planNames s.dealer.running i = true) (undecided : s.causeDeal = s.cad.deal) :
    s.holdWhen i = some (some s.cad.deal) := by
  simp [State.holdWhen, deals, running, undecided]

/-- A device in no group sends no notice. -/
theorem State.sendNotice_alone (alone : s.group.binding = none) (kind deal arg : Nat) : s.sendNotice kind deal arg = s := by
  simp [State.sendNotice, alone]

theorem bit_zero : bit 0 0 = false := rfl
theorem bit_one : bit 1 0 = true := rfl
theorem argHigh_zero : argHigh 0#64 1 = false := rfl
theorem argHigh_one : argHigh 1#64 1 = false := rfl

/-! ## SEAT -/

section
variable (admitted : Admitted s c false (some (parseSeat c.payload).account)) (seat : argHigh c.arg0 17 = false) (arg1 : c.arg1 = 0) (arg2 : c.arg2 = 0)
include admitted seat arg1 arg2

/-- An EMPTY seat takes the record (Table 3.4). -/
theorem execSeat_seats (empty : (s.seat c.arg0.toNat).state = 0) (good : s.recordBad (parseSeat c.payload) = false) :
    execSeat c s = .next ((s.setSeat c.arg0.toNat (seated (parseSeat c.payload))).cmdDone 0x01 c 0 0) := by
  simp [execSeat, hostCommand_admitted _ _ _ _ _ _ admitted, seat, arg1, arg2, empty, good, complete_setSeat]

/-- A seat in any other state stays: BAD_STATE. -/
theorem execSeat_badState (taken : (s.seat c.arg0.toNat).state ≠ 0) : execSeat c s = .next (s.cmdDone 0x01 c 1 0) := by
  simp [execSeat, hostCommand_admitted _ _ _ _ _ _ admitted, seat, arg1, arg2, taken, complete_taken]

/-- A bad record leaves the seat EMPTY: BAD_RECORD. -/
theorem execSeat_badRecord (empty : (s.seat c.arg0.toNat).state = 0) (bad : s.recordBad (parseSeat c.payload) = true) :
    execSeat c s = .next (s.cmdDone 0x01 c 2 0) := by
  simp [execSeat, hostCommand_admitted _ _ _ _ _ _ admitted, seat, arg1, arg2, empty, bad, complete_taken]

end

/-! ## CLEAR, HOLD, RELEASE, READ_SEAT -/

section
variable (admitted : Admitted s c false (some (s.seat c.arg0.toNat).account)) (seat : argHigh c.arg0 17 = false) (arg2 : c.arg2 = 0)
include admitted seat arg2

/-- A HELD or DONE seat is EMPTY after CLEAR, its record zero. -/
theorem execClear_clears (arg1 : c.arg1 = 0) (ends : (s.seat c.arg0.toNat).state = 3 ∨ (s.seat c.arg0.toNat).state = 4) :
    execClear c s = .next ((s.setSeat c.arg0.toNat {}).cmdDone 0x04 c 0 0) := by
  obtain held | done := ends
  · simp [execClear, hostCommand_admitted _ _ _ _ _ _ admitted, seat, arg1, arg2, held, complete_setSeat]
  · simp [execClear, hostCommand_admitted _ _ _ _ _ _ admitted, seat, arg1, arg2, done, complete_setSeat]

theorem execClear_badState (arg1 : c.arg1 = 0) (notHeld : (s.seat c.arg0.toNat).state ≠ 3) (notDone : (s.seat c.arg0.toNat).state ≠ 4) :
    execClear c s = .next (s.cmdDone 0x04 c 1 0) := by
  simp [execClear, hostCommand_admitted _ _ _ _ _ _ admitted, seat, arg1, arg2, notHeld, notDone, complete_taken]

/-- HOLD of a seat that no plan names takes effect at once. -/
theorem execHold_holds (arg1 : c.arg1 = 0) (seated : (s.seat c.arg0.toNat).state = 1 ∨ (s.seat c.arg0.toNat).state = 2) (now : s.holdWhen c.arg0.toNat = none) :
    execHold c s = .next ((s.holdSeat c.arg0.toNat 0x18).cmdDone 0x02 c 0 0) := by
  have admits : ¬((s.seat c.arg0.toNat).state ≠ 1 ∧ (s.seat c.arg0.toNat).state ≠ 2) := by omega
  simp [execHold, hostCommand_admitted _ _ _ _ _ _ admitted, seat, arg1, arg2, admits, now, State.holdSeat, complete_setSeat]

/-- Outside groups a HOLD that has to wait for the decision of a deal waits, and does no more. -/
theorem execHold_waits {d : Nat} (arg1 : c.arg1 = 0) (seated : (s.seat c.arg0.toNat).state = 1 ∨ (s.seat c.arg0.toNat).state = 2)
    (later : s.holdWhen c.arg0.toNat = some (some d)) (alone : s.group.binding = none) :
    execHold c s = .next ((s.cmdTaken c).withHold { seat := c.arg0.toNat, deal := some d, ticket := ticketOf s 0x02 c }) := by
  have admits : ¬((s.seat c.arg0.toNat).state ≠ 1 ∧ (s.seat c.arg0.toNat).state ≠ 2) := by omega
  simp [execHold, hostCommand_admitted _ _ _ _ _ _ admitted, seat, arg1, arg2, admits, later, State.withHold, State.sendNotice_alone (s := s.cmdTaken c) alone]

theorem execHold_badState (arg1 : c.arg1 = 0) (notSeated : (s.seat c.arg0.toNat).state ≠ 1) (notDealt : (s.seat c.arg0.toNat).state ≠ 2) :
    execHold c s = .next (s.cmdDone 0x02 c 1 0) := by
  simp [execHold, hostCommand_admitted _ _ _ _ _ _ admitted, seat, arg1, arg2, notSeated, notDealt, complete_taken]

/-- RELEASE makes a HELD seat SEATED, its progress kept. -/
theorem execRelease_releases (arg1 : c.arg1 = 0) (held : (s.seat c.arg0.toNat).state = 3) (good : s.recordBad (s.seat c.arg0.toNat) = false) :
    execRelease c s = .next ((s.setSeat c.arg0.toNat { s.seat c.arg0.toNat with state := 1, heldCause := 0 }).cmdDone 0x03 c 0 0) := by
  have mine := admitted.mine _ rfl
  simp [execRelease, hostCommand_admitted _ _ _ _ _ _ admitted, seat, arg1, arg2, held, mine, complete_setSeat, bit_zero, argHigh_zero, State.recordBad] at good ⊢
  simp [good]

theorem execRelease_badState (arg1 : c.arg1 = 0) (notHeld : (s.seat c.arg0.toNat).state ≠ 3) : execRelease c s = .next (s.cmdDone 0x03 c 1 0) := by
  have mine := admitted.mine _ rfl
  simp [execRelease, hostCommand_admitted _ _ _ _ _ _ admitted, seat, arg1, arg2, notHeld, mine, complete_taken, bit_zero, argHigh_zero]

/-- With REWRITE the payload's host fields take the place of the record's (R54). -/
theorem execRelease_rewrites (arg1 : c.arg1 = 1) (held : (s.seat c.arg0.toNat).state = 3) (mine : s.acts c.fn (parseSeat c.payload).account = true)
    (good : s.recordBad (parseSeat c.payload) = false) (clean : (s.seat c.arg0.toNat).rsvd = false) :
    execRelease c s = .next ((s.setSeat c.arg0.toNat { hostFields (s.seat c.arg0.toNat) (parseSeat c.payload) with state := 1, heldCause := 0 }).cmdDone 0x03 c 0 0) := by
  simp [execRelease, hostCommand_admitted _ _ _ _ _ _ admitted, seat, arg1, arg2, held, mine, complete_setSeat, bit_one, argHigh_one, State.recordBad, hostFields] at good ⊢
  simp [good, clean]

/-- READ_SEAT copies the record to the slot's payload. -/
theorem execReadSeat_copies (arg1 : c.arg1 = 0) :
    execReadSeat c s = .next ((s.setFn c.fn { s.fn c.fn with payload := aset c.slot (seatBytes (s.seat c.arg0.toNat)) (s.fn c.fn).payload }).cmdDone 0x05 c 0 0) := by
  simp [execReadSeat, hostCommand_admitted _ _ _ _ _ _ admitted, seat, arg1, arg2, complete_payload]

end

/-! ## ABORT -/

/-- The cause of an ABORT: rank 9, of no slot and no place (Table 1.3). -/
def abortCause (deal : Nat) : Cause := { deal, rank := 9, detail := 0, member := 0, remote := false, slot := 0xFFF, die := 0, place := 0, repair := false }

/-- Outside groups a deal in progress gains one cause, and nothing else changes. -/
theorem State.addCause_hostAbort (deals : s.dealing = true) (undecided : s.causeDeal = s.cad.deal) (alone : s.group.binding = none) :
    s.addCause 9 0 0xFFF 0 0 = { s with dealer := { s.dealer with causes := s.dealer.causes ++ [abortCause s.cad.deal] } } := by
  have member : s.member = 0 := by simp [State.member, alone]
  simp [State.addCause, State.addCauseAt, State.sendNotice, deals, undecided, alone, member, abortCause, repairRank]

section
variable (admitted : Admitted s c true none) (arg0 : c.arg0 = 0) (arg1 : c.arg1 = 0) (arg2 : c.arg2 = 0)
include admitted arg0 arg1 arg2

/-- ABORT of a deal in progress that is not idle gives it the cause host abort (R71). -/
theorem execAbort_aborts {p : Plan} (deals : s.dealing = true) (undecided : s.causeDeal = s.cad.deal) (running : s.dealer.running = some p)
    (busy : p.formId ≠ none) (alone : s.group.binding = none) :
    execAbort c s = .next (State.cmdDone { s with dealer := { s.dealer with causes := s.dealer.causes ++ [abortCause s.cad.deal] } } 0x30 c 0 0) := by
  have aborts : s.abortDeal = true := by simp [State.abortDeal, deals, undecided, running, Option.isSome_iff_ne_none, busy]
  have caused := State.addCause_hostAbort (s := s.cmdTaken c) deals undecided alone
  simp only [execAbort, hostCommand_admitted _ _ _ _ _ _ admitted, arg0, arg1, arg2, State.abortDeal_cmdTaken, aborts, caused]
  exact congrArg Host.Outcome.next (complete_after s _ 0x30 c 0 rfl)

/-- A device that does not deal answers NO_DEAL. -/
theorem execAbort_noDeal (idle : s.dealing = false) : execAbort c s = .next (s.cmdDone 0x30 c 0x11 0) := by
  have noDeal : s.abortDeal = false := by simp [State.abortDeal, idle]
  simp [execAbort, hostCommand_admitted _ _ _ _ _ _ admitted, arg0, arg1, arg2, noDeal, complete_taken]

end

end Sys2Proof.Machine

namespace Sys2Proof.Proofs
open Sys2Proof Sys2Proof.Machine

/-- Settles O9: each command, once admitted, has the one outcome that its lemma names. -/
theorem seatCommands : Obligations.SeatCommands := by
  unfold Obligations.SeatCommands
  refine ⟨⟨?seat, ?clear⟩, ⟨?hold, ?release, ?rewrite⟩, ?read, ?abort⟩
  case seat =>
    intro c s admitted seat arg1 arg2
    exact ⟨execSeat_seats admitted seat arg1 arg2, execSeat_badState admitted seat arg1 arg2, execSeat_badRecord admitted seat arg1 arg2⟩
  case clear =>
    intro c s admitted seat arg1 arg2
    exact ⟨execClear_clears admitted seat arg2 arg1, execClear_badState admitted seat arg2 arg1⟩
  case hold =>
    intro c s admitted seat arg1 arg2
    refine ⟨fun seated running selected redeal => ?_, fun seated deals running undecided alone => ?_, execHold_badState admitted seat arg2 arg1⟩
    · exact execHold_holds admitted seat arg2 arg1 seated (State.holdWhen_of_free running selected redeal)
    · exact execHold_waits admitted seat arg2 arg1 seated (State.holdWhen_of_dealt deals running undecided) alone
  case release =>
    intro c s admitted seat arg1 arg2
    exact ⟨execRelease_releases admitted seat arg2 arg1, execRelease_badState admitted seat arg2 arg1⟩
  case rewrite => exact fun c s admitted seat arg1 arg2 held mine good clean => execRelease_rewrites admitted seat arg2 arg1 held mine good clean
  case read => exact fun c s admitted seat arg1 arg2 => execReadSeat_copies admitted seat arg2 arg1
  case abort =>
    intro c s p admitted arg0 arg1 arg2
    exact ⟨execAbort_aborts admitted arg0 arg1 arg2, execAbort_noDeal admitted arg0 arg1 arg2⟩

end Sys2Proof.Proofs
end

section
/-!
Lemmas on an access to the object dictionary (R428, R433, R435): a write that is a whole value, a write the gate turns away, and a read of an entry of fixed type.
-/
namespace Sys2Proof.Machine

variable {s t : State} {p : Path} {i j n : Nat} {b : Bytes} {e : OdEntry}

/-- A whole value that the gate lets in, that fits its entry and that the entry's effect accepts is answered OK. -/
theorem State.written_ok (opened : s.gate p i j true = 0) (entry : odEntry i j = some e)
    (fits : if typeWidth e.type = 0 then b.length ≤ e.max else b.length = typeWidth e.type)
    (effect : s.dictWrite (s.securedPath p) true i j b = wOk t) : s.written p i j b = .next t.wroteOk := by
  rw [State.written, State.wholeWrite_fits s p i j b true e opened entry fits, effect]
  rfl

/-- The entries whose write calls for a check with an outcome of its own (R488, R530). -/
abbrev asksCheck (i j : Nat) : Prop := (i = 0x1400 ∧ j = 0x03) ∨ (i = 0x1500 ∧ j = 0x19)

/-- A write of a whole value to an entry of fixed type is that entry's one write, by whichever command it comes. -/
theorem State.access_write (plain : ¬ asksCheck i j) (fixed : ∀ e, odEntry i j = some e → typeWidth e.type ≠ 0) (length : b.length = n) (unit : n ≤ segUnit p) :
    s.access { path := p, index := i, sub := j, write := true, offset := 0, len := n, data := b }
      = ({ status := (s.wholeWrite p i j b true).1, detail := (s.wholeWrite p i j b true).2.1, data := [] }, (s.wholeWrite p i j b true).2.2) := by
  subst length
  have whole : s.odWrite { path := p, index := i, sub := j, write := true, offset := 0, len := b.length, data := b } true = s.wholeWrite p i j b true := by
    by_cases opened : s.gate p i j true = 0
    · cases entry : odEntry i j with
      | none => simp [State.odWrite, State.wholeWrite, opened, entry, Nat.not_lt.mpr unit]
      | some e => simp [State.odWrite, State.wholeWrite, opened, entry, Nat.not_lt.mpr unit, fixed e entry]
    · rw [State.wholeWrite_gate _ _ _ _ _ _ opened]
      simp [State.odWrite, opened, Nat.not_lt.mpr unit]
  unfold asksCheck at plain
  simp [State.access, plain, whole]

/-- The same, with the answer kept: the write of DICTIONARY_WRITE is that of the entry's own command. -/
theorem execDictionaryWrite_written (plain : ¬ asksCheck i j) (fixed : ∀ e, odEntry i j = some e → typeWidth e.type ≠ 0) (length : b.length = n)
    (unit : n ≤ segUnit p) :
    execDictionaryWrite { path := p, index := i, sub := j, write := true, offset := 0, len := n, data := b } s = s.written p i j b := by
  simp only [execDictionaryWrite, State.accessed, State.access_write plain fixed length unit]
  rfl

/-- A write of fitting length that the gate turns away answers the gate's status. -/
theorem State.odWrite_gate (a : Access) (ok : Bool) (unit : a.len ≤ segUnit a.path) (shut : s.gate a.path a.index a.sub true ≠ 0) :
    s.odWrite a ok = (s.gate a.path a.index a.sub true, 0, s) := by
  unfold State.odWrite
  rw [if_neg (Nat.not_lt.mpr unit)]
  split
  next opened _ => exact absurd opened shut
  next => rfl

/-- A write that the gate turns away is answered with the gate's status, or BAD_CALL where it is longer than the path's segments, and changes nothing but the counter of free values (log entry 15). -/
theorem execDictionaryWrite_refused (shut : s.gate p i j true ≠ 0) :
    execDictionaryWrite { path := p, index := i, sub := j, write := true, offset := 0, len := b.length, data := b } s
      = .next (State.wroteNot (if segUnit p < b.length then 6 else s.gate p i j true)
          (if asksCheck i j then { s with fresh := s.fresh + 1 } else s)) := by
  have turned (u : State) (ok : Bool) (same : u.gate p i j true = s.gate p i j true) :
      u.odWrite { path := p, index := i, sub := j, write := true, offset := 0, len := b.length, data := b } ok = (if segUnit p < b.length then 6 else s.gate p i j true, 0, u) := by
    by_cases long : segUnit p < b.length
    · simp [State.odWrite, long]
    · rw [if_neg long, ← same]
      exact State.odWrite_gate _ _ (Nat.not_lt.mp long) (same ▸ shut)
  by_cases asks : asksCheck i j
  · simp [execDictionaryWrite, State.accessed, State.access, asks, State.takeFree, turned { s with fresh := s.fresh + 1 } _ rfl, State.wroteNot]
  · simp [execDictionaryWrite, State.accessed, State.access, asks, turned s _ rfl, State.wroteNot]

/-- A read of an entry of fixed type answers its value and takes no snapshot (R428). -/
theorem State.access_read (opened : s.gate p i j false = 0) (entry : odEntry i j = some e) (fixed : typeWidth e.type ≠ 0) (room : typeWidth e.type ≤ n)
    (unit : n ≤ segUnit p) :
    s.access { path := p, index := i, sub := j, write := false, offset := 0, len := n, data := b } = ({ status := 1, detail := 0, data := s.odValue e i j }, s) := by
  simp [State.access, State.odRead, opened, entry, fixed, Nat.not_lt.mpr room, Nat.not_lt.mpr unit]

/-- No segment is shorter than 32 bytes (R436). -/
theorem le_segUnit (p : Path) (few : n ≤ 32) : n ≤ segUnit p := by
  unfold segUnit
  split <;> omega

end Sys2Proof.Machine
end

section
/-!
Lemmas on the dictionary's entries that keep configuration (R84, R85, R262, R317, R444 to R446, R465, R467): their row in the tables of the dictionary, the effect that a whole value reaches, and what that effect is.
-/
namespace Sys2Proof.Machine

/-! ## Rows of the dictionary, and where their values go -/

theorem odEntry_pool {e b : Nat} (engine : e < 4) (entry : b < 64) : odEntry (0x2401 + e) (b + 1) = some { type := 9, acc := .rw, max := 16, mask := .pf0Bmc } := by
  have sub : b + 1 ≤ 0x40 := by omega
  have low : ¬ 0x3000 ≤ 0x2401 + e := by omega
  have index : 0x2401 + e ≤ 0x2404 := by omega
  simp [odEntry, sub, low, index]

theorem odEntry_window {w : Nat} (window : w < 128) : odEntry 0x2101 (w + 1) = some { type := 9, acc := .rw, max := 32, mask := .pf0Bmc } := by
  have sub : w + 1 ≤ 0x80 := by omega
  simp [odEntry, sub]

theorem odEntry_counterClear {a : Nat} (account : a < 4096) : odEntry (0x3000 + a) 0x09 = some { type := 2, acc := .wo, mask := .pf0Bmc } := by
  have index : 0x3000 + a ≤ 0x3FFF := by omega
  simp [odEntry, index, odAcct, odWo]

theorem State.dictWrite_pool (s : State) (secured ok : Bool) {e : Nat} (b : Nat) (v : Bytes) (engine : e < 4) :
    s.dictWrite secured ok (0x2401 + e) (b + 1) v = s.poolWrite e b v := by
  match e, engine with
  | 0, _ => rfl
  | 1, _ => rfl
  | 2, _ => rfl
  | 3, _ => rfl

theorem State.dictWrite_window (s : State) (secured ok : Bool) (w : Nat) (v : Bytes) : s.dictWrite secured ok 0x2101 (w + 1) v = s.windowWrite w v := rfl

theorem State.dictWrite_counterClear (s : State) (secured ok : Bool) {a : Nat} (v : Bytes) (account : a < 4096) :
    s.dictWrite secured ok (0x3000 + a) 0x09 v = s.clearAccount a (leAll v) := by
  have index : 0x3000 + a ≤ 0x3FFF := by omega
  have notTable : 0x3000 + a ≠ 0x2600 := by omega
  have notWindow : 0x3000 + a ≠ 0x2101 := by omega
  have notPool : ¬ 0x3000 + a ≤ 0x2404 := by omega
  simp [State.dictWrite, isPolicy, isTableSlot, fixedBelow, index, notTable, notWindow, notPool]

theorem State.dictWrite_stretchStep (s : State) (secured ok : Bool) (v : Bytes) : s.dictWrite secured ok 0x1300 0x23 v = s.settingWrite 0x1300 0x23 (leAll v) := rfl

/-! ## The effects of legal values -/

variable {s : State}

/-- A legal pool entry that no open session holds in range takes VA, BYTES and MARK (R317, log entry 36). -/
theorem State.poolWrite_ok {e b : Nat} {v : Bytes} (length : v.length = 16) (narrow : le v 0 8 < 2 ^ 48) (aligned : le v 0 8 % 64 = 0) (clean : nonzero v 0xE 2 = false)
    (mark : byteAt v 0xC ≤ 2) (free : ∀ x ∈ s.video.sessions, x.1 / 64 = e → x.2.state ≠ 0 → (poolRange x.2.desc).contains b = false) :
    s.poolWrite e b v = wOk (s.setEngine e { s.engine e with
      pool := aset b { (s.engine e).entry b with va := le v 0 8, bytes := le v 8 4, mark := byteAt v 0xC } (s.engine e).pool }) := by
  have clear : ¬(v.length = 16 && (le v 0 8 / 2 ^ 48 ≠ 0 || nonzero v 0xE 2)) = true := by
    simp [clean, show le v 0 8 < 281474976710656 from narrow]
  have ranged : ¬(v.length ≠ 16 || le v 0 8 % 64 ≠ 0 || 2 < byteAt v 0xC) = true := by simp [length, aligned, mark]
  have unheld : ¬s.video.sessions.any (fun x => x.1 / 64 = e && x.2.state ≠ 0 && (poolRange x.2.desc).contains b) = true := by
    rw [List.any_eq_true]
    rintro ⟨x, listed, held⟩
    simp only [Bool.and_eq_true, decide_eq_true_eq] at held
    obtain ⟨⟨engine, opened⟩, inRange⟩ := held
    exact Bool.false_ne_true ((free x listed engine opened).symm.trans inRange)
  rw [State.poolWrite, if_neg clear, if_neg ranged, if_neg unheld]

/-- The value of a window entry is legal: its reserved fields are zero, an enabled window is in range, and it overlaps no other enabled one. -/
structure WindowLegal (s : State) (w : Nat) (v : Bytes) : Prop where
  length : v.length = 32
  clean : windowRsvd v = false
  range : (parseWindow v).enable = true → windowInRange (parseWindow v) = true
  apart : ∀ x ∈ s.mem.windows, x.1 ≠ w → x.2.enable = true →
    overlaps x.2.devBase.toNat (windowSpan x.2) (parseWindow v).devBase.toNat (windowSpan (parseWindow v)) = false

/-- Every check of a legal window's value passes: what is left is whether its old window is pinned (R262). -/
theorem State.windowWrite_legal {w : Nat} {v : Bytes} (legal : WindowLegal s w v) :
    s.windowWrite w v =
      (let new := parseWindow v
       let old := s.pcieWindow w
       if s.windowPinned old && (!new.enable || new.devBase ≠ old.devBase || new.sizeLog ≠ old.sizeLog || new.hostBase ≠ old.hostBase) then
         wOk { s with mem := { s.mem with windowPending := aset w new s.mem.windowPending } }
       else wOk { s with mem := { s.mem with windows := aset w new s.mem.windows, windowPending := adel w s.mem.windowPending } }) := by
  have ranged : ((parseWindow v).enable && !windowInRange (parseWindow v)) = false := by
    cases enabled : (parseWindow v).enable with
    | false => rfl
    | true => simp [legal.range enabled]
  have alone : ((parseWindow v).enable && s.mem.windows.any (fun x => x.1 ≠ w && x.2.enable &&
      overlaps x.2.devBase.toNat (windowSpan x.2) (parseWindow v).devBase.toNat (windowSpan (parseWindow v)))) = false := by
    rw [Bool.and_eq_false_iff]
    exact .inr (by simpa using fun i x listed other enabled => legal.apart (i, x) listed other enabled)
  simp only [State.windowWrite, legal.length, legal.clean, ranged, alone]
  simp

/-- The clear of an account's counters waits for its account (R84). -/
theorem execAccountCounterClear_clears {p : Path} {a : Nat} (opened : s.gate p (0x3000 + a) 0x09 true = 0) (account : a < 4096) :
    execAccountCounterClear p a 1 s = .next (State.wroteOk (s.setAcct a { s.acct a with clearPending := true })) :=
  State.written_ok opened (odEntry_counterClear account) rfl (State.dictWrite_counterClear s _ _ _ account)

/-- The clear of the house counters waits (R85). -/
theorem execHouseCounterClear_clears {p : Path} (opened : s.gate p 0x2200 0x17 true = 0) :
    execHouseCounterClear p 1 s = .next (State.wroteOk { s with dealer := { s.dealer with houseClear := true } }) :=
  State.written_ok opened rfl rfl rfl

/-- LOG CLEAR empties the ring of the log (R467). -/
theorem execLogClear_clears {p : Path} (opened : s.gate p 0x4000 0x05 true = 0) :
    execLogClear p 1 s = .next (State.wroteOk { s with log := { s.log with ring := [] } }) :=
  State.written_ok opened rfl rfl rfl

/-- What a list of numbered values that leaves out the zeros answers. -/
theorem aget_nonzero (f : Nat → Nat) (l : List Nat) (a : Nat) :
    (aget a ((l.map (fun a => (a, f a))).filter (fun x => decide (x.2 ≠ 0)))).getD 0 = if a ∈ l then f a else 0 := by
  induction l with
  | nil => rfl
  | cons b l ih =>
    by_cases zero : f b = 0
    · by_cases same : b = a
      · subst same; simpa [zero] using ih
      · simpa [zero, Ne.symm same] using ih
    · by_cases same : b = a
      · subst same; simp [zero, aget]
      · simpa [zero, aget, same, Ne.symm same] using ih

/-- The binding of each account to the function of its byte. -/
def bindingOf (v : Bytes) : List (Nat × Nat) := ((List.range 4096).map (fun a => (a, byteAt v a))).filter (fun x => x.2 ≠ 0)

/-- The accounts bound as `l` says. -/
def State.withBinding (s : State) (l : List (Nat × Nat)) : State := { s with host := { s.host with binding := l } }

/-- Written and answered, a binding is all that changed. -/
theorem State.withBinding_frame (s : State) (l : List (Nat × Nat)) :
    (s.withBinding l).wroteOk = State.wroteOk { s with host := { s.host with binding := (s.withBinding l).wroteOk.host.binding } } := rfl

theorem State.withBinding_keeps (s : State) (l : List (Nat × Nat)) :
    (s.withBinding l).wroteOk.dealer = s.dealer ∧ (s.withBinding l).wroteOk.dict.answer = some { status := 1, detail := 0, data := [] }
      ∧ (s.withBinding l).wroteOk.seats = s.seats ∧ (s.withBinding l).wroteOk.mem = s.mem ∧ (s.withBinding l).wroteOk.cad = s.cad
      ∧ (s.withBinding l).wroteOk.nv = s.nv ∧ (s.withBinding l).wroteOk.sec = s.sec := ⟨rfl, rfl, rfl, rfl, rfl, rfl, rfl⟩

theorem State.boundFn_withBinding (s : State) (l : List (Nat × Nat)) (a : Nat) : (s.withBinding l).wroteOk.boundFn a = (aget a l).getD 0 := rfl

/-- The binding names each account's function (R465). -/
theorem State.boundFn_bindingOf (s : State) (v : Bytes) {a : Nat} (account : a < 4096) : (s.withBinding (bindingOf v)).wroteOk.boundFn a = byteAt v a := by
  rw [State.boundFn_withBinding, bindingOf, aget_nonzero, if_pos (List.mem_range.mpr account)]

theorem State.bindAccounts_ok {v : Bytes} (length : v.length = 4096) (fns : ∀ x ∈ v, x.toNat < 64) : s.bindAccounts v = wOk (s.withBinding (bindingOf v)) := by
  have legal : v.any (fun x => 64 ≤ x.toNat) = false := by simpa using fns
  simp [State.bindAccounts, legal, length, State.withBinding, bindingOf]

/-- ACCOUNT_BINDING of a legal value (R465). -/
theorem execAccountBinding_binds {p : Path} {v : Bytes} (opened : s.gate p 0x2201 0x01 true = 0) (length : v.length = 4096) (fns : ∀ x ∈ v, x.toNat < 64) :
    execAccountBinding p v s = .next (s.withBinding (bindingOf v)).wroteOk :=
  State.written_ok opened rfl (Nat.le_of_eq length) (State.bindAccounts_ok length fns)

/-! ## STORE and RESTORE (R444 to R446) -/

/-- Placing a record among others loses none. -/
theorem mem_insertRec {r x : UserRec} {l : List UserRec} : x ∈ insertRec r l ↔ x = r ∨ x ∈ l := by
  induction l with
  | nil => simp [insertRec]
  | cons y l ih =>
    unfold insertRec
    split
    · simp
    · simp [ih]; tauto

theorem mem_foldl_insertRec {x : UserRec} (l : List UserRec) : ∀ m : List UserRec, x ∈ l.foldl (fun m r => insertRec r m) m ↔ x ∈ l ∨ x ∈ m := by
  induction l with
  | nil => simp
  | cons r l ih =>
    intro m
    rw [List.foldl_cons, ih, mem_insertRec, List.mem_cons]
    tauto

/-- What a store begun now writes: the live records and the carried ones, under the next SEQ (R444). -/
def State.nextCopy (s : State) : UserCopy :=
  { seq := s.dict.seqInForce + 1, brim := s.brimVersion, recs := s.dict.carried.foldl (fun l r => insertRec r l) s.liveRecs }

theorem State.storeWrite_starts (idle : s.dict.storing = none) (room : s.dict.seqInForce ≠ 0xFFFFFFFF) : s.storeWrite 0x53544F52 = wOk (s.startStore s.nextCopy) := by
  simp [State.storeWrite, idle, room, State.nextCopy]

theorem State.restoreWrite_starts (idle : s.dict.storing = none) : s.restoreWrite 0x4C4F4144 = wOk (s.startStore { seq := 1, brim := s.brimVersion, recs := [] }) := by
  simp [State.restoreWrite, idle]

/-- STORE begins a store of what the device holds (R444). -/
theorem execStoreLayer_starts {p : Path} (opened : s.gate p 0x1500 0x01 true = 0) (idle : s.dict.storing = none) (room : s.dict.seqInForce ≠ 0xFFFFFFFF) :
    execStoreLayer p 0x53544F52#32 s = .next (s.startStore s.nextCopy).wroteOk :=
  State.written_ok opened rfl rfl (State.storeWrite_starts idle room)

/-- RESTORE begins a store of nothing (R446). -/
theorem execRestoreLayer_starts {p : Path} (opened : s.gate p 0x1500 0x03 true = 0) (idle : s.dict.storing = none) :
    execRestoreLayer p 0x4C4F4144#32 s = .next (s.startStore { seq := 1, brim := s.brimVersion, recs := [] }).wroteOk :=
  State.written_ok opened rfl rfl (State.restoreWrite_starts idle)

end Sys2Proof.Machine
end

section
/-!
Lemmas on the end of a store (R444, R445, Table 15.7): the two copies it leaves, and what follows from them.
-/
namespace Sys2Proof.Machine

/-- What the end of a store is told by: the two user copies, the stores made, the dictionary's state, the seats and memory. -/
structure Stored where
  userA : Option UserCopy
  userB : Option UserCopy
  stores : Word32
  dict : Dict
  seats : List (Nat × Seat)
  mem : Memory

def State.stored (s : State) : Stored := { userA := s.nv.userA, userB := s.nv.userB, stores := s.nv.stores, dict := s.dict, seats := s.seats, mem := s.mem }

theorem State.writeBoot_stored (s : State) (b : Boot) : (s.writeBoot b).stored = s.stored := rfl

/-- The ring address that follows the copy in force is kept in the boot record alone (R416). -/
theorem State.syncRingAddr_stored (s : State) : s.syncRingAddr.stored = s.stored := by
  unfold State.syncRingAddr
  split
  · rfl
  dsimp only
  split
  · split
    · rfl
    · exact s.writeBoot_stored _
  · split
    · exact s.writeBoot_stored _
    · rfl

/-- An event posted is in the hub store no more than its log record. -/
theorem State.post_stored (s : State) (r : EvReq) : (s.post r).stored = s.stored := by
  have logged : (s.post r).nv = { s.nv with plog := (s.logAppend r).nv.plog } := (s.post_log r).2.trans (s.logAppend_nv r).1
  have userA : (s.post r).nv.userA = s.nv.userA := by rw [logged]
  have userB : (s.post r).nv.userB = s.nv.userB := by rw [logged]
  have stores : (s.post r).nv.stores = s.nv.stores := by rw [logged]
  simp only [State.stored, State.post_frame, userA, userB, stores]

theorem State.cfgDiverge_stored (s : State) (detail : Nat) : (s.cfgDiverge detail).stored = s.stored := by
  unfold State.cfgDiverge
  split
  · rfl
  · exact s.post_stored _

/-- Both writes of a store of `c` were good: both copies equal it, and it is one store more. -/
def State.storeKept (s : State) (c : UserCopy) : State :=
  { s with
    nv := { s.nv with userA := some c, userB := some c, stores := s.nv.stores + 1 }
    dict := { s.dict with storing := none, storeState := 2 } }

/-- The first write of a store failed: its copy is not valid, and the other stands as it was (log entry 74). -/
def State.storeFailed (s : State) : State :=
  { s with
    nv := if s.dict.firstB then { s.nv with userB := none } else { s.nv with userA := none }
    dict := { s.dict with storing := none, storeState := 3 } }

/-- STORE_COMPLETE with both writes good puts the copy just written second in force. -/
theorem execStoreComplete_kept {s : State} {c : UserCopy} (running : s.dict.storing = some c) :
    ∃ t, execStoreComplete true true s = .next t ∧ t.stored = ((s.storeKept c).takeChoice (if s.dict.firstB then 1 else 2, 0, s.dict.firstB)).stored := by
  unfold execStoreComplete
  rw [running]
  refine ⟨_, rfl, (State.syncRingAddr_stored _).trans ?_⟩
  cases first : s.dict.firstB <;> simp [State.storeKept, first]

/-- STORE_COMPLETE with the first write bad leaves the choice to Table 15.7. -/
theorem execStoreComplete_failed {s : State} {c : UserCopy} (second : Bool) (running : s.dict.storing = some c) :
    ∃ t, execStoreComplete false second s = .next t
      ∧ t.stored = (s.storeFailed.takeChoice (chooseCopy s.storeFailed.nv.userA s.storeFailed.nv.userB)).stored := by
  unfold execStoreComplete
  rw [running]
  refine ⟨_, rfl, (State.syncRingAddr_stored _).trans ?_⟩
  rw [Bool.false_and, if_neg Bool.false_ne_true, State.cfgDiverge_stored]
  cases first : s.dict.firstB <;> simp [State.storeFailed, first]

end Sys2Proof.Machine

namespace Sys2Proof.Proofs
open Sys2Proof Sys2Proof.Machine

/-- Settles O41: a legal value reaches its entry's effect, which accepts it; a store's end leaves the copies and the choice its lemmas name. -/
theorem configurationWrites : Obligations.ConfigurationWrites := by
  unfold Obligations.ConfigurationWrites
  refine ⟨?pool, ?window, ?account, ?house, ?binding, ?log, ?store, ?restore, ?complete⟩
  case pool =>
    intro p e b v s opened engine entry length narrow aligned clean mark free
    refine State.written_ok opened (odEntry_pool engine entry) (Nat.le_of_eq length) ?_
    rw [State.dictWrite_pool s _ _ b v engine, State.poolWrite_ok length narrow aligned clean mark free]
  case window =>
    intro p w v s opened window length clean range apart
    have effect := State.windowWrite_legal ⟨length, clean, range, apart⟩
    refine ⟨fun unpinned => ?_, fun pinned off => ?_⟩
    · refine State.written_ok opened (odEntry_window window) (Nat.le_of_eq length) ?_
      rw [State.dictWrite_window, effect]
      simp [unpinned]
    · refine State.written_ok opened (odEntry_window window) (Nat.le_of_eq length) ?_
      rw [State.dictWrite_window, effect]
      simp [pinned, off]
  case account => exact fun p a s opened account => execAccountCounterClear_clears opened account
  case house => exact fun p s opened => execHouseCounterClear_clears opened
  case binding =>
    intro p v s opened length fns
    exact ⟨_, execAccountBinding_binds opened length fns, fun a account => s.boundFn_bindingOf v account, s.withBinding_frame _⟩
  case log => exact fun p s opened => execLogClear_clears opened
  case store =>
    intro p s opened idle room
    refine ⟨s.nextCopy, execStoreLayer_starts opened idle room, rfl, rfl, fun r live => ?_, fun r carried => ?_⟩
    · exact (mem_foldl_insertRec _ _).mpr (.inr live)
    · exact (mem_foldl_insertRec _ _).mpr (.inl carried)
  case restore => exact fun p s opened idle => execRestoreLayer_starts opened idle
  case complete =>
    intro c s running
    refine ⟨?_, fun second => ?_⟩
    · obtain ⟨t, ends, stored⟩ := execStoreComplete_kept running
      have dict := congrArg Stored.dict stored
      refine ⟨t, ends, congrArg Stored.userA stored, congrArg Stored.userB stored, congrArg Stored.stores stored, congrArg Dict.storing dict, congrArg Dict.storeState dict,
        (congrArg Dict.seqInForce dict).trans ?_, (congrArg Dict.settings dict :), congrArg Stored.seats stored, congrArg Stored.mem stored⟩
      cases s.dict.firstB <;> rfl
    · obtain ⟨t, ends, stored⟩ := execStoreComplete_failed second running
      have dict := congrArg Stored.dict stored
      have userA : t.nv.userA = s.storeFailed.nv.userA := congrArg Stored.userA stored
      have userB : t.nv.userB = s.storeFailed.nv.userB := congrArg Stored.userB stored
      have stores : t.nv.stores = s.storeFailed.nv.stores := congrArg Stored.stores stored
      refine ⟨t, ends, congrArg Dict.storing dict, congrArg Dict.storeState dict, ?_, ?_, (congrArg Dict.settings dict :), congrArg Stored.seats stored, congrArg Stored.mem stored⟩
      · rw [stores]; cases first : s.dict.firstB <;> simp [State.storeFailed, first]
      · rw [userA, userB]; cases first : s.dict.firstB <;> simp [State.storeFailed, first]

end Sys2Proof.Proofs
end

section
/-!
Lemmas on the ways to an entry (R427, R431, R447, R449, R503): an access of the mirror window or of a secured session answered by the device, and OD 0x1300.23, the step of a stretch.
-/
namespace Sys2Proof.Machine

variable {s t : State} {p : Path} {r : MirrorReq} {kind : Nat} {v : Bytes}

/-! ## Requests laid out like a mirror slot -/

/-- A request of one byte at offset 0 to the device itself, with no reserved field set (Table 15.9). -/
structure OneByte (r : MirrorReq) : Prop where
  op : r.op = 0
  target : r.target = 0xFF
  clean : r.rsvd = false
  offset : r.offset = 0
  len : r.len = 1

/-- The access that a request makes by its path. -/
def requestAccess (r : MirrorReq) (p : Path) (write : Bool) : Access :=
  { path := p, index := r.index, sub := r.sub, write, offset := r.offset, len := r.len, data := mirrorData r }

/-- The completed header of an access answered here. -/
def mirrorAns (r : MirrorReq) (x : DictAns) : MirrorAns :=
  { tag := r.tag.toNat, status := x.status, detail := x.detail, contrib := 0, alen := x.data.length, data := x.data }

/-- A request of the mirror window whose slot waits for nothing is answered with its access, and nothing else of it is seen without IRQ (R447). -/
theorem State.request_mirror {x : DictAns} (single : OneByte r) (free : s.dict.remote = []) (silent : r.irq = false) (low : kind < 2)
    (accessed : s.access (requestAccess r (.mirror r.fn r.slot) (kind = 1)) = (x, t)) :
    s.request none r kind = { t with dict := { t.dict with mirror := aset (16 * r.fn + r.slot) (mirrorAns r x) t.dict.mirror } } := by
  have good : mirrorBad r kind = false := by
    simp [mirrorBad, single.op, single.target, single.clean, single.len]; omega
  have here : mirrorRemote r kind = false := by
    simp [mirrorRemote, single.target]; omega
  unfold requestAccess at accessed
  simp [State.request, free, good, here, accessed, State.requestDone, State.mirrorDone, silent, mirrorAns]

/-- One of an established secured session is answered with a response of that session (R503). -/
theorem execVendorDefinedRequest_answers {n : Nat} {y : Spdm} {x : DictAns} (single : OneByte r) (up : s.spdmUp = true) (session : s.spdmSession n = some y)
    (established : y.state = 2) (accessed : s.access (requestAccess r (.secured n) false) = (x, t)) :
    execVendorDefinedRequest n true r 0 s = .next (t.respond 0x7E (mirrorHeader r 0 (mirrorAns r x) ++ x.data)) := by
  have good : mirrorBad r 0 = false := by simp [mirrorBad, single.op, single.target, single.clean, single.len]
  have here : mirrorRemote r 0 = false := by simp [mirrorRemote, single.target]
  unfold requestAccess at accessed
  simp [execVendorDefinedRequest, State.inSession, up, session, established, State.request, good, here, accessed, State.requestDone, mirrorAns]

/-- A broadcast read of PF0's of a legal length joins the requests for the ring under the next tag (R449). -/
theorem execMirrorBroadcastRead_queues (free : s.dict.remote = []) (pf0 : r.fn = 0) (clean : r.rsvd = false) (op : r.op ≤ 2)
    (length : r.len = 1 ∨ r.len = 2 ∨ r.len = 4 ∨ r.len = 8) :
    execMirrorBroadcastRead r s = .next { s with
      dict := { s.dict with remote := [{ req := r, kind := 2, secured := none, tag := s.hb.nextTag }] }
      hb := { s.hb with nextTag := (s.hb.nextTag + 1) % 256 } } := by
  have good : mirrorBad r 2 = false := by
    simp [mirrorBad, clean]; omega
  simp [execMirrorBroadcastRead, State.request, free, good, mirrorRemote, pf0]

/-! ## The step of a stretch, OD 0x1300.23 -/

/-- The live step of a stretch is `n` tenths. -/
def State.withStep (s : State) (n : Nat) : State := { s with dict := { s.dict with settings := { s.dict.settings with step := n } } }

/-- A value of one byte is that byte. -/
theorem leAll_of_length_one (length : v.length = 1) : leAll v = byteAt v 0 := by
  obtain ⟨b, rfl⟩ := List.length_eq_one_iff.mp length
  simp [leAll, byteAt]

/-- A legal step becomes the live value, and nothing else changes (R427, R441). -/
theorem State.settingWrite_step {n : Nat} (least : 1 ≤ n) (most : n ≤ 40) : s.settingWrite 0x1300 0x23 n = wOk (s.withStep n) := by
  have fits : n % settingMask 0x1300 0x23 = n := Nat.mod_eq_of_lt (show n < 2 ^ 32 by omega)
  have ranged : s.settingOk 0x1300 0x23 n = true := by simp [State.settingOk, isPolicy, least, most]
  simp only [State.settingWrite, fits, ranged]
  rfl

/-- The whole value reaches it. -/
theorem State.wholeWrite_step (opened : s.gate p 0x1300 0x23 true = 0) (length : v.length = 1) (least : 1 ≤ byteAt v 0) (most : byteAt v 0 ≤ 40) :
    s.wholeWrite p 0x1300 0x23 v true = wOk (s.withStep (byteAt v 0)) := by
  rw [State.wholeWrite_fits s p 0x1300 0x23 v true _ opened rfl length, State.dictWrite_stretchStep, leAll_of_length_one length, State.settingWrite_step least most]

/-- The access of one byte of the step. -/
def stepAccess (p : Path) (write : Bool) (v : Bytes) : Access := { path := p, index := 0x1300, sub := 0x23, write, offset := 0, len := 1, data := v }

/-- A request for the step accesses it with its one byte of data. -/
theorem requestAccess_step (single : OneByte r) (index : r.index = 0x1300) (sub : r.sub = 0x23) (write : Bool) :
    requestAccess r p write = stepAccess p write (mirrorData r) := by
  simp [requestAccess, stepAccess, index, sub, single.offset, single.len]

theorem mirrorData_of_length_one (single : OneByte r) (length : r.data.length = 1) : mirrorData r = r.data := by
  simp [mirrorData, padTo, single.len, ← length]

/-- An access that writes a legal step. -/
theorem State.access_writes_step (opened : s.gate p 0x1300 0x23 true = 0) (length : v.length = 1) (least : 1 ≤ byteAt v 0) (most : byteAt v 0 ≤ 40) :
    s.access (stepAccess p true v) = ({ status := 1, detail := 0, data := [] }, s.withStep (byteAt v 0)) := by
  rw [stepAccess, State.access_write (by decide) (by decide) length (le_segUnit p (by decide)), State.wholeWrite_step opened length least most]
  rfl

/-- An access that reads the step. -/
theorem State.access_reads_step (opened : s.gate p 0x1300 0x23 false = 0) :
    s.access (stepAccess p false v) = ({ status := 1, detail := 0, data := toLe s.dict.settings.step 1 }, s) :=
  State.access_read opened rfl (by decide) (by decide) (le_segUnit p (by decide))

/-- The completed header of a read of the step. -/
theorem mirrorAns_step (r : MirrorReq) (n : Nat) :
    mirrorAns r { status := 1, detail := 0, data := toLe n 1 } = { tag := r.tag.toNat, status := 1, detail := 0, contrib := 0, alen := 1, data := toLe n 1 } := rfl

/-! ## Entries whose write has a command of its own -/

/-- The command of a clear, a store or a restore is the access to its entry. -/
theorem written_eq_dictionaryWrite {i j n : Nat} (plain : ¬ asksCheck i j) (fixed : ∀ e, odEntry i j = some e → typeWidth e.type ≠ 0) (length : v.length = n)
    (short : n ≤ 32) : s.written p i j v = execDictionaryWrite { path := p, index := i, sub := j, write := true, offset := 0, len := n, data := v } s :=
  (execDictionaryWrite_written plain fixed length (le_segUnit p short)).symm

theorem counterClear_fixed {a : Nat} (account : a < 4096) (e : OdEntry) (entry : odEntry (0x3000 + a) 0x09 = some e) : typeWidth e.type ≠ 0 := by
  rw [odEntry_counterClear account] at entry
  obtain rfl := Option.some.inj entry
  decide

theorem counterClear_plain (a : Nat) : ¬ asksCheck (0x3000 + a) 0x09 := by
  rintro (⟨-, sub⟩ | ⟨-, sub⟩) <;> omega

end Sys2Proof.Machine

namespace Sys2Proof.Proofs
open Sys2Proof Sys2Proof.Machine

/-- Settles O43: whichever command brings it, an access is the one `State.access` of its entry; the gate turns a write away before anything else, and each clear, store and restore is the write of its entry. -/
theorem accessesReachTheEntry : Obligations.AccessesReachTheEntry := by
  unfold Obligations.AccessesReachTheEntry
  refine ⟨⟨?write, ?read, ?broadcast, ?lapse, fun p i j s => rfl⟩, ?gate, fun p s => ⟨?account, ?house, ?log, ?store, ?restore, ?binding⟩⟩
  case write =>
    intro p v s opened length least most
    have written := State.access_writes_step opened length least most
    have dictionary : execDictionaryWrite (stepAccess p true v) s = .next (s.withStep (byteAt v 0)).wroteOk :=
      congrArg (fun x : DictAns × State => Host.Outcome.next (x.2.answered x.1)) written
    refine ⟨dictionary, fun tap => ?_, ?_⟩
    · subst tap
      exact dictionary
    · rintro r rfl free index sub op target clean offset len rfl silent
      have single : OneByte r := ⟨op, target, clean, offset, len⟩
      have made : requestAccess r (.mirror r.fn r.slot) true = stepAccess (.mirror r.fn r.slot) true r.data := by
        rw [requestAccess_step single index sub, mirrorData_of_length_one single length]
      rw [← made] at written
      exact congrArg Host.Outcome.next (State.request_mirror (kind := 1) single free silent (by decide) written)
  case read =>
    intro p s opened
    refine ⟨fun tap => ?_, ?_, ?_⟩
    · subst tap
      exact congrArg (fun x : DictAns × State => Host.Outcome.next (x.2.answered x.1)) (State.access_reads_step (v := []) opened)
    · rintro r rfl free index sub op target clean offset len silent
      have single : OneByte r := ⟨op, target, clean, offset, len⟩
      have read := State.access_reads_step (v := mirrorData r) opened
      rw [← requestAccess_step single index sub] at read
      have answered := State.request_mirror (kind := 0) single free silent (by decide) read
      rw [mirrorAns_step] at answered
      exact congrArg Host.Outcome.next answered
    · rintro r n y rfl up session established index sub op target clean offset len
      have single : OneByte r := ⟨op, target, clean, offset, len⟩
      have read := State.access_reads_step (v := mirrorData r) opened
      rw [← requestAccess_step single index sub] at read
      have answered := execVendorDefinedRequest_answers single up session established read
      rw [mirrorAns_step] at answered
      exact answered
  case broadcast => exact fun r s free pf0 clean op length => execMirrorBroadcastRead_queues free pf0 clean op length
  case lapse => exact fun p i j s => ⟨_, rfl, rfl, rfl, rfl, rfl, rfl⟩
  case gate =>
    rintro p i j n v s rfl shut
    refine ⟨execDictionaryWrite_refused shut, ?_, ?_, ?_⟩
    · rintro rfl rfl
      exact s.written_gate p _ _ v shut
    · rintro rfl rfl
      exact s.written_gate p _ _ v shut
    · rintro rfl rfl
      exact s.written_gate p _ _ _ shut
  case account =>
    intro a account
    refine ⟨written_eq_dictionaryWrite (counterClear_plain a) (counterClear_fixed account) rfl (by decide), fun opened => ?_⟩
    exact ⟨_, execAccountCounterClear_clears opened account,
      congrArg Acct.clearPending (s.acct_setAcct_same a _), fun b other => s.acct_setAcct_other a b _ other, rfl, rfl, rfl, rfl, rfl, rfl⟩
  case house =>
    exact ⟨written_eq_dictionaryWrite (by decide) (by decide) rfl (by decide),
      fun opened => ⟨_, execHouseCounterClear_clears opened, rfl, rfl, rfl, rfl, rfl, rfl, rfl⟩⟩
  case log =>
    exact ⟨written_eq_dictionaryWrite (by decide) (by decide) rfl (by decide),
      fun opened => ⟨_, execLogClear_clears opened, rfl, rfl, rfl, rfl, rfl, rfl, rfl⟩⟩
  case store =>
    exact ⟨written_eq_dictionaryWrite (by decide) (by decide) rfl (by decide),
      fun opened idle room => ⟨_, execStoreLayer_starts opened idle room, rfl, rfl, rfl, rfl, rfl, rfl, rfl, rfl, rfl⟩⟩
  case restore =>
    exact ⟨written_eq_dictionaryWrite (by decide) (by decide) rfl (by decide),
      fun opened idle => ⟨_, _, execRestoreLayer_starts opened idle, rfl, rfl, rfl, rfl, rfl, rfl, rfl, rfl, rfl, rfl⟩⟩
  case binding =>
    intro v opened length fns
    refine ⟨_, execAccountBinding_binds opened length fns, fun a f account => ?_, s.withBinding_keeps _⟩
    rw [s.boundFn_bindingOf v account]

end Sys2Proof.Proofs
end

section
/-!
Lemmas on QBIND, PROGRAM, PASS, IMAGE_DELETE and AUDIT (R119, R281, R295, R357, R550): what each of them answers and changes once it is admitted.
-/
namespace Sys2Proof.Machine

variable {s : State} {c : CmdSlot}

@[simp] theorem State.queue_cmdTaken (s : State) (c : CmdSlot) (q : Nat) : (s.cmdTaken c).queue q = s.queue q := rfl

@[simp] theorem State.imageOf_cmdTaken (s : State) (c : CmdSlot) (id : Nat) : (s.cmdTaken c).imageOf id = s.imageOf id := rfl

@[simp] theorem State.referenced_cmdTaken (s : State) (c : CmdSlot) (id : Nat) : (s.cmdTaken c).referenced id = s.referenced id := rfl

@[simp] theorem State.keysAllowed_cmdTaken (s : State) (c : CmdSlot) : (s.cmdTaken c).keysAllowed = s.keysAllowed := rfl

theorem State.keysAllowed_iff : s.keysAllowed = true ↔ s.sec.lifeCycle = 1 ∨ s.sec.lifeCycle = 2 := by simp [State.keysAllowed]

theorem State.referenced_iff {id : Nat} : s.referenced id = true ↔ ∃ f ∈ s.forms, f.weightImage = id := by simp [State.referenced]

/-! ## QBIND -/

section
variable (admitted : Admitted s c true none) (queue : argHigh c.arg0 6 = false) (account : argHigh c.arg1 12 = false) (arg2 : c.arg2 = 0)
include admitted queue account arg2

/-- A queue that is empty or stopped is bound to the account. -/
theorem execQbind_binds (free : (s.queue c.arg0.toNat).held = 0 ∨ (s.queue c.arg0.toNat).stopped = true) :
    execQbind c s = .next ((s.setQueue c.arg0.toNat { s.queue c.arg0.toNat with account := some c.arg1.toNat }).cmdDone 0x22 c 0 0) := by
  have bindable : ¬((s.queue c.arg0.toNat).held ≠ 0 && !(s.queue c.arg0.toNat).stopped) = true := by
    obtain empty | stopped := free
    · simp [empty]
    · simp [stopped]
  rw [execQbind, hostCommand_admitted _ _ _ _ _ _ admitted, if_neg (by simp [queue, account, arg2])]
  dsimp only
  rw [State.queue_cmdTaken, if_neg bindable]
  exact congrArg Host.Outcome.next (complete_after s _ 0x22 c 0 rfl)

/-- A queue that runs with descriptors is QUEUE_BUSY. -/
theorem execQbind_busy (held : (s.queue c.arg0.toNat).held ≠ 0) (runs : (s.queue c.arg0.toNat).stopped = false) :
    execQbind c s = .next (s.cmdDone 0x22 c 0x13 0) := by
  simp [execQbind, hostCommand_admitted _ _ _ _ _ _ admitted, queue, account, arg2, held, runs, complete_taken]

end

/-! ## PROGRAM -/

/-- A native image in its ranges waits behind the programs accepted before it (R119). -/
theorem execProgram_waits {info : NativeInfo} (admitted : Admitted s c true none) (account : argHigh c.arg0 12 = false) (address : argHigh c.arg1 48 = false)
    (legal : nativeOk 0xFF 0 1 info = true) :
    execProgram c info s = .next { s.cmdTaken c with svis := { s.svis with
      programs := s.svis.programs ++ [{ id := s.svis.nextProgram, account := c.arg0.toNat, info, ticket := ticketOf s 0x32 c, dieMask := info.streams.foldl (fun m x => m ||| x.dieMask) 0, takenPs := s.now, start := none, accSat := false }]
      nextProgram := s.svis.nextProgram + 1 } } := by
  rw [execProgram, hostCommand_admitted _ _ _ _ _ _ admitted, if_neg (by rw [account, address, legal]; decide)]
  rfl

/-! ## PASS -/

section
variable (admitted : Admitted s c true none) (arg2 : c.arg2 = 0)
include admitted arg2

/-- With no stream under way, at position 0 and in a life-cycle state that has keys, PASS waits for its stream. -/
theorem execPass_waits (noPass : s.vault.pass = none) (noCmd : s.vault.passCmd = none) (first : s.dict.settings.position = 0)
    (keys : s.sec.lifeCycle = 1 ∨ s.sec.lifeCycle = 2) :
    execPass c s = .next { s.cmdTaken c with vault := { s.vault with passCmd := some (ticketOf s 0x40 c) } } := by
  have taken : (s.cmdTaken c).vault = s.vault ∧ (s.cmdTaken c).dict = s.dict := ⟨rfl, rfl⟩
  simp [execPass, hostCommand_admitted _ _ _ _ _ _ admitted, arg2, taken, noPass, noCmd, first, State.keysAllowed_iff.mpr keys]

/-- A stream under way, or one waited for, is BUSY. -/
theorem execPass_busy (busy : s.vault.pass.isSome = true ∨ s.vault.passCmd.isSome = true) : execPass c s = .next (s.cmdDone 0x40 c 0x0B 0) := by
  have taken : (s.cmdTaken c).vault = s.vault := rfl
  rw [execPass, hostCommand_admitted _ _ _ _ _ _ admitted, if_neg (not_not_intro arg2), if_pos (by simpa [taken] using busy), complete_taken]

end

/-! ## IMAGE_DELETE -/

section
variable (admitted : Admitted s c true none) (image : argHigh c.arg0 32 = false) (arg1 : c.arg1 = 0) (arg2 : c.arg2 = 0)
include admitted image arg1 arg2

/-- The entry of an image that no form names is deleted (R281). -/
theorem execImageDelete_deletes {i : Nat} {e : ImageEntry} (entry : s.imageOf c.arg0.toNat = some (i, e)) (unnamed : ∀ f ∈ s.forms, f.weightImage ≠ c.arg0.toNat) :
    execImageDelete c s = .next (State.cmdDone { s with nv := { s.nv with images := adel i s.nv.images } } 0x41 c 0 0) := by
  have free : ¬s.referenced c.arg0.toNat = true := fun named => by
    obtain ⟨f, loaded, names⟩ := State.referenced_iff.mp named
    exact unnamed f loaded names
  rw [execImageDelete, hostCommand_admitted _ _ _ _ _ _ admitted]
  dsimp only
  rw [if_neg (by simp [image, arg1, arg2]), State.imageOf_cmdTaken, entry]
  dsimp only
  rw [State.referenced_cmdTaken, if_neg free]
  exact congrArg Host.Outcome.next (complete_after s _ 0x41 c 0 rfl)

/-- The image of a loaded form is IN_USE. -/
theorem execImageDelete_inUse {i : Nat} {e : ImageEntry} (entry : s.imageOf c.arg0.toNat = some (i, e)) (named : ∃ f ∈ s.forms, f.weightImage = c.arg0.toNat) :
    execImageDelete c s = .next (s.cmdDone 0x41 c 0x04 0) := by
  simp [execImageDelete, hostCommand_admitted _ _ _ _ _ _ admitted, image, arg1, arg2, entry, State.referenced_iff.mpr named, complete_taken]

theorem execImageDelete_noImage (absent : s.imageOf c.arg0.toNat = none) : execImageDelete c s = .next (s.cmdDone 0x41 c 0x14 0) := by
  simp [execImageDelete, hostCommand_admitted _ _ _ _ _ _ admitted, image, arg1, arg2, absent, complete_taken]

end

/-! ## AUDIT -/

section
variable {l : Nat} (admitted : Admitted s c true none) (least : 1 ≤ c.arg0.toNat) (most : c.arg0.toNat ≤ 64) (arg1 : c.arg1 = 0) (arg2 : c.arg2 = 0) (len : s.cad.len = some l)
include admitted least most arg1 arg2 len

/-- A run long enough for the self-test begins (R357). -/
theorem execAudit_begins (long : 1200000 ≤ c.arg0.toNat * (l - 256) * s.cad.period) (untaken : s.dealer.auditTickets = []) (left : s.dealer.auditLeft = 0) :
    execAudit c s = .next { s.cmdTaken c with dealer := { s.dealer with auditLeft := c.arg0.toNat, auditTickets := [ticketOf s 0x31 c] } } := by
  have taken : (s.cmdTaken c).cad = s.cad ∧ (s.cmdTaken c).dealer = s.dealer := ⟨rfl, rfl⟩
  simp [execAudit, hostCommand_admitted _ _ _ _ _ _ admitted, arg1, arg2, taken, len, untaken, left, Nat.not_lt.mpr long, Nat.not_lt.mpr most, Nat.ne_of_gt least]

/-- A shorter one is SHORT_RUN, and OD 0x2000.18 says so. -/
theorem execAudit_short (short : c.arg0.toNat * (l - 256) * s.cad.period < 1200000) :
    execAudit c s = .next (State.cmdDone { s with repair := { s.repair with bistResult := 4 } } 0x31 c 0x12 0) := by
  have taken : (s.cmdTaken c).cad = s.cad := rfl
  rw [execAudit, hostCommand_admitted _ _ _ _ _ _ admitted]
  dsimp only
  rw [if_neg (by simp [arg1, arg2, Nat.not_lt.mpr most, Nat.ne_of_gt least]), taken, len, Option.getD_some, if_pos short]
  exact congrArg Host.Outcome.next (complete_after s _ 0x31 c 0x12 rfl)

end

end Sys2Proof.Machine

namespace Sys2Proof.Proofs
open Sys2Proof Sys2Proof.Machine

/-- Settles O12: an admitted command reaches its own checks, and the lemmas above say what each outcome of them leaves. -/
theorem queueProgramPassImageAudit : Obligations.QueueProgramPassImageAudit := by
  unfold Obligations.QueueProgramPassImageAudit
  refine ⟨?qbind, ?program, ?pass, ?image, ?audit⟩
  case qbind =>
    exact fun c s admitted queue account arg2 => ⟨execQbind_binds admitted queue account arg2, execQbind_busy admitted queue account arg2⟩
  case program => exact fun c info s admitted account address legal => execProgram_waits admitted account address legal
  case pass => exact fun c s admitted arg2 => ⟨execPass_waits admitted arg2, execPass_busy admitted arg2⟩
  case image =>
    exact fun c s i e admitted image arg1 arg2 => ⟨execImageDelete_deletes admitted image arg1 arg2, execImageDelete_inUse admitted image arg1 arg2,
      execImageDelete_noImage admitted image arg1 arg2⟩
  case audit =>
    exact fun c s l admitted least most arg1 arg2 len => ⟨execAudit_begins admitted least most arg1 arg2 len, execAudit_short admitted least most arg1 arg2 len⟩

end Sys2Proof.Proofs
end

section
/-!
Lemmas on items in flight that complete and land (R121, R122, R153, R177, R179): what completing one leaves alone, what an item of one store write leaves in its store and of its core's posts, and the overrun of a late one.
-/
namespace Sys2Proof.Machine

variable {s t u : State} {i : Item}

/-! ## Cores and clusters written -/

@[simp] theorem State.core_setCore_same (s : State) (k : Nat) (c : Core) : (s.setCore k c).core k = c := by simp [State.core, State.setCore]

theorem State.core_setCore_other (s : State) {j k : Nat} (c : Core) (other : j ≠ k) : (s.setCore k c).core j = s.core j := by
  simp [State.core, State.setCore, aget_aset_other j k c _ other]

@[simp] theorem State.cstore_setCstore_same (s : State) (k : Nat) (c : Cluster) : (s.setCstore k c).cstore k = c := by simp [State.cstore, State.setCstore]

theorem State.cstore_setCstore_other (s : State) {j k : Nat} (c : Cluster) (other : j ≠ k) : (s.setCstore k c).cstore j = s.cstore j := by
  simp [State.cstore, State.setCstore, aget_aset_other j k c _ other]

/-- An entry of a keyed list after a put is the one put or one that was there. -/
theorem mem_aset {α : Type} {k : Nat} {v : α} {x : Nat × α} {l : List (Nat × α)} (listed : x ∈ aset k v l) : x = (k, v) ∨ x ∈ l := by
  induction l with
  | nil => simpa [aset] using listed
  | cons y l ih =>
    unfold aset at listed
    split at listed
    · grind
    · split at listed
      · grind
      · grind

/-! ## What an item's completion leaves alone -/

/-- What no completion of an item, and no loss of stores, touches: a core to which nothing is handed stays one, and items in flight, programs, causes and seats are as they were. -/
structure State.Undisturbed (s t : State) : Prop where
  handed : (∀ c ∈ s.svis.cores, c.2.handed = []) → ∀ c ∈ t.svis.cores, c.2.handed = []
  items : t.svis.items = s.svis.items
  programs : t.svis.programs = s.svis.programs
  causes : t.dealer.causes = s.dealer.causes
  seats : t.seats = s.seats

theorem State.Undisturbed.refl (s : State) : s.Undisturbed s := ⟨id, rfl, rfl, rfl, rfl⟩

theorem State.Undisturbed.trans (h : s.Undisturbed t) (g : t.Undisturbed u) : s.Undisturbed u :=
  ⟨g.handed ∘ h.handed, g.items.trans h.items, g.programs.trans h.programs, g.causes.trans h.causes, g.seats.trans h.seats⟩

theorem State.Undisturbed.foldl {α : Type} {f : State → α → State} (step : ∀ s x, State.Undisturbed s (f s x)) (s : State) (l : List α) : s.Undisturbed (l.foldl f s) :=
  List.foldlRecOn l f (.refl s) fun _ h x _ => h.trans (step _ x)

/-- A core of a device to whose cores nothing is handed has nothing handed to it. -/
theorem State.core_handed (idle : ∀ c ∈ s.svis.cores, c.2.handed = []) (k : Nat) : (s.core k).handed = [] := by
  have listed : ∀ l : List (Nat × Core), (∀ c ∈ l, c.2.handed = []) → ∀ d : Core, d.handed = [] → ((aget k l).getD d).handed = [] := by
    intro l
    induction l with
    | nil => exact fun _ d bare => bare
    | cons x l ih =>
      intro idle d bare
      unfold aget
      split
      · exact idle x (.head l)
      · exact ih (fun c listed => idle c (.tail x listed)) d bare
  exact listed _ idle _ rfl

theorem State.setCore_undisturbed (s : State) {k : Nat} {c : Core} (same : c.handed = (s.core k).handed) : s.Undisturbed (s.setCore k c) where
  handed idle x listed := by
    obtain rfl | listed := mem_aset listed
    · exact same.trans (State.core_handed idle k)
    · exact idle x listed
  items := rfl
  programs := rfl
  causes := rfl
  seats := rfl

theorem State.setCstore_undisturbed (s : State) (k : Nat) (c : Cluster) : s.Undisturbed (s.setCstore k c) := ⟨id, rfl, rfl, rfl, rfl⟩

theorem State.applyWrite_undisturbed (s : State) (w : StoreWrite) : s.Undisturbed (s.applyWrite w) :=
  .foldl (fun s r => by
    cases r with
    | core k => exact s.setCore_undisturbed rfl
    | cluster k => exact s.setCstore_undisturbed k _) s _

theorem State.postChip_undisturbed (s : State) (k chip cycle : Nat) : s.Undisturbed (s.postChip k chip cycle) := s.setCore_undisturbed rfl

theorem State.releaseRegions_undisturbed (s : State) (r : StoreRef) : s.Undisturbed (s.releaseRegions r) := by
  unfold State.releaseRegions
  dsimp only
  split
  · cases r with
    | core k => exact s.setCore_undisturbed rfl
    | cluster k => exact s.setCstore_undisturbed k _
  · exact .refl s

theorem State.writeLine_undisturbed (s : State) (pa : Nat) (b : Bytes) : s.Undisturbed (s.writeLine pa b) := by
  constructor <;> simp

theorem State.applyHbm_undisturbed (s : State) (h : List (Nat × Bytes)) : s.Undisturbed (s.applyHbm h) := by
  refine .foldl ?_ s h
  exact fun s x => s.writeLine_undisturbed x.1 x.2

theorem State.orderLandings_undisturbed (s : State) (i : Item) : s.Undisturbed (s.orderLandings i) := by
  unfold State.orderLandings
  split
  · exact .refl s
  · split
    · exact .refl s
    · dsimp only
      refine .trans ?_ (.foldl State.applyWrite_undisturbed _ _)
      exact ⟨id, rfl, rfl, rfl, rfl⟩

/-- The item is no longer in flight. -/
def State.withoutItem (s : State) (i : Item) : State := { s with svis := { s.svis with items := s.svis.items.filter (·.id ≠ i.id) } }

/-- Completing an item takes it out of flight and disturbs nothing else (R122, R153). -/
theorem State.completeItem_undisturbed (s : State) (i : Item) : (s.withoutItem i).Undisturbed (s.completeItem i) := by
  have written := State.Undisturbed.foldl State.applyWrite_undisturbed (s.withoutItem i) i.writes
  have undone : ∀ u : State, u.Undisturbed (match i.owner with | .deal _ => u.noteUndo i.hbm | .program _ _ => u) := fun u => by
    split
    · exact ⟨id, rfl, rfl, rfl, rfl⟩
    · exact .refl u
  have registered : ∀ u : State, u.Undisturbed (match i.reg with | some (r, v) => u.setCore i.core ((u.core i.core).writeReg r i.done v) | none => u) := fun u => by
    split
    · refine u.setCore_undisturbed ?_
      unfold Core.writeReg
      split <;> rfl
    · exact .refl u
  have posted : ∀ u : State, u.Undisturbed (match i.post with | some p => u.postChip i.core p i.done | none => u) := fun u => by
    split
    · exact u.postChip_undisturbed _ _ _
    · exact .refl u
  have told : ∀ u : State, u.Undisturbed (i.remote.foldl (fun s r => s.postChip r.1 r.2 i.done) u) :=
    fun u => .foldl (fun s r => s.postChip_undisturbed _ _ _) u _
  have released : ∀ u : State, u.Undisturbed (i.refs.foldl State.releaseRegions u) := fun u => .foldl State.releaseRegions_undisturbed u _
  exact (((((written.trans (State.orderLandings_undisturbed _ i)).trans (undone _)).trans (State.applyHbm_undisturbed _ _)).trans (registered _)).trans
    (posted _)).trans ((told _).trans (released _))

theorem State.completeItem_items (s : State) (i : Item) : (s.completeItem i).svis.items = s.svis.items.filter (·.id ≠ i.id) := (s.completeItem_undisturbed i).items

/-- No item of the completed one's number is in flight. -/
theorem State.item_completeItem (s : State) (i : Item) : (s.completeItem i).item i.id = none := by
  simp [State.item, State.completeItem_items]

/-! ## A quiet fabric stays quiet -/

/-- With nothing handed, no landing that waits and no program, a completion brings nothing else about. -/
theorem FabricQuiet.settleItems (quiet : FabricQuiet s) (word : Nat) : s.settleItems word = s := by
  have words : (s.svis.cores.map (fun c => c.2.handed.length)).sum = 0 := List.sum_eq_zero fun n listed => by
    obtain ⟨c, core, rfl⟩ := List.mem_map.mp listed
    rw [quiet.idle c core]
    rfl
  have landings : s.svis.items.filter (·.held) = [] := by simpa using quiet.landed
  simp [State.settleItems, State.pumpAll, words, landings, pump, State.endPrograms, quiet.none]

theorem FabricQuiet.of_svis (quiet : FabricQuiet s) (same : t.svis = s.svis) : FabricQuiet t := ⟨same ▸ quiet.idle, same ▸ quiet.landed, same ▸ quiet.none⟩

theorem FabricQuiet.completeItem (quiet : FabricQuiet s) (i : Item) : FabricQuiet (s.completeItem i) where
  idle := (s.completeItem_undisturbed i).handed quiet.idle
  landed j listed := quiet.landed j (List.mem_of_mem_filter (s.completeItem_items i ▸ listed))
  none := (s.completeItem_undisturbed i).programs.trans quiet.none

/-! ## An item of one store write -/

/-- What a completion can move beside the items in flight: the bytes of every store, every core's posts, and HBM. -/
structure Works where
  cells : StoreRef → List Host.Cell
  posts : Nat → List (Nat × Nat)
  mem : Memory

def State.works (s : State) : Works := { cells := s.storeCells, posts := fun k => (s.core k).posts, mem := s.mem }

/-- An item of deal code that writes bytes `w` of the one store `r`, and nothing elsewhere. -/
structure Item.WritesStore (i : Item) (slot : Nat) (r : StoreRef) (w : StoreWrite) : Prop where
  owner : i.owner = .deal slot
  hbm : i.hbm = []
  reg : i.reg = none
  remote : i.remote = []
  vault : i.vault = none
  writes : i.writes = [w]
  dsts : w.dsts = [r]
  fits : w.addr + w.data.length ≤ r.bytes

/-- The bytes of store `r` are `cells`. -/
def Works.store (v : Works) (r : StoreRef) (cells : List Host.Cell) : Works := { v with cells := Function.update v.cells r cells }

/-- The item's own post is counted from its completion cycle (R153, R154). -/
def Works.posted (v : Works) (i : Item) : Works :=
  match i.post with
  | none => v
  | some p => { v with posts := Function.update v.posts i.core (v.posts i.core ++ [(p, i.done)]) }

@[simp] theorem Works.posted_cells (v : Works) (i : Item) : (v.posted i).cells = v.cells := by unfold Works.posted; split <;> rfl

@[simp] theorem Works.posted_mem (v : Works) (i : Item) : (v.posted i).mem = v.mem := by unfold Works.posted; split <;> rfl

theorem Works.posted_posts (v : Works) {p : Nat} (post : i.post = some p) : (v.posted i).posts i.core = v.posts i.core ++ [(p, i.done)] := by
  simp [Works.posted, post]

theorem State.works_setCore (s : State) (k : Nat) (c : Core) :
    (s.setCore k c).works = { cells := Function.update s.storeCells (.core k) c.store, posts := Function.update (fun j => (s.core j).posts) k c.posts, mem := s.mem } := by
  have cells : (s.setCore k c).storeCells = Function.update s.storeCells (.core k) c.store := by
    funext r
    cases r with
    | core j =>
      by_cases same : j = k
      · subst same; simp [State.storeCells]
      · simp [State.storeCells, same, State.core_setCore_other]
    | cluster j => simp [State.storeCells, State.cstore, State.setCore]
  have posts : (fun j => ((s.setCore k c).core j).posts) = Function.update (fun j => (s.core j).posts) k c.posts := by
    funext j
    by_cases same : j = k
    · subst same; simp
    · simp [same, State.core_setCore_other]
  simp only [State.works, cells, posts, State.setCore_frame]

theorem State.works_setCstore (s : State) (k : Nat) (c : Cluster) : (s.setCstore k c).works = s.works.store (.cluster k) c.store := by
  have cells : (s.setCstore k c).storeCells = Function.update s.storeCells (.cluster k) c.store := by
    funext r
    cases r with
    | core j => simp [State.storeCells, State.core, State.setCstore]
    | cluster j =>
      by_cases same : j = k
      · subst same; simp [State.storeCells]
      · simp [State.storeCells, same, State.cstore_setCstore_other]
  simp only [State.works, Works.store, cells, State.setCstore_frame]
  rfl

theorem State.works_setStore (s : State) (r : StoreRef) (cells : List Host.Cell) (marks : List Nat) : (s.setStore r cells marks).works = s.works.store r cells := by
  cases r with
  | core k => exact (s.works_setCore k _).trans (by simp [State.works, Works.store])
  | cluster k => exact s.works_setCstore k _

@[simp] theorem State.works_setRegions (s : State) (r : StoreRef) (l : List StoreRegion) : (s.setRegions r l).works = s.works := by
  cases r with
  | core k => exact (s.works_setCore k _).trans (by simp [State.works, State.storeCells])
  | cluster k => exact (s.works_setCstore k _).trans (by simp [State.works, Works.store, State.storeCells])

@[simp] theorem State.works_releaseRegions (s : State) (r : StoreRef) : (s.releaseRegions r).works = s.works := by
  unfold State.releaseRegions; dsimp only; split <;> simp

theorem State.works_postChip (s : State) (k chip cycle : Nat) :
    (s.postChip k chip cycle).works = { s.works with posts := Function.update s.works.posts k (s.works.posts k ++ [(chip, cycle)]) } :=
  (s.works_setCore k _).trans (by simp [State.works, State.storeCells])

/-- Where nothing else of the deal has landed in the item's cycle there is nothing to write again (R187). -/
theorem State.works_orderLandings (alone : ∀ l ∈ s.svis.landed, l.cycle ≠ i.done) : (s.orderLandings i).works = s.works := by
  have first : s.svis.landed.filter (·.cycle = i.done) = [] := by simpa using alone
  unfold State.orderLandings
  split
  · rfl
  · split
    · rfl
    · rw [first]; rfl

/-- A completed item leaves its bytes in its store and its post at its core. -/
theorem State.works_completeItem {slot : Nat} {r : StoreRef} {w : StoreWrite} (one : i.WritesStore slot r w) (alone : ∀ l ∈ s.svis.landed, l.cycle ≠ i.done) :
    (s.completeItem i).works = (s.works.store r (writeBytes (s.storeCells r) w.addr w.data)).posted i := by
  have applied : ((s.withoutItem i).applyWrite w).works = s.works.store r (writeBytes (s.storeCells r) w.addr w.data) := by
    have whole : w.data.take (r.bytes - w.addr) = w.data := List.take_of_length_le (Nat.le_sub_of_add_le' one.fits)
    rw [State.applyWrite, one.dsts]
    refine (State.works_setStore _ _ _ _).trans ?_
    rw [StoreWrite.apply, whole]
    rfl
  have landed : ((s.withoutItem i).applyWrite w).svis.landed = s.svis.landed := by
    rw [State.applyWrite, one.dsts]
    cases r <;> rfl
  have ordered := (State.works_orderLandings (i := i) (s := (s.withoutItem i).applyWrite w) (landed ▸ alone)).trans applied
  unfold State.completeItem
  refine (foldl_keeps State.works State.works_releaseRegions i.refs _).trans ?_
  rw [one.writes, one.owner, one.hbm, one.reg, one.remote, ← ordered, Works.posted]
  cases i.post with
  | none => rfl
  | some p => exact State.works_postChip _ _ _ _

theorem State.storeCells_of_works {r : StoreRef} {cells : List Host.Cell} (works : t.works = (s.works.store r cells).posted i) :
    t.storeCells r = cells ∧ ∀ q, q ≠ r → t.storeCells q = s.storeCells q := by
  have all : t.storeCells = Function.update s.storeCells r cells := (congrArg Works.cells works).trans (Works.posted_cells _ i)
  rw [all]
  exact ⟨Function.update_self .., fun q other => Function.update_of_ne other ..⟩

/-! ## The commands of completion -/

/-- Deal code's item lands at once: what the scoreboard holds against it was found at issue (R158, R160). -/
theorem State.land_deal {slot : Nat} (owner : i.owner = .deal slot) : s.land i = s.completeItem i := by
  simp [State.land, State.finishItem, owner]

/-- An item of deal code whose due trick is in progress or past is reached (R179, R183). -/
theorem State.reached_deal {slot : Nat} (owner : i.owner = .deal slot) (due : (if i.plane = .memory then i.done + 1 else i.done) / 64 ≤ s.cad.trick) : s.reached i = true := by
  simp [State.reached, owner, due]

/-- The state before the completion once its lateness is told: an overrun, or for memory data in time a margin (R177, R179, R358). -/
def State.tileTold (s : State) (i : Item) (slot late : Nat) : State := if 0 < late then s.overrun 0x20 slot i.die i.latePlace (i.done / 64) else s

def State.memoryTold (s : State) (i : Item) (slot : Nat) (slack : Int) : State :=
  if slack < 0 then s.overrun i.lateDetail (i.lateSlot slot) i.die i.latePlace ((i.done + 1) / 64) else s.noteMargin (s.projectedMargin i slack)

section
variable {slot : Nat} (found : s.item i.id = some i)
include found

section
variable (oldest : s.oldest i = true) (reached : s.reached i = true) (owner : i.owner = .deal slot)
include oldest reached owner

theorem execInstructionComplete_completes (plane : i.plane = .local) :
    execInstructionComplete i.id s = .next ((s.completeItem i).settleItems i.seq) := by
  simp [execInstructionComplete, found, plane, oldest, reached, State.finishItem, owner]

theorem execTileLanding_lands (late : Nat) (plane : i.plane = .tile) (arrived : i.held = false) :
    execTileLanding i.id late s = .next (((s.tileTold i slot late).completeItem i).settleItems i.seq) := by
  simp [execTileLanding, found, plane, oldest, reached, arrived, owner, State.tileTold, State.land_deal]

theorem execMemoryItemComplete_lands (arr : Arrival) (plane : i.plane = .memory) (arrived : i.held = false) (vault : i.vault = none) :
    execMemoryItemComplete i.id arr s = .next (((s.memoryTold i slot arr.slack).completeItem i).settleItems i.seq) := by
  simp [execMemoryItemComplete, found, plane, oldest, reached, arrived, owner, State.mediaFail, vault, State.memoryTold, State.land_deal]

end

/-- The command by which an item that is in time completes. -/
def Item.completion (i : Item) : Instr :=
  match i.plane with
  | .local => .instructionComplete i.id
  | .tile => .tileLanding i.id 0
  | .memory => .memoryItemComplete i.id { slack := 0, mediaFails := [], pcieError := false }

/-- An item behind another of its queue does not complete (R121). -/
theorem exec_completion_waits (behind : s.oldest i = false) : exec i.completion s = .next s := by
  cases plane : i.plane <;> simp only [Item.completion, plane]
  · exact (show execInstructionComplete i.id s = _ by simp [execInstructionComplete, found, behind])
  · exact (show execTileLanding i.id 0 s = _ by simp [execTileLanding, found, behind])
  · exact (show execMemoryItemComplete i.id _ s = _ by simp [execMemoryItemComplete, found, behind])

/-- The oldest item of its queue completes at its cycle: its bytes stand in its store, its post is counted, and nothing else is disturbed (R121, R122, R153). -/
theorem exec_completion_completes {r : StoreRef} {w : StoreWrite} (quiet : FabricQuiet s) (oldest : s.oldest i = true) (one : i.WritesStore slot r w)
    (alone : ∀ l ∈ s.svis.landed, l.cycle ≠ i.done) (due : (if i.plane = .memory then i.done + 1 else i.done) / 64 ≤ s.cad.trick) :
    ∃ t, exec i.completion s = .next t ∧ t.works = (s.works.store r (writeBytes (s.storeCells r) w.addr w.data)).posted i ∧ (s.withoutItem i).Undisturbed t := by
  have reached := State.reached_deal one.owner due
  have arrived := quiet.landed i (List.mem_of_find?_eq_some found)
  have settled : ∀ m : Repair, (State.completeItem { s with repair := m } i).settleItems i.seq = State.completeItem { s with repair := m } i :=
    fun m => (FabricQuiet.completeItem (quiet.of_svis (t := { s with repair := m }) rfl) i).settleItems i.seq
  have completes : ∃ m : Repair, exec i.completion s = .next (State.completeItem { s with repair := m } i) := by
    cases plane : i.plane <;> simp only [Item.completion, plane]
    · exact ⟨s.repair, (execInstructionComplete_completes found oldest reached one.owner plane).trans (congrArg _ (settled _))⟩
    · exact ⟨s.repair, (execTileLanding_lands found oldest reached one.owner 0 plane arrived).trans (congrArg _ (settled _))⟩
    · exact ⟨_, (execMemoryItemComplete_lands found oldest reached one.owner _ plane arrived one.vault).trans (congrArg _ (settled _))⟩
  obtain ⟨m, done⟩ := completes
  have kept := State.completeItem_undisturbed { s with repair := m } i
  exact ⟨_, done, State.works_completeItem (s := { s with repair := m }) one alone, kept.handed, kept.items, kept.programs, kept.causes, kept.seats⟩

end

/-! ## A late item -/

@[simp] theorem State.overrun_svis (s : State) (detail slot die place due : Nat) : (s.overrun detail slot die place due).svis = s.svis := by
  unfold State.overrun; split <;> simp

/-- With no renege in the deal an overrun is a cause (R104). -/
theorem State.overrun_causes (deals : s.dealing = true) (clean : s.svis.reneges = []) (detail slot die place due : Nat) :
    ∃ c ∈ (s.overrun detail slot die place due).dealer.causes, c.rank = 5 ∧ c.detail = detail ∧ c.slot = slot := by
  have registered := State.addCause_dealer { s with repair := { s.repair with overrunSeen := true } } 5 detail slot die place deals
  rw [State.overrun, clean, if_neg (by simp), registered]
  exact ⟨_, List.mem_append_right _ (.head _), rfl, rfl, rfl⟩

/-- An item that lands late lands all the same, and its overrun is a cause of the deal (R177, R179, Table 6.6). -/
theorem State.completeItem_late (quiet : FabricQuiet s) (deals : s.dealing = true) (clean : s.svis.reneges = []) (i : Item) (detail slot die place due word : Nat) :
    ∃ t, ((s.overrun detail slot die place due).completeItem i).settleItems word = t ∧ t.item i.id = none
      ∧ ∃ c ∈ t.dealer.causes, c.rank = 5 ∧ c.detail = detail ∧ c.slot = slot := by
  have still := FabricQuiet.completeItem (quiet.of_svis (s.overrun_svis detail slot die place due)) i
  refine ⟨_, still.settleItems word, State.item_completeItem _ i, ?_⟩
  rw [(State.completeItem_undisturbed _ i).causes]
  exact State.overrun_causes deals clean detail slot die place due

end Sys2Proof.Machine

namespace Sys2Proof.Proofs
open Sys2Proof Sys2Proof.Machine

/-- Settles O24: the oldest item of a queue is completed at its cycle, which moves its store and its post alone; one that is late is told as an overrun before it. -/
theorem itemsComplete : Obligations.ItemsComplete := by
  unfold Obligations.ItemsComplete
  refine ⟨?inTime, ?late⟩
  case inTime =>
    intro i s slot r w quiet found owner hbm reg remote vault writes dsts fits canonical alone due c
    have one : i.WritesStore slot r w := ⟨owner, hbm, reg, remote, vault, writes, dsts, fits⟩
    refine ⟨fun oldest reached _ => ?_, fun oldest reached p post => ?_, fun behind => exec_completion_waits found behind⟩
    · obtain ⟨t, done, works, kept⟩ := exec_completion_completes found quiet oldest one alone reached
      obtain ⟨own, others⟩ := State.storeCells_of_works works
      refine ⟨t, done, fun j => ?_, ?_, fun a outside => ?_, others, (congrArg Works.mem works).trans (Works.posted_mem _ i), kept.seats, kept.causes⟩
      · rw [kept.items]; simp [State.withoutItem]
      · rw [own]; exact readBytes_writeBytes _ _ _ canonical
      · rw [own]; exact cellGet_writeBytes_outside _ _ _ _ canonical outside
    · obtain ⟨t, done, works, kept⟩ := exec_completion_completes found quiet oldest one alone reached
      refine ⟨t, done, (congrArg (fun v => Works.posts v i.core) works).trans (Works.posted_posts _ post), ?_⟩
      rw [(State.storeCells_of_works works).1]
      exact readBytes_writeBytes _ _ _ canonical
  case late =>
    intro i s slot quiet found owner oldest deals clean arrived vault
    refine ⟨fun late plane isLate due => ?_, fun arr plane isLate due => ?_⟩
    · have reached : s.reached i = true := State.reached_deal owner (by simpa [plane] using due)
      have lands := execTileLanding_lands found oldest reached owner late plane arrived
      rw [State.tileTold, if_pos isLate] at lands
      obtain ⟨t, settled, gone, cause⟩ := State.completeItem_late quiet deals clean i 0x20 slot i.die i.latePlace (i.done / 64) i.seq
      exact ⟨t, lands.trans (congrArg _ settled), found, gone, cause⟩
    · have reached : s.reached i = true := State.reached_deal owner (by simpa [plane] using due)
      have lands := execMemoryItemComplete_lands found oldest reached owner arr plane arrived vault
      rw [State.memoryTold, if_pos isLate] at lands
      obtain ⟨t, settled, gone, c, listed, rank, detail, -⟩ :=
        State.completeItem_late quiet deals clean i i.lateDetail (i.lateSlot slot) i.die i.latePlace ((i.done + 1) / 64) i.seq
      exact ⟨t, lands.trans (congrArg _ settled), gone, c, listed, rank, detail⟩

end Sys2Proof.Proofs
end

section
/-!
Lemmas on PCIe windows, open windows and open programs (R114, R117 to R119, R262, R290): when a window's entry changes, what the first trick of an open window and a program's start leave of cores and clusters, that loose DMA moves nothing of the fabric, and what the close of a window leaves of the programs.
-/
namespace Sys2Proof.Machine

variable {s t : State}

/-! ## PCIe windows (R262) -/

/-- The entry of window `w` is `new`, and no change of it waits. -/
def State.withWindow (s : State) (w : Nat) (new : PcieWindow) : State :=
  { s with mem := { s.mem with windows := aset w new s.mem.windows, windowPending := adel w s.mem.windowPending } }

@[simp] theorem State.pcieWindow_withWindow_same (s : State) (w : Nat) (new : PcieWindow) : (s.withWindow w new).pcieWindow w = new := by
  simp [State.pcieWindow, State.withWindow]

theorem State.pcieWindow_withWindow_other (s : State) {w x : Nat} (new : PcieWindow) (other : x ≠ w) : (s.withWindow w new).pcieWindow x = s.pcieWindow x := by
  simp [State.pcieWindow, State.withWindow, aget_aset_other x w new _ other]

/-- A change that waits takes effect with the release of the window's last pinned page. -/
theorem execWindowChangeEffect_stands {w : Nat} {new : PcieWindow} (waits : aget w s.mem.windowPending = some new) (unpinned : s.windowPinned (s.pcieWindow w) = false) :
    execWindowChangeEffect w s = .next (s.withWindow w new) := by
  simp [execWindowChangeEffect, waits, unpinned, State.withWindow]

theorem execWindowChangeEffect_waits {w : Nat} (pinned : s.windowPinned (s.pcieWindow w) = true) : execWindowChangeEffect w s = .next s := by
  unfold execWindowChangeEffect
  cases aget w s.mem.windowPending with
  | none => rfl
  | some new => simp [pinned]

/-- A legal value of an entry that no pin holds stands at once. -/
theorem execPcieWindowWrite_stands {p : Path} {w : Nat} {v : Bytes} (opened : s.gate p 0x2101 (w + 1) true = 0) (window : w < 128) (legal : WindowLegal s w v)
    (unpinned : s.windowPinned (s.pcieWindow w) = false) : execPcieWindowWrite p w v s = .next (s.withWindow w (parseWindow v)).wroteOk := by
  refine State.written_ok opened (odEntry_window window) (Nat.le_of_eq legal.length) ?_
  rw [State.dictWrite_window, State.windowWrite_legal legal]
  simp [unpinned, State.withWindow]

/-! ## Cores and clusters of some dies -/

section
variable {α : Type} (p : Nat → Bool) (f : α → α)

/-- What stands at a key where the values of some keys are mapped. -/
theorem aget_mapAt (k : Nat) (l : List (Nat × α)) :
    aget k (l.map (fun c => if p c.1 then (c.1, f c.2) else c)) = if p k then (aget k l).map f else aget k l := by
  induction l with
  | nil => simp [aget]
  | cons x l ih =>
    by_cases here : x.1 = k
    · subst here
      by_cases mapped : p x.1 <;> simp [aget, mapped]
    · by_cases mapped : p x.1 <;> simp [aget, mapped, here, ih]

/-- An entry whose key is among those mapped holds a mapped value. -/
theorem mapped_of_mem_mapAt {c : Nat × α} {l : List (Nat × α)} (listed : c ∈ l.map (fun c => if p c.1 then (c.1, f c.2) else c)) (key : p c.1 = true) : ∃ d, c.2 = f d := by
  obtain ⟨d, -, rfl⟩ := List.mem_map.mp listed
  by_cases mapped : p d.1
  · exact ⟨d.2, by simp [mapped]⟩
  · simp [mapped] at key

end

section
variable {m : BitVec 8} {f : Core → Core} {g : Cluster → Cluster}

/-- A core of the dies is mapped, one that is not listed too where the map leaves such a core as it is. -/
theorem State.core_onDies {k : Nat} (die : m.getLsbD (coreDie k) = true) (bare : ∀ x, f { store := x } = { store := x }) : (s.onDies m f g).core k = f (s.core k) := by
  have at' : aget k (s.onDies m f g).svis.cores = (aget k s.svis.cores).map f := (aget_mapAt (fun k => m.getLsbD (coreDie k)) f k s.svis.cores).trans (if_pos die)
  rw [State.core, State.core, at']
  cases aget k s.svis.cores with
  | none => exact (bare _).symm
  | some c => rfl

theorem State.cores_onDies {c : Nat × Core} (listed : c ∈ (s.onDies m f g).svis.cores) (die : m.getLsbD (coreDie c.1) = true) : ∃ d, c.2 = f d :=
  mapped_of_mem_mapAt (fun k => m.getLsbD (coreDie k)) f listed die

theorem State.clusters_onDies {c : Nat × Cluster} (listed : c ∈ (s.onDies m f g).svis.clusters) (die : m.getLsbD (ckDie c.1) = true) : ∃ d, c.2 = g d :=
  mapped_of_mem_mapAt (fun k => m.getLsbD (ckDie k)) g listed die

/-- Where the map keeps what a core's streams have come to, the streams of every core are those of one before. -/
theorem State.streams_onDies (keeps : ∀ c, (f c).streams = c.streams) {c : Nat × Core} (listed : c ∈ (s.onDies m f g).svis.cores) :
    ∃ d ∈ s.svis.cores, c.2.streams = d.2.streams := by
  obtain ⟨d, was, rfl⟩ := List.mem_map.mp listed
  refine ⟨d, was, ?_⟩
  split
  · exact keeps d.2
  · rfl

end

/-! ## Marked lines (R290) -/

/-- A zero written over any byte reads zero, and elsewhere a byte that reads zero stays. -/
theorem cellGet_writeZeros {c : List Host.Cell} (canonical : cellsAbove none c = true) (a n b : Nat) (zero : cellGet b c = 0 ∨ (a ≤ b ∧ b < a + n)) :
    cellGet b (writeBytes c a (List.replicate n 0)) = 0 := by
  induction n generalizing c a with
  | zero =>
    obtain was | inside := zero
    · exact was
    · omega
  | succ n ih =>
    rw [List.replicate_succ, writeBytes]
    refine ih (cellSet_keeps a 0 none c canonical trivial) (a + 1) ?_
    by_cases here : b = a
    · subst here
      exact .inl (cellGet_cellSet_same b 0 none c canonical)
    · rw [cellGet_cellSet_other a b 0 none c canonical here]
      exact zero.imp_right fun inside => by omega

theorem zeroMarked_cons (c : List Host.Cell) (l : Nat) (marks : List Nat) :
    zeroMarked c (l :: marks) = zeroMarked (writeBytes c (64 * l) (List.replicate 64 0)) marks := List.foldl_cons ..

/-- Every byte of a marked line reads zero. -/
theorem cellGet_zeroMarked {marks : List Nat} {l i : Nat} (byte : i < 64) : ∀ {c : List Host.Cell}, cellsAbove none c = true →
    cellGet (64 * l + i) c = 0 ∨ l ∈ marks → cellGet (64 * l + i) (zeroMarked c marks) = 0 := by
  induction marks with
  | nil => intro c _ zero; exact zero.elim id nofun
  | cons m marks ih =>
    intro c canonical zero
    rw [zeroMarked_cons]
    refine ih (writeBytes_keeps c _ _ canonical) ?_
    by_cases here : l = m
    · subst here
      exact .inl (cellGet_writeZeros canonical _ _ _ (.inr (by omega)))
    · refine zero.imp (fun was => cellGet_writeZeros canonical _ _ _ (.inl was)) fun marked => ?_
      exact (List.mem_cons.mp marked).resolve_left here

/-- The store of a core of a canonical device is canonical where it holds marked lines. -/
theorem State.core_canonical (canonical : ∀ c ∈ s.svis.cores, cellsAbove none c.2.store = true) {k l : Nat} (marked : l ∈ (s.core k).marks) :
    cellsAbove none (s.core k).store = true := by
  have listed : ∀ cores : List (Nat × Core), (∀ c ∈ cores, cellsAbove none c.2.store = true) → ∀ c, aget k cores = some c → cellsAbove none c.store = true := by
    intro cores
    induction cores with
    | nil => exact fun _ _ absent => nomatch absent
    | cons x cores ih =>
      intro canonical c found
      unfold aget at found
      split at found
      · obtain rfl := Option.some.inj found
        exact canonical x (.head cores)
      · exact ih (fun c listed => canonical c (.tail x listed)) c found
  unfold State.core at marked ⊢
  cases found : aget k s.svis.cores with
  | none => simp [found] at marked
  | some c => exact listed _ canonical c found

/-! ## Loose DMA moves nothing of the fabric (R266) -/

/-- The fabric, all but the count of bytes that loose DMA has moved, and the seats. -/
structure Fixtures where
  svis : Svis
  seats : List (Nat × Seat)

def State.fixtures (s : State) : Fixtures := { svis := { s.svis with winMoved := 0 }, seats := s.seats }

theorem State.core_of_fixtures (same : t.fixtures = s.fixtures) : t.core = s.core := by
  have cores : t.svis.cores = s.svis.cores := congrArg (fun v => v.svis.cores) same
  have lost : t.svis.lost = s.svis.lost := congrArg (fun v => v.svis.lost) same
  funext k
  rw [State.core, State.core, cores, lost]

@[simp] theorem State.kittyDrop_fixtures (s : State) (die line : Nat) : (s.kittyDrop die line).fixtures = s.fixtures := by
  unfold State.kittyDrop; split <;> rfl

@[simp] theorem State.beginEvict_fixtures (s : State) (die line : Nat) : (s.beginEvict die line).fixtures = s.fixtures := by
  unfold State.beginEvict
  split
  · rfl
  · split <;> rfl

@[simp] theorem State.kittyAccess_fixtures (s : State) (die line : Nat) : (s.kittyAccess die line).fixtures = s.fixtures := by
  unfold State.kittyAccess
  dsimp only
  split
  · rfl
  · split
    · exact State.beginEvict_fixtures _ _ _
    · rfl

@[simp] theorem State.setDir_fixtures (s : State) (line : Nat) (d : DirState) : (s.setDir line d).fixtures = s.fixtures := rfl

@[simp] theorem State.evicted_fixtures (s : State) (line die : Nat) : (s.evicted line die).fixtures = s.fixtures := rfl

@[simp] theorem State.crossings_fixtures (s : State) (line : Nat) (l : List Nat) : (l.foldl (fun s d => s.crossing line d) s).fixtures = s.fixtures :=
  foldl_keeps State.fixtures (fun s d => by rfl) l s

@[simp] theorem State.kittyDrops_fixtures (s : State) (line : Nat) (l : List Nat) : (l.foldl (fun s d => s.kittyDrop d line) s).fixtures = s.fixtures :=
  foldl_keeps State.fixtures (fun s d => s.kittyDrop_fixtures d line) l s

@[simp] theorem State.scRequest_fixtures (s : State) (a : CohAgent) (wr : Bool) (line : Nat) : (s.scRequest a wr line).fixtures = s.fixtures := by
  cases a <;> simp [State.scRequest, apply_ite State.fixtures]

@[simp] theorem State.memLine_fixtures (s : State) (a : CohAgent) (wr : Bool) (pa : Nat) : (s.memLine a wr pa).fixtures = s.fixtures := by
  unfold State.memLine
  split
  · rfl
  · split <;> simp

@[simp] theorem translate_fixtures (s : State) (ctx va : Nat) : (translate s ctx va).2.fixtures = s.fixtures := by
  unfold translate
  split
  · rfl
  · dsimp only; split <;> rfl

@[simp] theorem translateFor_fixtures (s : State) (ctx va : Nat) (wr : Bool) : (translateFor s ctx va wr).2.fixtures = s.fixtures := by
  have walked := translate_fixtures s ctx va
  unfold translateFor
  split <;> next found => rw [found] at walked; exact walked

theorem State.ldmaRead_fixtures (s : State) (acct : Nat) (d : LdmaDesc) (va : Nat) (host : Bytes) (fails : Bool) : (s.ldmaRead acct d va host fails).2.fixtures = s.fixtures := by
  have walked := translateFor_fixtures s acct va false
  unfold State.ldmaRead
  split
  · rfl
  · split
    next found => rw [found] at walked; exact walked
    next found =>
      rw [found] at walked
      split
      · split <;> exact walked
      · dsimp only
        split <;> exact (State.memLine_fixtures _ _ _ _).trans walked

theorem State.ldmaWrite_fixtures (s : State) (acct : Nat) (d : LdmaDesc) (va : Nat) (b : Bytes) : (s.ldmaWrite acct d va b).2.fixtures = s.fixtures := by
  have walked := translateFor_fixtures s acct va true
  unfold State.ldmaWrite
  split
  · rfl
  · split
    next found => rw [found] at walked; exact walked
    next found =>
      rw [found] at walked
      split
      · exact walked
      · split
        · exact (State.memLine_fixtures _ _ _ _).trans walked
        · exact walked

theorem State.notePcie_fixtures (s : State) (acct n : Nat) : (s.notePcie acct n).fixtures = s.fixtures := by
  unfold State.notePcie; split <;> rfl

theorem State.noteMoved_fixtures (s : State) : s.noteMoved.fixtures = s.fixtures := by
  unfold State.noteMoved; split <;> rfl

theorem State.ldmaCpl_fixtures (s : State) (q : Nat) (x : LdmaQueue) (status bytes addr : Nat) : (s.ldmaCpl q x status bytes addr).fixtures = s.fixtures := by
  simp [State.ldmaCpl, State.fixtures]

theorem State.setQueue_fixtures (s : State) (q : Nat) (x : LdmaQueue) : (s.setQueue q x).fixtures = s.fixtures := rfl

theorem State.descDone_fixtures (s : State) (q : Nat) : (s.descDone q).fixtures = s.fixtures := by
  unfold State.descDone
  dsimp only
  rw [State.setQueue_fixtures]
  split
  · exact State.ldmaCpl_fixtures _ _ _ _ _ _
  · rfl

theorem State.descHit_fixtures (s : State) (q code addr : Nat) : (s.descHit q code addr).fixtures = s.fixtures := rfl

/-- A turn of a queue moves at most one line and its own descriptor. -/
theorem State.moveLine_fixtures (s : State) (q : Nat) : (s.moveLine q).fixtures = s.fixtures := by
  unfold State.moveLine
  dsimp only
  split
  next acct host fails _ _ =>
    split
    · exact s.descDone_fixtures q
    · split
      next found =>
        have read := congrArg (fun r => r.2.fixtures) found
        exact read.symm.trans (s.ldmaRead_fixtures ..)
      next b u found =>
        have read : u.fixtures = s.fixtures := (congrArg (fun r => r.2.fixtures) found).symm.trans (s.ldmaRead_fixtures ..)
        split
        next found =>
          have written := congrArg (fun r => r.2.fixtures) found
          exact (written.symm.trans (u.ldmaWrite_fixtures ..)).trans read
        next v found =>
          have written : v.fixtures = u.fixtures := (congrArg (fun r => r.2.fixtures) found).symm.trans (u.ldmaWrite_fixtures ..)
          have noted : ∀ b : Bool, (if b then v.notePcie acct 64 else v).fixtures = s.fixtures := fun b => by
            split
            · exact ((v.notePcie_fixtures _ _).trans written).trans read
            · exact written.trans read
          split
          · exact (State.descDone_fixtures _ _).trans ((State.noteMoved_fixtures _).trans (noted _))
          · exact (State.noteMoved_fixtures _).trans (noted _)
  · rfl

theorem State.moveTurns_fixtures (n : Nat) : ∀ s : State, (s.moveTurns n).fixtures = s.fixtures := by
  induction n with
  | zero => exact fun _ => rfl
  | succ n ih =>
    intro s
    unfold State.moveTurns
    split
    · rfl
    · exact (ih _).trans (s.moveLine_fixtures _)

theorem State.moveLoose_fixtures (s : State) : s.moveLoose.fixtures = s.fixtures := by
  unfold State.moveLoose
  split
  · exact State.moveTurns_fixtures _ s
  · rfl

/-- Where no queue has a descriptor in hand nothing moves. -/
theorem State.moveLoose_still (still : ∀ y ∈ s.ldma, y.2.hand = none) : s.moveLoose = s := by
  have unserved : s.nextQueue = none := by
    have idle : s.ldma.filter (fun x => x.2.moving) = [] := List.filter_eq_nil_iff.mpr fun y listed => by simp [LdmaQueue.moving, still y listed]
    simp [State.nextQueue, idle]
  have turns : ∀ n, s.moveTurns n = s := fun n => by
    cases n with
    | zero => rfl
    | succ n => simp [State.moveTurns, unserved]
  unfold State.moveLoose
  split
  · exact turns _
  · rfl

/-! ## The close of a window (R117, R118) -/

/-- A store that takes other bytes, while free values are drawn. -/
theorem State.setCoreStore_undisturbed (s : State) (k n : Nat) (cells : List Host.Cell) (marks : List Nat) :
    s.Undisturbed { s.setCore k { s.core k with store := cells, marks } with fresh := n } :=
  (s.setCore_undisturbed (c := { s.core k with store := cells, marks }) rfl).trans ⟨id, rfl, rfl, rfl, rfl⟩

theorem State.setCstoreStore_undisturbed (s : State) (k n : Nat) (c : Cluster) : s.Undisturbed { s.setCstore k c with fresh := n } := ⟨id, rfl, rfl, rfl, rfl⟩

theorem State.loseStores_undisturbed (s : State) (info : NativeInfo) : s.Undisturbed (s.loseStores info) := by
  unfold State.loseStores
  refine .trans (.foldl ?core s _) (.foldl ?cluster _ _)
  case core => exact fun s k => s.setCoreStore_undisturbed k (s.fresh + 8192) (freeCells s.fresh 8192) []
  case cluster => exact fun s k => s.setCstoreStore_undisturbed k (s.fresh + 262144) { s.cstore k with store := freeCells s.fresh 262144, marks := [] }

theorem State.finishOf_keeps (s : State) (id : Nat) : (s.finishOf id).svis.programs = s.svis.programs ∧ (s.finishOf id).seats = s.seats :=
  ⟨foldl_keeps (fun s : State => s.svis.programs) (fun s i => (s.completeItem_undisturbed i).programs) _ s,
   foldl_keeps State.seats (fun s i => (s.completeItem_undisturbed i).seats) _ s⟩

/-- A program that is stopped is gone, and no other. -/
theorem State.stopProgram_programs (s : State) (id status word : Nat) : (s.stopProgram id status word).svis.programs = s.svis.programs.filter (·.id ≠ id) := by
  unfold State.stopProgram
  split
  next absent => exact (List.filter_eq_self.mpr (by simpa [State.openProgram] using absent)).symm
  next => simp [State.dropProgram]

theorem State.stopProgram_seats (s : State) (id status word : Nat) : (s.stopProgram id status word).seats = s.seats := by
  unfold State.stopProgram
  split
  · rfl
  · simp [State.dropProgram]

/-- A running program as its window's close finds it: what it issued completes, it stops with WINDOW_END or the fault it met, and its stores are lost. -/
def State.closeProgram (s : State) (p : Program) : State :=
  State.loseStores (match p.fault with
    | some (status, w, _, _, _) => (s.finishOf p.id).stopProgram p.id status w
    | none => (s.finishOf p.id).stopAt p.id 0x04) p.info

theorem State.closeWindow_eq (s : State) :
    s.closeWindow = { (s.svis.programs.filter (fun p => p.start.isSome)).foldl State.closeProgram s with
      svis := { ((s.svis.programs.filter (fun p => p.start.isSome)).foldl State.closeProgram s).svis with openWin := none } } := rfl

theorem State.closeProgram_keeps (s : State) (p : Program) :
    (s.closeProgram p).svis.programs = s.svis.programs.filter (·.id ≠ p.id) ∧ (s.closeProgram p).seats = s.seats := by
  obtain ⟨programs, seats⟩ := s.finishOf_keeps p.id
  have lost := fun u : State => u.loseStores_undisturbed p.info
  unfold State.closeProgram
  rw [(lost _).programs, (lost _).seats, ← programs, ← seats]
  split
  · exact ⟨State.stopProgram_programs _ _ _ _, State.stopProgram_seats _ _ _ _⟩
  · exact ⟨State.stopProgram_programs _ _ _ _, State.stopProgram_seats _ _ _ _⟩

theorem State.closePrograms_programs {q : Program} (l : List Program) : ∀ {s : State}, q ∈ (l.foldl State.closeProgram s).svis.programs →
    q ∈ s.svis.programs ∧ ∀ p ∈ l, q.id ≠ p.id := by
  induction l with
  | nil => exact fun listed => ⟨listed, nofun⟩
  | cons p l ih =>
    intro s listed
    obtain ⟨was, apart⟩ := ih listed
    rw [(s.closeProgram_keeps p).1] at was
    obtain ⟨was, other⟩ := List.mem_filter.mp was
    exact ⟨was, List.forall_mem_cons.mpr ⟨of_decide_eq_true other, apart⟩⟩

/-- No running program outlives its window. -/
theorem State.closeWindow_programs (s : State) : ∀ p ∈ s.closeWindow.svis.programs, p.start = none := by
  intro p listed
  obtain ⟨was, apart⟩ := State.closePrograms_programs _ listed
  by_contra runs
  exact apart p (List.mem_filter.mpr ⟨was, Option.isSome_iff_ne_none.mpr runs⟩) rfl

theorem State.closeWindow_seats (s : State) : s.closeWindow.seats = s.seats :=
  foldl_keeps State.seats (fun s p => (s.closeProgram_keeps p).2) _ s

/-- With no program running the window's close is no more than that. -/
theorem State.closeWindow_idle (idle : ∀ p ∈ s.svis.programs, p.start = none) : s.closeWindow = { s with svis := { s.svis with openWin := none } } := by
  have nothing : s.svis.programs.filter (fun p => p.start.isSome) = [] := List.filter_eq_nil_iff.mpr fun p listed => by simp [idle p listed]
  rw [State.closeWindow_eq, nothing]
  rfl

theorem execOpenWindowEnd_closes {w : Window0} (opened : s.svis.openWin = some w) (last : w.stop ≤ s.cad.trick) : execOpenWindowEnd s = .next s.closeWindow := by
  simp [execOpenWindowEnd, opened, last]

/-! ## The first trick of a window (R114, R290) -/

/-- The window is in progress, nothing has moved in it, and the marked lines of its dies are zero. -/
def State.windowOpened (s : State) (w : Window0) : State :=
  State.onDies { s with svis := { s.svis with openWin := some w, winMoved := 0 } } w.dieMask Core.zeroMarks Cluster.zeroMarks

theorem execOpenWindowStart_opens {w : Window0} (deals : s.dealing = true) (now : s.windowNow = some w) (shut : s.svis.openWin = none)
    (idle : ∀ p ∈ s.svis.programs, p.start = none) : execOpenWindowStart s = .next (s.windowOpened w).moveLoose := by
  simp only [execOpenWindowStart, deals, now, shut, State.closeWindow_idle idle]
  rfl

/-- Every byte of a line that was marked reads zero once the window is open. -/
theorem State.windowOpened_zeroes {w : Window0} {k l i : Nat} (die : w.dieMask.getLsbD (coreDie k) = true) (canonical : ∀ c ∈ s.svis.cores, cellsAbove none c.2.store = true)
    (marked : l ∈ (s.core k).marks) (byte : i < 64) : cellGet (64 * l + i) ((s.windowOpened w).core k).store = 0 := by
  have zeroed : (s.windowOpened w).core k = (s.core k).zeroMarks := State.core_onDies die fun _ => rfl
  rw [zeroed]
  exact cellGet_zeroMarked byte (State.core_canonical canonical marked) (.inr marked)

/-! ## The start of an open program (R119) -/

/-- A program none of whose streams has been taken up by a core has not finished. -/
theorem State.programFinished_of_unbegun {p : Program} (cores : 0 < (p.info.streams.map streamCores).sum)
    (unbegun : ∀ c ∈ s.svis.cores, ∀ q ∈ c.2.streams, ownedBy p.id q.owner = false) : s.programFinished p = false := by
  have nothing : s.svis.cores.flatMap (fun c => (c.2.streams.filter (fun q => ownedBy p.id q.owner && q.finished (p.words q.stream)
      && (q.ended || !s.svis.items.any (fun i => i.core = c.1 && ownedBy p.id i.owner))))) = [] :=
    List.flatMap_eq_nil_iff.mpr fun c listed => List.filter_eq_nil_iff.mpr fun q taken => by simp [unbegun c listed q taken]
  simp [State.programFinished, nothing, Nat.ne_of_lt cores]

/-- Where no running program has met a fault or is done, none ends. -/
theorem State.endPrograms_none (word : Nat) (goes : ∀ p ∈ s.svis.programs, p.start.isSome = true → p.fault = none ∧ s.programFinished p = false) :
    s.endPrograms word = s := by
  refine List.foldlRecOn _ _ (motive := (· = s)) rfl fun u same p listed => ?_
  obtain ⟨listed, runs⟩ := List.mem_filter.mp listed
  obtain ⟨sound, unfinished⟩ := goes p listed runs
  simp [same, sound, unfinished]

/-- The head program runs from the trick in progress, and the cores of its dies stand as a program finds them. -/
def State.programStarted (s : State) (p : Program) (rest : List Program) : State :=
  State.onDies { s with svis := { s.svis with programs := { p with start := some s.cad.trick } :: rest } } p.dieMask Core.atProgram (fun c => { c with regions := [] })

theorem execOpenProgramStart_starts {w : Window0} {p : Program} {rest : List Program} (opened : s.svis.openWin = some w) (head : s.svis.programs = p :: rest)
    (admits : w.programs = true) (waits : p.start = none) (sound : p.fault = none) (before : p.takenPs < w.beganPs) (dies : p.dieMask &&& ~~~w.dieMask = 0)
    (open' : s.cad.trick < w.stop) (cores : 0 < (p.info.streams.map streamCores).sum) (unbegun : ∀ c ∈ s.svis.cores, ∀ q ∈ c.2.streams, ownedBy p.id q.owner = false)
    (behind : ∀ q ∈ rest, q.start = none) : execOpenProgramStart s = .next (s.programStarted p rest) := by
  have unfinished : (s.programStarted p rest).programFinished { p with start := some s.cad.trick } = false :=
    State.programFinished_of_unbegun cores fun c listed q taken => by
      obtain ⟨d, was, same⟩ := State.streams_onDies (f := Core.atProgram) (fun _ => rfl) listed
      exact unbegun d was q (same ▸ taken)
  have goes : (s.programStarted p rest).endPrograms 0 = s.programStarted p rest := State.endPrograms_none 0 fun q listed runs => by
    obtain rfl | listed := List.mem_cons.mp listed
    · exact ⟨sound, unfinished⟩
    · simp [behind q listed] at runs
  have may : ¬(!w.programs || p.start.isSome || w.beganPs ≤ p.takenPs || (p.dieMask &&& ~~~w.dieMask) ≠ 0 || w.stop ≤ s.cad.trick) = true := by
    simp [admits, waits, before, dies, open']
  unfold execOpenProgramStart
  split
  next v q behind found listed =>
    obtain rfl := Option.some.inj (opened.symm.trans found)
    obtain ⟨rfl, rfl⟩ := List.cons.inj (head.symm.trans listed)
    rw [if_neg may]
    exact congrArg Host.Outcome.next goes
  next neither => exact absurd head (neither w p rest opened)

theorem State.programStarted_core {p : Program} {rest : List Program} {k : Nat} (die : p.dieMask.getLsbD (coreDie k) = true) :
    (s.programStarted p rest).core k = (s.core k).atProgram := State.core_onDies die fun _ => rfl

end Sys2Proof.Machine

namespace Sys2Proof.Proofs
open Sys2Proof Sys2Proof.Machine

/-- Settles O37: each command is the one change its lemma names, and what it leaves follows from the maps on the cores of the dies and from the fold over the running programs. -/
theorem windowsOpenAndClose : Obligations.WindowsOpenAndClose := by
  unfold Obligations.WindowsOpenAndClose
  refine ⟨?effect, ?write, ?opens, ?program, ?close⟩
  case effect => exact fun w new s waits => ⟨execWindowChangeEffect_stands waits, execWindowChangeEffect_waits⟩
  case write =>
    intro p w v s opened window length clean unpinned range apart
    exact ⟨_, execPcieWindowWrite_stands opened window ⟨length, clean, range, apart⟩ unpinned, s.pcieWindow_withWindow_same w _,
      fun x other => s.pcieWindow_withWindow_other _ other, aget_adel_same w _, rfl, rfl, rfl, rfl⟩
  case opens =>
    intro s w deals now shut idle
    have fixed := (s.windowOpened w).moveLoose_fixtures
    have cores : (s.windowOpened w).moveLoose.svis.cores = (s.windowOpened w).svis.cores := congrArg (fun v => v.svis.cores) fixed
    have clusters : (s.windowOpened w).moveLoose.svis.clusters = (s.windowOpened w).svis.clusters := congrArg (fun v => v.svis.clusters) fixed
    refine ⟨_, execOpenWindowStart_opens deals now shut idle, congrArg (fun v => v.svis.openWin) fixed, fun c listed die => ?_, fun c listed die => ?_,
      fun k die canonical l marked i byte => ?_, fun still => (congrArg State.mem (State.moveLoose_still (s := s.windowOpened w) still) :), congrArg Fixtures.seats fixed⟩
    · obtain ⟨d, zeroed⟩ := State.cores_onDies (cores ▸ listed) die
      rw [zeroed]; rfl
    · obtain ⟨d, zeroed⟩ := State.clusters_onDies (clusters ▸ listed) die
      rw [zeroed]; rfl
    · rw [State.core_of_fixtures fixed]
      exact State.windowOpened_zeroes die canonical marked byte
  case program =>
    intro s w p rest opened head admits waits sound before dies open' cores unbegun behind
    refine ⟨_, execOpenProgramStart_starts opened head admits waits sound before dies open' cores unbegun behind, rfl, fun k die => ?_, rfl, rfl⟩
    rw [State.programStarted_core die]
    exact ⟨rfl, rfl, rfl, rfl⟩
  case close =>
    exact fun s w opened last => ⟨_, execOpenWindowEnd_closes opened last, rfl, s.closeWindow_programs, s.closeWindow_seats⟩

end Sys2Proof.Proofs
end

section
/-!
Lemmas on defects found in deal tricks (Table 12.5, R188, R189, R240, R301, R348, R359, R590): the check and the cause that each one adds to a deal in progress.
-/
namespace Sys2Proof.Machine

variable {s : State}

/-! ## What a cause and a check change of a deal in progress -/

theorem DealRuns.inDealTricks (runs : DealRuns s) : s.inDealTricks = true := by
  obtain ⟨n, left, tricks⟩ := runs.tricks
  simp [State.inDealTricks, runs.dealing, left, tricks]

theorem DealRuns.inOpenWindow (runs : DealRuns s) (die : Nat) : s.inOpenWindow die = false := by
  simp [State.inOpenWindow, runs.closed]

/-- Before its decision and T(L−64), outside groups, what is found belongs to the deal in progress (R26). -/
theorem DealRuns.causeDeal (runs : DealRuns s) : s.causeDeal = s.cad.deal := by
  obtain ⟨n, left, tricks⟩ := runs.tricks
  have early : ¬ n < 64 := by omega
  simp [State.causeDeal, State.inGroup, runs.alone, left, runs.undecided, early]

theorem DealRuns.addCheck (runs : DealRuns s) (u : UnitRef) (rank detail : Nat) : s.addCheck u rank detail = s.withCheck u rank detail := by
  simp [State.addCheck, State.withCheck, runs.causeDeal, runs.dealing]

/-- Outside groups no notice is sent: the deal has one more cause, of member 0, and nothing else changes. -/
theorem DealRuns.addCause (runs : DealRuns s) (rank detail die place : Nat) : s.addCause rank detail 0xFFF die place = s.withCause rank detail die place := by
  have member : s.member = 0 := by simp [State.member, runs.alone]
  simp [State.addCause, State.addCauseAt, State.sendNotice, State.withCause, runs.dealing, runs.causeDeal, runs.alone, member]

/-- Whether deal tricks run is read off the clock, the open window and the group alone. -/
theorem DealRuns.of_clock {t : State} (runs : DealRuns s) (cad : t.cad = s.cad) (openWin : t.svis.openWin = s.svis.openWin) (group : t.group = s.group) : DealRuns t where
  dealing := by rw [State.dealing, cad]; exact runs.dealing
  tricks := by rw [State.left, cad]; exact runs.tricks
  undecided := by rw [cad]; exact runs.undecided
  closed := by rw [openWin]; exact runs.closed
  alone := by rw [group]; exact runs.alone

/-- A defect with a check adds that check and its cause to the deal (R348). -/
theorem DealRuns.addCheck_addCause (runs : DealRuns s) (u : UnitRef) (rank detail die place : Nat) :
    (s.addCheck u rank detail).addCause rank detail 0xFFF die place = (s.withCheck u rank detail).withCause rank detail die place := by
  rw [runs.addCheck, (runs.of_clock rfl rfl rfl : DealRuns (s.withCheck u rank detail)).addCause]

/-! ## The defects -/

/-- A defect at a cluster (R188, R240). -/
theorem DealRuns.defect (runs : DealRuns s) (u : UnitRef) (detail die row col : Nat) :
    s.defect u detail die row col = (s.withCheck u 3 detail).withCause 3 detail die (placeCluster die row col) := by
  simp only [State.defect, runs.inOpenWindow, runs.inDealTricks, runs.addCheck_addCause, if_true, Bool.false_eq_true, if_false]

/-- A parity error of the Felt, counted besides (R189). -/
theorem DealRuns.felt (runs : DealRuns s) (u : UnitRef) (detail die place : Nat) (crosses : Item → Bool) :
    s.felt u detail die place crosses = (s.moreParity.withCheck u 3 detail).withCause 3 detail die place := by
  have counted : DealRuns s.parityCount := runs.of_clock rfl rfl rfl
  simp only [State.felt, counted.inOpenWindow, counted.inDealTricks, counted.addCheck_addCause, if_true, Bool.false_eq_true, if_false]
  rfl

/-- A read of a block of image `image` has failed on a die, in the deal in progress (Table 10.7). -/
def State.vaultFailed (s : State) (image die block : Nat) : State :=
  { s with
    vault := { s.vault with failures := s.vault.failures + 1 }
    dealer := { s.dealer with vaultFails := s.dealer.vaultFails ++ [{ deal := s.cad.deal, image, die, block, detail := 0x52 }] } }

/-- A vault port error is besides counted and kept as a failed read of the running form's image (R301). -/
theorem execVaultPort_misdeals (runs : DealRuns s) {f : Form} (form : s.codeForm = some f) (image : f.weightImage ≠ 0) (die block : Nat) :
    execVaultPort die block s = .next (((s.vaultFailed f.weightImage die block).withCheck (.vaultPort die) 7 0x52).withCause 7 0x52 die (placeDie die)) := by
  have failed : DealRuns (s.vaultFailed f.weightImage die block) := runs.of_clock rfl rfl rfl
  rw [← failed.addCheck_addCause]
  simp only [execVaultPort, runs.inDealTricks, form, image, runs.causeDeal, Bool.not_true, Bool.false_eq_true, if_false, State.vaultFailed]

/-- A droop of more than 20 ns on a die that is not lost has a cause and no check (R590). -/
theorem execDroop_misdeals (runs : DealRuns s) {die ns : Nat} (long : 20 < ns) (alive : s.deck die ≠ 2) : execDroop die ns s = .next (s.withCause 3 0x38 die (placeDie die)) := by
  simp [execDroop, long, runs.inDealTricks, alive, runs.addCause]

theorem execDroop_short {die ns : Nat} (short : ns ≤ 20) : execDroop die ns s = .next s := by
  simp [execDroop, Nat.not_lt.mpr short]

/-- The deal of the latest hub defect is the one in progress (R359). -/
def State.hubDefectSeen (s : State) : State := { s with repair := { s.repair with hubDefectDeal := some s.cad.deal } }

/-- The first hub defect is remembered, and has a cause and no check (R359). -/
theorem execHubDefect_misdeals (runs : DealRuns s) (first : s.repair.hubDefectDeal = none) :
    execHubDefect s = .next (s.hubDefectSeen.withCause 3 0x37 8 (placeDie 8)) := by
  have seen : DealRuns s.hubDefectSeen := runs.of_clock rfl rfl rfl
  rw [← seen.addCause]
  simp only [execHubDefect, first, Bool.false_eq_true, if_false, State.hubDefectSeen]

end Sys2Proof.Machine

namespace Sys2Proof.Proofs
open Sys2Proof Sys2Proof.Machine

/-- Settles O30: in deal tricks each defect is a check and a cause of the deal in progress, of the unit, detail and place its command names. -/
theorem defectsMisdealTheDeal : Obligations.DefectsMisdealTheDeal := by
  unfold Obligations.DefectsMisdealTheDeal
  intro s runs
  refine ⟨?coreStore, ?clusterStore, fun _ _ => rfl, ?link, ?gateway, ?table, fun _ _ _ => rfl, ?sfu, ?vault, ?droop, ?shortDroop, ?hub⟩
  case coreStore => exact fun d r c k _ => congrArg Host.Outcome.next (runs.defect (.coreStore d r c k) 0x30 d r c)
  case clusterStore => exact fun d r c _ => congrArg Host.Outcome.next (runs.defect (.clusterStore d r c) 0x30 d r c)
  case link => exact fun d r c => congrArg Host.Outcome.next (runs.felt (.router d r c) 0x31 d (placeCluster d r c) _)
  case gateway => exact fun d r => congrArg Host.Outcome.next (runs.felt (.gateway d r) 0x32 d (placeCluster d r 0) _)
  case table => exact fun d r c => congrArg Host.Outcome.next (runs.defect (.table d r c) 0x33 d r c)
  case sfu => exact fun d r c => congrArg Host.Outcome.next (runs.defect (.sfu d r c) 0x36 d r c)
  case vault => exact fun d b f form image => execVaultPort_misdeals runs form image d b
  case droop => exact fun d ns long alive => execDroop_misdeals runs long alive
  case shortDroop => exact fun d ns short => execDroop_short short
  case hub => exact execHubDefect_misdeals runs

end Sys2Proof.Proofs
end

section
/-!
Lemmas on the float formats: a finite pattern's value is one its format holds, so every rounding gives the pattern's own magnitude (R190, R192, R197).
-/
namespace Sys2Proof.Machine

/-! ## A pattern and its fields (R190) -/

theorem bits_concat (p lo w : Nat) : bits p 0 (w + lo) = bits p lo w * 2 ^ lo + bits p 0 lo := by
  rw [bits, bits, bits, pow_zero, Nat.div_one, Nat.add_comm w, pow_add, Nat.mod_mul, Nat.mul_comm, Nat.add_comm]

theorem boolNat_bit (p i : Nat) : boolNat (bit p i) = bits p i 1 := by
  have : bits p i 1 < 2 := Nat.mod_lt _ (by decide)
  simp only [boolNat, bit, decide_eq_true_eq]
  split <;> omega

/-- A pattern is its sign bit above its magnitude. -/
theorem FloatFmt.signed_bits (f : FloatFmt) {p : Nat} (fits : p < 2 ^ f.width) :
    f.signed (bit p (f.exp + f.frac)) (bits p 0 (f.exp + f.frac)) = p := by
  have whole : bits p 0 (1 + (f.exp + f.frac)) = p := by
    rw [bits, pow_zero, Nat.div_one, ← Nat.add_assoc]
    exact Nat.mod_eq_of_lt fits
  rw [FloatFmt.signed, boolNat_bit, ← bits_concat, whole]

/-- How many magnitudes of a format are finite: those below ∞, where it has one, else all but a NaN of ones (Tables 7.1, 7.2). -/
def FloatFmt.finites (f : FloatFmt) : Nat :=
  if f.hasInf then (2 ^ f.exp - 1) * 2 ^ f.frac else if f.nan.isSome then 2 ^ (f.exp + f.frac) - 1 else 2 ^ (f.exp + f.frac)

theorem floatOf_finites {code : Nat} {f : FloatFmt} (format : floatOf code = some f) : f.finites = f.maxMag + 1 := by
  unfold floatOf at format
  split at format <;> cases format <;> rfl

/-! ## A finite pattern is the magnitude its value rounds to (R192) -/

/-- A mantissa whose last place is the format's keeps every bit. -/
theorem FloatFmt.roundMag_exact (f : FloatFmt) (rnd : Nat) (neg : Bool) {m : Nat} {e : Int} (nonzero : m ≠ 0)
    (lastPlace : max ((lead m : Int) + e - f.frac) (1 - f.bias - f.frac) = e) :
    f.roundMag rnd neg m e = (e - (1 - f.bias - f.frac)).toNat * 2 ^ f.frac + m := by
  simp [FloatFmt.roundMag, nonzero, lastPlace]

theorem FloatFmt.roundMag_subnormal (f : FloatFmt) (rnd : Nat) (neg : Bool) {q : Nat} (narrow : q < 2 ^ f.frac) :
    f.roundMag rnd neg q (1 - f.bias - f.frac) = q := by
  by_cases zero : q = 0
  · simp [FloatFmt.roundMag, zero]
  · have low : lead q < f.frac := (Nat.log2_lt zero).mpr narrow
    simp [f.roundMag_exact rnd neg zero (max_eq_right (by omega))]

theorem lead_normal {frac q : Nat} (narrow : q < 2 ^ frac) : lead (2 ^ frac + q) = frac :=
  (Nat.log2_eq_iff (by have := Nat.two_pow_pos frac; omega)).mpr ⟨Nat.le_add_right _ _, by rw [pow_succ]; omega⟩

theorem FloatFmt.roundMag_normal (f : FloatFmt) (rnd : Nat) (neg : Bool) {x q : Nat} (narrow : q < 2 ^ f.frac) (normal : x ≠ 0) :
    f.roundMag rnd neg (2 ^ f.frac + q) (x - f.bias - f.frac) = x * 2 ^ f.frac + q := by
  obtain ⟨y, rfl⟩ := Nat.exists_eq_succ_of_ne_zero normal
  have nonzero : 2 ^ f.frac + q ≠ 0 := by have := Nat.two_pow_pos f.frac; omega
  have lead := lead_normal narrow
  have binades : (((y.succ : Nat) : Int) - f.bias - f.frac - (1 - f.bias - f.frac)).toNat = y := by omega
  rw [f.roundMag_exact rnd neg nonzero (by rw [lead]; omega), binades, Nat.succ_mul, Nat.add_assoc]

/-- A finite pattern is neither ∞ or NaN of a format with ∞ nor the NaN of ones of one without, and reads as a subnormal or a normal. -/
theorem FloatFmt.decode_of_finite (f : FloatFmt) {p : Nat} (finite : (f.decode p).isFinite = true) :
    (f.hasInf = true → bits p f.frac f.exp ≠ 2 ^ f.exp - 1)
      ∧ (f.hasInf = false → f.nan.isSome = true → bits p 0 (f.exp + f.frac) ≠ 2 ^ (f.exp + f.frac) - 1)
      ∧ f.decode p = if bits p f.frac f.exp = 0 then .fin (bit p (f.exp + f.frac)) (bits p 0 f.frac) (1 - f.bias - f.frac)
          else .fin (bit p (f.exp + f.frac)) (2 ^ f.frac + bits p 0 f.frac) (bits p f.frac f.exp - f.bias - f.frac) := by
  unfold FloatFmt.decode at finite ⊢
  dsimp only at finite ⊢
  by_cases top : (f.hasInf && decide (bits p f.frac f.exp = 2 ^ f.exp - 1)) = true
  case pos =>
    rw [if_pos top] at finite
    split at finite <;> cases finite
  by_cases nan : (!f.hasInf && f.nan.isSome && decide (bits p 0 (f.exp + f.frac) = 2 ^ (f.exp + f.frac) - 1)) = true
  case pos =>
    rw [if_neg top, if_pos nan] at finite
    cases finite
  rw [if_neg top, if_neg nan]
  exact ⟨fun inf => by simpa [inf] using top, fun inf some => by simpa [inf, some] using nan, rfl⟩

theorem FloatFmt.magnitude_lt_finites (f : FloatFmt) {p : Nat} (finite : (f.decode p).isFinite = true) : bits p 0 (f.exp + f.frac) < f.finites := by
  obtain ⟨notTop, notNan, -⟩ := f.decode_of_finite finite
  have magnitude : bits p 0 (f.exp + f.frac) < 2 ^ (f.exp + f.frac) := Nat.mod_lt _ (Nat.two_pow_pos _)
  unfold FloatFmt.finites
  split
  next inf =>
    have exponent : bits p f.frac f.exp < 2 ^ f.exp := Nat.mod_lt _ (Nat.two_pow_pos _)
    have fraction : bits p 0 f.frac < 2 ^ f.frac := Nat.mod_lt _ (Nat.two_pow_pos _)
    have below := notTop inf
    calc bits p 0 (f.exp + f.frac) < (bits p f.frac f.exp + 1) * 2 ^ f.frac := by rw [bits_concat p f.frac f.exp, Nat.succ_mul]; omega
      _ ≤ (2 ^ f.exp - 1) * 2 ^ f.frac := Nat.mul_le_mul_right _ (by omega)
  next noInf =>
    split
    next nan => have := notNan (Bool.eq_false_iff.mpr noInf) nan; omega
    next => exact magnitude

/-- A finite pattern's value is one the format holds: no rounding moves it from the pattern's magnitude. -/
theorem FloatFmt.roundMag_decode (f : FloatFmt) {p : Nat} (finite : (f.decode p).isFinite = true) :
    ∃ m e, f.decode p = .fin (bit p (f.exp + f.frac)) m e ∧ ∀ rnd neg, f.roundMag rnd neg m e = bits p 0 (f.exp + f.frac) := by
  obtain ⟨-, -, value⟩ := f.decode_of_finite finite
  have fraction : bits p 0 f.frac < 2 ^ f.frac := Nat.mod_lt _ (Nat.two_pow_pos _)
  rw [value, bits_concat p f.frac f.exp]
  split
  next zero => exact ⟨_, _, rfl, fun rnd neg => by rw [f.roundMag_subnormal rnd neg fraction, zero, Nat.zero_mul, Nat.zero_add]⟩
  next normal => exact ⟨_, _, rfl, fun rnd neg => f.roundMag_normal rnd neg fraction normal⟩

/-- A format whose largest magnitude is the last finite one writes a finite pattern's value back as the pattern. -/
theorem FloatFmt.encode_decode (f : FloatFmt) (tight : f.finites = f.maxMag + 1) {p : Nat} (fits : p < 2 ^ f.width) (finite : (f.decode p).isFinite = true)
    (rnd : Nat) (sat : Bool) : f.encode rnd sat (f.decode p) = p := by
  obtain ⟨m, e, value, rounds⟩ := f.roundMag_decode finite
  have inRange : ¬ f.maxMag < bits p 0 (f.exp + f.frac) := by have := f.magnitude_lt_finites finite; omega
  simp only [value, FloatFmt.encode, rounds, if_neg inRange, f.signed_bits fits]

end Sys2Proof.Machine

namespace Sys2Proof.Proofs
open Sys2Proof Sys2Proof.Machine

/-- Settles O25: the value of a finite pattern rounds to the pattern's own magnitude, which is no greater than the format's largest, and keeps its sign. -/
theorem floatPatternsRoundTrip : Obligations.FloatPatternsRoundTrip := by
  unfold Obligations.FloatPatternsRoundTrip
  intro code f p rnd sat format fits finite
  simp only [fmtWidth, format] at fits
  simp only [encodeElem, elemValue, format, f.encode_decode (floatOf_finites format) fits finite]

end Sys2Proof.Proofs
end

section
/-!
Lemmas on rounding to an integer under RND (R197) and on the conversion into INT8 (R199).
-/
namespace Sys2Proof.Machine

/-! ## Rounding to an integer (R197) -/

/-- Whether RND takes the next magnitude up for q and a remainder out of `unit`. -/
def roundsUp (rnd : Nat) (neg : Bool) (q rest unit : Nat) : Bool :=
  rest ≠ 0 && match rnd with
    | 0 => unit < 2 * rest || (unit = 2 * rest && q % 2 = 1)
    | 1 => false
    | 2 => neg
    | _ => !neg

/-- A value whose leading bit is below half a unit is less than half. -/
theorem two_mul_lt_of_lead {m r : Nat} (small : lead m + 1 < r) : 2 * m < 2 ^ r :=
  calc 2 * m < 2 * 2 ^ (lead m + 1) := by have : m < 2 ^ (lead m + 1) := Nat.lt_log2_self; omega
    _ = 2 ^ (lead m + 2) := by rw [pow_succ 2 (lead m + 1), Nat.mul_comm]
    _ ≤ 2 ^ r := Nat.pow_le_pow_right (by decide) small

/-- The model's half of a unit 2^r, which is 1 where the unit is 1, parts the remainders of that unit as its true half does. -/
theorem half_unit_iff {r t : Nat} (rest : t < 2 ^ r) :
    ((if r = 0 then 1 else 2 ^ (r - 1)) < t ↔ 2 ^ r < 2 * t) ∧ ((t = if r = 0 then 1 else 2 ^ (r - 1)) ↔ 2 ^ r = 2 * t) := by
  cases r with
  | zero => rw [if_pos rfl]; omega
  | succ n => rw [if_neg n.succ_ne_zero, Nat.add_sub_cancel, pow_succ]; omega

theorem ite_succ_eq_add_boolNat (up : Bool) (q : Nat) : (if up then q + 1 else q) = q + boolNat up := by
  cases up <;> rfl

/-- A rounding is the quotient, or the next integer up. -/
theorem roundShift_eq (rnd : Nat) (neg : Bool) (m r : Nat) :
    roundShift rnd neg m r = m / 2 ^ r + boolNat (roundsUp rnd neg (m / 2 ^ r) (m % 2 ^ r) (2 ^ r)) := by
  by_cases zero : m = 0
  case pos => simp [roundShift, zero, roundsUp, boolNat]
  by_cases small : lead m + 1 < r
  case pos =>
    have half := two_mul_lt_of_lead small
    have quotient : m / 2 ^ r = 0 := Nat.div_eq_of_lt (by omega)
    have rest : m % 2 ^ r = m := Nat.mod_eq_of_lt (by omega)
    have below : ¬ 2 ^ r < 2 * m := by omega
    have notTie : ¬ 2 ^ r = 2 * m := by omega
    simp only [roundShift, zero, small, quotient, rest, if_true, if_false, ite_succ_eq_add_boolNat]
    rcases rnd with _ | _ | _ | _ <;> simp [roundsUp, zero, below, notTie]
  case neg =>
    obtain ⟨above, tie⟩ := half_unit_iff (Nat.mod_lt m (Nat.two_pow_pos r))
    simp only [roundShift, zero, small, if_false, ite_succ_eq_add_boolNat]
    rcases rnd with _ | _ | _ | _ <;> simp [roundsUp, above, tie, Bool.and_comm]

theorem roundShift_zero (rnd : Nat) (neg : Bool) (m : Nat) : roundShift rnd neg m 0 = m := by
  simp [roundShift_eq, roundsUp, boolNat, Nat.mod_one]

/-- Rounding toward zero, or toward the infinity on the other side of zero. -/
theorem roundShift_toward {rnd : Nat} {neg : Bool} (toward : rnd = 1 ∨ (rnd = 2 ∧ neg = false) ∨ (rnd = 3 ∧ neg = true)) (m r : Nat) :
    roundShift rnd neg m r = m / 2 ^ r := by
  rw [roundShift_eq]
  rcases toward with rfl | ⟨rfl, rfl⟩ | ⟨rfl, rfl⟩ <;> simp [roundsUp, boolNat]

/-- Rounding toward the infinity on the value's own side of zero: the least integer no less. -/
theorem roundShift_away {rnd : Nat} {neg : Bool} (away : (rnd = 2 ∧ neg = true) ∨ (rnd = 3 ∧ neg = false)) (m r : Nat) :
    (roundShift rnd neg m r : Int) = -(-(m : Int) / 2 ^ r) := by
  have up : roundsUp rnd neg (m / 2 ^ r) (m % 2 ^ r) (2 ^ r) = decide (m % 2 ^ r ≠ 0) := by
    rcases away with ⟨rfl, rfl⟩ | ⟨rfl, rfl⟩ <;> simp [roundsUp]
  have divides : ((2 ^ r : Int) ∣ m) ↔ m % 2 ^ r = 0 := by
    rw [← Nat.dvd_iff_mod_eq_zero]
    exact_mod_cast Int.natCast_dvd_natCast (m := 2 ^ r) (n := m)
  rw [roundShift_eq, up, Int.neg_ediv]
  by_cases whole : m % 2 ^ r = 0
  · simp [boolNat, whole, divides]
  · simp [boolNat, whole, divides, Int.sign_eq_one_of_pos, add_comm]

theorem roundsUp_nearest {neg : Bool} {q t unit : Nat} : roundsUp 0 neg q t unit = true ↔ t ≠ 0 ∧ (unit < 2 * t ∨ (unit = 2 * t ∧ q % 2 = 1)) := by
  simp [roundsUp]

/-- RND 0: within half of one, and even at a tie. -/
theorem roundShift_nearest (neg : Bool) (m r : Nat) :
    2 * ((m : Int) - roundShift 0 neg m r * 2 ^ r).natAbs ≤ 2 ^ r
      ∧ (2 * ((m : Int) - roundShift 0 neg m r * 2 ^ r).natAbs = 2 ^ r → roundShift 0 neg m r % 2 = 0) := by
  have parts : (m : Int) = (m / 2 ^ r : Nat) * 2 ^ r + (m % 2 ^ r : Nat) := by exact_mod_cast (Nat.div_add_mod' m (2 ^ r)).symm
  have rest : m % 2 ^ r < 2 ^ r := Nat.mod_lt _ (Nat.two_pow_pos r)
  rw [roundShift_eq, parts]
  generalize m / 2 ^ r = q at *
  generalize m % 2 ^ r = t at *
  by_cases up : t ≠ 0 ∧ (2 ^ r < 2 * t ∨ (2 ^ r = 2 * t ∧ q % 2 = 1))
  case neg =>
    rw [Bool.eq_false_iff.mpr (mt roundsUp_nearest.mp up)]
    have off : (q * 2 ^ r + t - ((q + boolNat false : Nat) : Int) * 2 ^ r).natAbs = t := by simp [boolNat]
    rw [off]
    simp only [boolNat, Bool.false_eq_true, if_false]
    omega
  case pos =>
    rw [roundsUp_nearest.mpr up]
    have off : (q * 2 ^ r + t - ((q + boolNat true : Nat) : Int) * 2 ^ r).natAbs = 2 ^ r - t := by
      have short : q * 2 ^ r + t - ((q + boolNat true : Nat) : Int) * 2 ^ r = -((2 ^ r - t : Nat) : Int) := by
        simp only [boolNat, if_true]
        push_cast [rest.le]
        ring
      rw [short, Int.natAbs_neg, Int.natAbs_natCast]
    rw [off]
    simp only [boolNat, if_true]
    omega

/-! ## INT8 (R199) -/

/-- The clamp to −128 to 127. -/
def clampInt8 (i : Int) : Int := max (-128) (min 127 i)

/-- An integer of a magnitude, by its sign. -/
def signedInt (neg : Bool) (q : Nat) : Int := if neg then -(q : Int) else q

theorem clampInt8_signedInt (neg : Bool) (q : Nat) : (if neg then max (-(q : Int)) (-128) else min q 127) = clampInt8 (signedInt neg q) := by
  cases neg <;> simp [clampInt8, signedInt] <;> omega

/-- Beyond the range magnitudes clamp alike. -/
theorem clampInt8_large (neg : Bool) {p q : Nat} (hp : 128 ≤ p) (hq : 128 ≤ q) : clampInt8 (signedInt neg p) = clampInt8 (signedInt neg q) := by
  cases neg <;> simp [clampInt8, signedInt] <;> omega

theorem int8Of_integer (rnd : Nat) (neg : Bool) (m k : Nat) :
    int8Of rnd (.fin neg m k) = ofSigned 8 (clampInt8 (signedInt neg (m * 2 ^ k))) := by
  simp only [int8Of, clampInt8_signedInt]
  by_cases zero : m = 0
  · simp [zero]
  by_cases huge : 8 < (lead m : Int) + k
  · have : 128 ≤ m * 2 ^ k := calc
      128 ≤ 2 ^ (lead m + k) := Nat.pow_le_pow_right (by decide : 0 < 2) (by omega : 7 ≤ lead m + k)
      _ = 2 ^ lead m * 2 ^ k := pow_add 2 _ _
      _ ≤ m * 2 ^ k := Nat.mul_le_mul_right _ (Nat.log2_self_le zero)
    simp [zero, huge, clampInt8_large neg this (show 128 ≤ 1024 by decide)]
  · simp [zero, huge]

theorem int8Of_fraction (rnd : Nat) (neg : Bool) (m k : Nat) :
    int8Of rnd (.fin neg m (-(k : Int))) = ofSigned 8 (clampInt8 (signedInt neg (roundShift rnd neg m k))) := by
  cases k with
  | zero => simpa [roundShift_zero] using int8Of_integer rnd neg m 0
  | succ k =>
    have below : ¬ (0 : Int) ≤ -((k + 1 : Nat) : Int) := by omega
    have zero : (if m = 0 then 0 else roundShift rnd neg m (k + 1)) = roundShift rnd neg m (k + 1) := by simp +contextual [roundShift]
    simp only [int8Of, clampInt8_signedInt, if_neg below, neg_neg, Int.toNat_natCast, zero]

/-! ## The four readings of RND, for a source of either sign -/

section
variable (neg : Bool) (m k : Nat)

theorem signedInt_roundShift_nearest :
    2 * (signedInt neg m - signedInt neg (roundShift 0 neg m k) * 2 ^ k).natAbs ≤ 2 ^ k
      ∧ (2 * (signedInt neg m - signedInt neg (roundShift 0 neg m k) * 2 ^ k).natAbs = 2 ^ k → signedInt neg (roundShift 0 neg m k) % 2 = 0) := by
  have nearest := roundShift_nearest neg m k
  have distance : (signedInt neg m - signedInt neg (roundShift 0 neg m k) * 2 ^ k).natAbs = ((m : Int) - roundShift 0 neg m k * 2 ^ k).natAbs := by
    cases neg
    · rfl
    · rw [← Int.natAbs_neg]
      simp only [signedInt, if_true]
      ring_nf
  have parity : signedInt neg (roundShift 0 neg m k) % 2 = 0 ↔ roundShift 0 neg m k % 2 = 0 := by
    cases neg <;> simp [signedInt] <;> omega
  rwa [distance, parity]

theorem signedInt_roundShift_zero : signedInt neg (roundShift 1 neg m k) = (signedInt neg m).tdiv (2 ^ k) := by
  rw [roundShift_toward (.inl rfl)]
  cases neg <;> simp [signedInt]

theorem signedInt_roundShift_down : signedInt neg (roundShift 2 neg m k) = signedInt neg m / 2 ^ k := by
  cases neg
  case false => simp [signedInt, roundShift_toward]
  case true => simp [signedInt, roundShift_away]

theorem signedInt_roundShift_up : signedInt neg (roundShift 3 neg m k) = -(-signedInt neg m / 2 ^ k) := by
  cases neg
  case false => simp [signedInt, roundShift_away]
  case true => simp [signedInt, roundShift_toward]

theorem signedInt_mul : signedInt neg (m * k) = signedInt neg m * k := by
  cases neg <;> simp [signedInt]

end

end Sys2Proof.Machine

namespace Sys2Proof.Proofs
open Sys2Proof Sys2Proof.Machine

/-- Settles O26: INT8 is the clamp of a signed rounding, exact for a multiple of 2^k. -/
theorem int8RoundsAndClamps : Obligations.Int8RoundsAndClamps := by
  unfold Obligations.Int8RoundsAndClamps
  refine ⟨?special, ?fraction, ?integer⟩
  case special => exact fun _ _ => ⟨rfl, rfl, rfl⟩
  case fraction =>
    intro rnd sat neg m k _
    refine ⟨signedInt neg (roundShift rnd neg m k), int8Of_fraction rnd neg m k, ?nearest, ?zero, ?down, ?up⟩
    case nearest => rintro rfl; exact signedInt_roundShift_nearest neg m k
    case zero => rintro rfl; exact signedInt_roundShift_zero neg m k
    case down => rintro rfl; exact signedInt_roundShift_down neg m k
    case up => rintro rfl; exact signedInt_roundShift_up neg m k
  case integer =>
    intro rnd sat neg m k
    have scaled := int8Of_integer rnd neg m k
    rw [signedInt_mul, Nat.cast_pow, Nat.cast_ofNat] at scaled
    exact scaled

end Sys2Proof.Proofs
end

section
/-!
Lemmas on the order of values where a source is NaN or both are zeros (R204).
-/
namespace Sys2Proof.Machine

/-! ## Signed zeros (R204) -/

section
variable (a b : Bool) (e f : Int)

@[simp] theorem Num.lt_zeros : Num.lt (.fin a 0 e) (.fin b 0 f) = false := rfl

@[simp] theorem Num.eqv_zeros : Num.eqv (.fin a 0 e) (.fin b 0 f) = true := rfl

/-- Of two zeros, only −0 is below the other, and only where that is +0. -/
@[simp] theorem Num.below_zeros : Num.below (.fin a 0 e) (.fin b 0 f) = (a && !b) := by
  simp [Num.below, Num.sign]

@[simp] theorem Num.max_zeros : Num.max (.fin a 0 e) (.fin b 0 f) = if a && !b then .fin b 0 f else .fin a 0 e := by
  simp [Num.max, Num.isNan]

@[simp] theorem Num.min_zeros : Num.min (.fin a 0 e) (.fin b 0 f) = if a && !b then .fin a 0 e else .fin b 0 f := by
  simp [Num.min, Num.isNan]

end

/-! ## A NaN in an order (R204) -/

section
variable (x : Num)

@[simp] theorem Num.max_nan_left : Num.max .nan x = .nan := by simp [Num.max, Num.isNan]
@[simp] theorem Num.max_nan_right : Num.max x .nan = .nan := by simp [Num.max, Num.isNan]
@[simp] theorem Num.min_nan_left : Num.min .nan x = .nan := by simp [Num.min, Num.isNan]
@[simp] theorem Num.min_nan_right : Num.min x .nan = .nan := by simp [Num.min, Num.isNan]
@[simp] theorem Num.lt_nan_left : Num.lt .nan x = false := by simp [Num.lt]
@[simp] theorem Num.eqv_nan_left : Num.eqv .nan x = false := by simp [Num.eqv, Num.isNan]
@[simp] theorem Num.lt_nan_right : Num.lt x .nan = false := by cases x <;> rfl
@[simp] theorem Num.eqv_nan_right : Num.eqv x .nan = false := by simp [Num.eqv, Num.isNan]

end

end Sys2Proof.Machine

namespace Sys2Proof.Proofs
open Sys2Proof Sys2Proof.Machine

/-- Settles O27: no order holds of a NaN, and of two zeros only −0 is below +0. -/
theorem maxMinAndCompare : Obligations.MaxMinAndCompare := by
  unfold Obligations.MaxMinAndCompare
  refine ⟨?nan, ?zeros⟩
  case nan =>
    intro rnd x c
    exact ⟨x.max_nan_left, x.max_nan_right, x.min_nan_left, x.min_nan_right,
      by simp [vValue], by simp [vValue], by simp [vValue], by simp [vValue]⟩
  case zeros =>
    intro rnd e f c
    simp [vValue]

end Sys2Proof.Proofs
end

section
/-!
Lemmas on function-table slots (R226, Tables 8.5 and 8.6): the one effect that a written value of any length reaches, its outcomes, and when a waiting image enters its slot.
-/
namespace Sys2Proof.Machine

variable {s : State} {p : Path} {k t : Nat} {v : Bytes}

/-! ## The slot's entry, and where its values go -/

theorem odEntry_tableSlot (slot : k < 32) : odEntry 0x2600 (k + 1) = some { type := 9, acc := .rwn, max := 3136, mask := .pf0Bmc, slow := true } := by
  have sub : k + 1 ≤ 0x20 := by omega
  simp [odEntry, od2600, sub]

theorem isTableSlot_slot (slot : k < 32) : isTableSlot 0x2600 (k + 1) = true := by
  have sub : k + 1 ≤ 0x20 := by omega
  simp [isTableSlot, sub]

theorem State.dictWrite_tableSlot (s : State) (secured ok : Bool) (v : Bytes) (slot : k < 32) : s.dictWrite secured ok 0x2600 (k + 1) v = s.tableWrite k v := by
  simp [State.dictWrite, isPolicy, fixedBelow, isTableSlot_slot slot]

/-! ## The outcomes of a written value -/

/-- The state with `reason` recorded in OD 0x2600.24. -/
def State.withTableRefusal (s : State) (reason : Nat) : State := { s with svis := { s.svis with tableRefusal := reason } }

/-- A length that no image has is RANGE (R594), recorded as BAD_IMAGE (log entry 82). -/
theorem State.tableWrite_length (nonempty : v ≠ []) (other : v.length ≠ 3136) : s.tableWrite k v = wRange (s.withTableRefusal 1) := by
  simp [State.tableWrite, nonempty, other, State.withTableRefusal]

/-- An empty value, or one of an image's length with no reserved bit set, comes to the checks of Table 8.5. -/
theorem State.tableWrite_formed (formed : v = [] ∨ (v.length = 3136 ∧ imageRsvd v = false)) :
    s.tableWrite k v =
      if s.tableReason k v = 0 then
        wOk { s with svis := { s.svis with tablePending := s.svis.tablePending.filter (fun x => decide (x.1 ≠ k)) ++ [(k, v, s.now)] } }
      else wRefused (s.tableReason k v) (s.withTableRefusal (s.tableReason k v)) := by
  have image : v ≠ [] → v.length = 3136 ∧ imageRsvd v = false := formed.resolve_left
  unfold State.tableWrite
  rw [if_neg (by simpa using fun nonempty => (image nonempty).1), if_neg (by simpa using fun nonempty => (image nonempty).2)]
  split
  next free => rw [if_pos free]
  next reason => rw [if_neg reason]; rfl

/-- TABLE_SLOT_WRITE answers the effect of its value; a value longer than the entry may hold ends as any other wrong length does. -/
theorem execTableSlotWrite_writes (opened : s.gate p 0x2600 (k + 1) true = 0) (slot : k < 32) : execTableSlotWrite p k v s = .next (answerWrite (s.tableWrite k v)) := by
  have entry := odEntry_tableSlot slot
  rw [execTableSlotWrite, State.written]
  by_cases long : 3136 < v.length
  · have tooLong : s.wholeWrite p 0x2600 (k + 1) v true = s.tooLong 0x2600 (k + 1) := by simp [State.wholeWrite, opened, entry, long, typeWidth]
    have nonempty : v ≠ [] := List.ne_nil_of_length_pos (by omega)
    rw [tooLong, State.tooLong, if_pos (isTableSlot_slot slot), State.tableWrite_length nonempty (by omega)]
    rfl
  · rw [State.wholeWrite_fits s p _ _ v true _ opened entry (Nat.not_lt.mp long), State.dictWrite_tableSlot s _ _ v slot]

/-! ## The mark at which a waiting image enters its slot -/

section
variable {j : Nat} (waits : s.svis.tablePending.find? (fun x => decide (x.1 = k)) = some (j, v, t))
include waits

/-- At the first trick of a deal begun 100 µs or more after acceptance the slot holds the image. -/
theorem execTableSlotUpdate_enters {l : Nat} (deal : s.cad.len = some l) (mark : s.cad.trick = 0) (later : t + 100000000 ≤ s.cad.startPs) :
    execTableSlotUpdate k s = .next { s with svis := { s.svis with
      tablePending := s.svis.tablePending.filter (fun x => decide (x.1 ≠ k)), tables := if v = [] then adel k s.svis.tables else aset k v s.svis.tables } } := by
  simp [execTableSlotUpdate, waits, deal, mark, Nat.not_lt.mpr later]

theorem execTableSlotUpdate_waits (early : s.cad.trick ≠ 0 ∨ s.cad.startPs < t + 100000000) : execTableSlotUpdate k s = .next s := by
  obtain within | soon := early
  · simp [execTableSlotUpdate, waits, within]
  · simp [execTableSlotUpdate, waits, soon]

end

end Sys2Proof.Machine

namespace Sys2Proof.Proofs
open Sys2Proof Sys2Proof.Machine

/-- Settles O39: a written value has the one effect of its slot, and an accepted one waits for a mark 100 µs on. -/
theorem tableSlotsChange : Obligations.TableSlotsChange := by
  unfold Obligations.TableSlotsChange
  refine ⟨?formed, ?length, ?update⟩
  case formed =>
    intro p k v s opened slot formed
    refine ⟨fun free => (execTableSlotWrite_writes opened slot).trans ?_, fun reason => (execTableSlotWrite_writes opened slot).trans ?_⟩
    · rw [State.tableWrite_formed formed, if_pos free]
      rfl
    · rw [State.tableWrite_formed formed, if_neg reason]
      rfl
  case length =>
    intro p k v s opened slot nonempty other
    refine (execTableSlotWrite_writes opened slot).trans ?_
    rw [State.tableWrite_length nonempty other]
    rfl
  case update =>
    intro k j t l v s waits deal
    exact ⟨execTableSlotUpdate_enters waits deal, execTableSlotUpdate_waits waits⟩

end Sys2Proof.Proofs
end

section
/-!
Lemmas on the canonical form of HBM (R243, R244; the list of cells is the representation of log entry 3): what each operation of the model does to it, in the order of the model's chapters, and that no command breaks it. An operation that stores no byte leaves the verdict as it was; one that stores bytes keeps a canonical list canonical.
-/
namespace Sys2Proof.Machine

/-- Every state that a command answers has canonical HBM. -/
def Out.canonical : Out → Bool
  | .next t => t.mem.wf
  | _ => true

@[simp] theorem Out.canonical_next (t : State) : Out.canonical (.next t) = t.mem.wf := rfl

@[simp] theorem Out.canonical_ite (c : Prop) [Decidable c] (a b : Out) : Out.canonical (if c then a else b) = if c then Out.canonical a else Out.canonical b := apply_ite Out.canonical c a b

section
variable {α β : Type} (c : Prop) [Decidable c]

@[simp] theorem ite_wf (a b : State) : (if c then a else b).mem.wf = if c then a.mem.wf else b.mem.wf := by split <;> rfl
@[simp] theorem snd_ite_wf (a b : α × State) : (if c then a else b).2.mem.wf = if c then a.2.mem.wf else b.2.mem.wf := by split <;> rfl
@[simp] theorem snd_snd_ite_wf (a b : α × β × State) : (if c then a else b).2.2.mem.wf = if c then a.2.2.mem.wf else b.2.2.mem.wf := by split <;> rfl

end

/-- Operations that leave the verdict leave it in any number. -/
@[simp] theorem foldl_wf {α : Type} (f : State → α → State) (l : List α) (s : State) (keeps : ∀ s x, (f s x).mem.wf = s.mem.wf) : (l.foldl f s).mem.wf = s.mem.wf :=
  foldl_keeps (fun s => s.mem.wf) keeps l s

theorem foldl_snd_wf {α β : Type} (f : β × State → α → β × State) (l : List α) (p : β × State) (keeps : ∀ p x, (f p x).2.mem.wf = p.2.mem.wf) : (l.foldl f p).2.mem.wf = p.2.mem.wf :=
  foldl_keeps (fun p => p.2.mem.wf) keeps l p

/-- Operations that keep HBM canonical keep it in any number. -/
theorem foldl_keeps_wf {α : Type} (f : State → α → State) (l : List α) (keeps : ∀ s x, s.mem.wf = true → (f s x).mem.wf = true) (s : State) (canon : s.mem.wf = true) :
    (l.foldl f s).mem.wf = true := by
  induction l generalizing s with
  | nil => exact canon
  | cons x l ih => exact ih _ (keeps s x canon)

/-! ## Operations of the state -/

@[simp] theorem State.takeFree_wf (s : State) : s.takeFree.2.mem.wf = s.mem.wf := by rfl
@[simp] theorem State.takeBytes_wf (s : State) (n : Nat) : (s.takeBytes n).2.mem.wf = s.mem.wf := by rfl
theorem State.sheetCpl_wf (s : State) (a b c d e : Nat) : (s.sheetCpl a b c d e).mem.wf = s.mem.wf := by simp
theorem State.sheetDone_wf (s : State) (x : Sheet) (a : Nat) : (s.sheetDone x a).mem.wf = s.mem.wf := by simp
theorem State.complete_wf (s : State) (t : Ticket) (status : Nat) : (s.complete t status).mem.wf = s.mem.wf := by simp
theorem State.post_wf (s : State) (r : EvReq) : (s.post r).mem.wf = s.mem.wf := by simp
@[simp] theorem State.securityFor_wf (s : State) (acct : Option Nat) (d subject place w2 w3 : Nat) : (s.securityFor acct d subject place w2 w3).mem.wf = s.mem.wf := by simp [State.securityFor]
theorem State.security_wf (s : State) (a b c d e : Nat) : (s.security a b c d e).mem.wf = s.mem.wf := by simp
theorem State.sendNotice_wf (s : State) (kind deal arg : Nat) : (s.sendNotice kind deal arg).mem.wf = s.mem.wf := by simp
@[simp] theorem State.markPoison_wf (s : State) (pa : Nat) : (s.markPoison pa).mem.wf = s.mem.wf := by rfl

/-! ## Command intake -/

@[simp] theorem State.doorbellEarly_wf (s : State) (f : Nat) : (s.doorbellEarly f).mem.wf = s.mem.wf := by rfl

/-- Whatever the checks say, a command leaves the verdict that its own effect leaves. -/
@[simp] theorem State.hostCommand_wf (s : State) (op : Nat) (c : CmdSlot) (pf0 : Bool) (acct : Option Nat) (k : State → Ticket → State) (keeps : ∀ u t, (k u t).mem.wf = u.mem.wf) :
    (s.hostCommand op c pf0 acct k).mem.wf = s.mem.wf := by
  simp [State.hostCommand, keeps]

/-! ## Translation -/

@[simp] theorem translate_wf (s : State) (ctx va : Nat) : (translate s ctx va).2.mem.wf = s.mem.wf := by
  fun_cases translate s ctx va <;> rfl

@[simp] theorem translateFor_wf (s : State) (ctx va : Nat) (wr : Bool) : (translateFor s ctx va wr).2.mem.wf = s.mem.wf := by
  fun_cases translateFor s ctx va wr <;> grind [translate_wf]

@[simp] theorem State.dropCached_wf (s : State) (ctx va len : Nat) : (s.dropCached ctx va len).mem.wf = s.mem.wf := by rfl

/-! ## Seats -/

@[simp] theorem State.holdSeat_wf (s : State) (i cause : Nat) : (s.holdSeat i cause).mem.wf = s.mem.wf := by rfl

/-! ## Forms -/

@[simp] theorem imageReadable_wf (s : State) (ctx n va : Nat) : (imageReadable s ctx n va).2.mem.wf = s.mem.wf := by
  fun_induction imageReadable s ctx n va <;> grind [translateFor_wf]

@[simp] theorem State.dropForm_wf (s : State) (id : Nat) : (s.dropForm id).mem.wf = s.mem.wf := by rfl

/-! ## Sheets -/

@[simp] theorem State.postArrival_wf (s : State) (buf status tag target : Nat) : (s.postArrival buf status tag target).mem.wf = s.mem.wf := by simp [State.postArrival]
@[simp] theorem State.acceptSheet_wf (s : State) (sh : Sheet) : (s.acceptSheet sh).mem.wf = s.mem.wf := by simp [State.acceptSheet]

/-! ## Ante: page resolution, mirrors and entries -/

@[simp] theorem pagesOf_wf (ctx : Nat) (wr rd sc : Bool) (n : Nat) (s : State) (va stop : Nat) : (pagesOf s ctx wr rd sc n va stop).2.mem.wf = s.mem.wf := by
  fun_induction pagesOf s ctx wr rd sc n va stop <;> grind [translate_wf]

@[simp] theorem kvMap_wf (s : State) (t : Seat) : (kvMap s t).2.mem.wf = s.mem.wf := by
  fun_cases kvMap s t <;> grind [pagesOf_wf]

@[simp] theorem kvWindows_wf (s : State) (f : Form) (fi slot pos seat : Nat) (t : Seat) (e : Foot) (ring : Bool) (l : List (Nat × Nat)) :
    (kvWindows s f fi slot pos seat t e ring l).2.mem.wf = s.mem.wf := by
  fun_induction kvWindows s f fi slot pos seat t e ring l <;> grind [pagesOf_wf]

@[simp] theorem kvFaults_wf (ctx : Nat) (l : List Nat) (s : State) : (kvFaults ctx l s).2.mem.wf = s.mem.wf := by
  fun_induction kvFaults ctx l s <;> grind [translate_wf]

@[simp] theorem resolveFoot_wf (s : State) (f : Form) (slot pos seat : Nat) (t : Seat) (kv : Option (List Nat × Bool)) (fi : Nat) (e : Foot) : (resolveFoot s f slot pos seat t kv fi e).2.mem.wf = s.mem.wf := by
  fun_cases resolveFoot s f slot pos seat t kv fi e <;> grind [kvWindows_wf, pagesOf_wf]

@[simp] theorem resolveFoots_wf (s : State) (f : Form) (slot pos seat : Nat) (t : Seat) (kv : Option (List Nat × Bool)) (l : List (Nat × Foot)) :
    (resolveFoots s f slot pos seat t kv l).2.mem.wf = s.mem.wf := by
  fun_induction resolveFoots s f slot pos seat t kv l <;> grind [resolveFoot_wf]

@[simp] theorem resolveSeat_wf (s : State) (f : Form) (slot pos seat : Nat) (t : Seat) (foots : List (Nat × Foot)) : (resolveSeat s f slot pos seat t foots).2.mem.wf = s.mem.wf := by
  fun_cases resolveSeat s f slot pos seat t foots <;> grind [resolveFoots_wf, kvMap_wf, kvFaults_wf]

/-- Bytes written through page pieces are written one cell at a time. -/
@[simp] theorem writePieces_wf (ps : List PagePiece) (b : Bytes) : ∀ (s : State) (va : Nat), s.mem.wf = true → (writePieces s ps va b).mem.wf = true := by
  induction b with
  | nil => exact fun _ _ canon => canon
  | cons b t ih =>
    intro s va canon
    refine ih _ _ ?_
    split
    · exact cellSet_keeps _ _ _ _ canon trivial
    · exact canon

@[simp] theorem writeMirror_wf (s : State) (ws : List Window) (pos : Nat) (t : Seat) (canon : s.mem.wf = true) : (writeMirror s ws pos t).mem.wf = true := by unfold writeMirror; split <;> simp [canon]

@[simp] theorem anteEntry_wf (s : State) (f : Form) (deal : Nat) (e : Entry) : (anteEntry s f deal e).2.2.mem.wf = s.mem.wf := by
  fun_cases anteEntry s f deal e <;> grind [State.sendNotice_wf, State.security_wf, resolveSeat_wf]

@[simp] theorem anteEntries_wf (f : Form) (deal : Nat) (l : List Entry) (s : State) : (anteEntries f deal l s).2.2.mem.wf = s.mem.wf := by
  fun_induction anteEntries f deal l s <;> grind [anteEntry_wf]

@[simp] theorem trySheets_wf (n : Nat) (l : List (Source × Sheet)) (s : State) : (trySheets n l s).2.mem.wf = s.mem.wf := by
  fun_induction trySheets n l s <;> simp_all

@[simp] theorem State.runAnte_wf (s : State) (deal : Nat) (p : Plan) : (s.runAnte deal p).2.mem.wf = s.mem.wf := by unfold State.runAnte; split <;> simp

@[simp] theorem State.selectPlan_wf (s : State) (n : Nat) : (s.selectPlan n).2.mem.wf = s.mem.wf := by
  fun_cases State.selectPlan s n <;> grind [State.runAnte_wf, State.sheetCpl_wf, trySheets_wf, foldl_wf, State.sheetDone_wf]

/-! ## Shared coherence -/

@[simp] theorem State.freeBuffer_wf (s : State) (d line : Nat) : (s.freeBuffer d line).mem.wf = s.mem.wf := by rfl
@[simp] theorem State.kittyDrop_wf (s : State) (die line : Nat) : (s.kittyDrop die line).mem.wf = s.mem.wf := by unfold State.kittyDrop; split <;> rfl
@[simp] theorem State.beginEvict_wf (s : State) (die line : Nat) : (s.beginEvict die line).mem.wf = s.mem.wf := by unfold State.beginEvict; split <;> simp

@[simp] theorem State.kittyAccess_wf (s : State) (die line : Nat) : (s.kittyAccess die line).mem.wf = s.mem.wf := by
  fun_cases State.kittyAccess s die line <;> grind [State.beginEvict_wf]

@[simp] theorem State.evicted_wf (s : State) (line die : Nat) : (s.evicted line die).mem.wf = s.mem.wf := by rfl
@[simp] theorem State.crossing_wf (s : State) (line die : Nat) : (s.crossing line die).mem.wf = s.mem.wf := by rfl
@[simp] theorem State.scRequest_wf (s : State) (a : CohAgent) (wr : Bool) (line : Nat) : (s.scRequest a wr line).mem.wf = s.mem.wf := by unfold State.scRequest; split <;> simp
@[simp] theorem State.memLine_wf (s : State) (a : CohAgent) (wr : Bool) (pa : Nat) : (s.memLine a wr pa).mem.wf = s.mem.wf := by simp [State.memLine]

/-! ## Repairs -/

@[simp] theorem State.queuePost_wf (s : State) (r : EvReq) : (s.queuePost r).mem.wf = s.mem.wf := by simp [State.queuePost]
@[simp] theorem State.repairEvent_wf (s : State) (action rank detail place guard : Nat) : (s.repairEvent action rank detail place guard).mem.wf = s.mem.wf := by simp [State.repairEvent]
@[simp] theorem State.setCluster_wf (s : State) (key : Nat) (m : ClusterMap) : (s.setCluster key m).mem.wf = s.mem.wf := by rfl
@[simp] theorem State.setDie_wf (s : State) (d : Nat) (f : DieMap → DieMap) : (s.setDie d f).mem.wf = s.mem.wf := by rfl
@[simp] theorem State.shortDeck_wf (s : State) (d before : Nat) : (s.shortDeck d before).mem.wf = s.mem.wf := by simp [State.shortDeck]
@[simp] theorem State.retireColumn_wf (s : State) (d col rank detail : Nat) : (s.retireColumn d col rank detail).mem.wf = s.mem.wf := by simp [State.retireColumn]
@[simp] theorem State.loseDie_wf (s : State) (d rank detail : Nat) : (s.loseDie d rank detail).mem.wf = s.mem.wf := by simp [State.loseDie]

theorem State.substitute_wf {s t : State} {d row col c : Nat} {excl : Option Nat} (h : s.substitute d row col c excl = some t) : t.mem.wf = s.mem.wf := by
  unfold State.substitute at h
  split at h
  · cases h
  · cases h; simp

@[simp] theorem State.setCondemned_wf (s : State) (d row col p : Nat) : (s.setCondemned d row col p).mem.wf = s.mem.wf := by rfl

@[simp] theorem State.condemn_wf (s : State) (d row col p rank detail : Nat) : (s.condemn d row col p rank detail).mem.wf = s.mem.wf := by
  unfold State.condemn
  dsimp only
  split
  · simp
  · split
    next taken => simp [State.substitute_wf taken]
    next => simp

@[simp] theorem State.repairUnit_wf (s : State) (u : UnitRef) (rank detail : Nat) : (s.repairUnit u rank detail).mem.wf = s.mem.wf := by unfold State.repairUnit; split <;> simp
@[simp] theorem State.transient_wf (s : State) : s.transient.mem.wf = s.mem.wf := by rfl
@[simp] theorem State.markUnit_wf (s : State) (u : UnitRef) (rank detail : Nat) : (s.markUnit u rank detail).mem.wf = s.mem.wf := by simp [State.markUnit]
@[simp] theorem State.watch_wf (s : State) : s.watch.mem.wf = s.mem.wf := by simp [State.watch]

@[simp] theorem State.substituteSuspect_wf (s : State) (x : Suspect) : (s.substituteSuspect x).mem.wf = s.mem.wf := by
  unfold State.substituteSuspect
  dsimp only
  split
  next taken => simpa using State.substitute_wf taken
  next => split <;> simp

@[simp] theorem State.clearSuspect_wf (s : State) (x : Suspect) : (s.clearSuspect x).mem.wf = s.mem.wf := by rfl

@[simp] theorem State.verdict_wf (s : State) (x : Suspect) : (s.verdict x).mem.wf = s.mem.wf := by
  unfold State.verdict
  dsimp only
  split
  · rfl
  split
  · split <;> simp
  split
  · simp
  split
  · simp
  split
  · simp
  split
  · split
    · simp
    · split
      next taken => simpa using State.substitute_wf taken
      next => simp
  · simp

@[simp] theorem State.decisionRepairs_wf (s : State) : s.decisionRepairs.mem.wf = s.mem.wf := by simp [State.decisionRepairs]
@[simp] theorem State.suspectsToBist_wf (s : State) : s.suspectsToBist.mem.wf = s.mem.wf := by rfl

/-! ## Decision and settling of a deal -/

@[simp] theorem State.foldFound_wf (s : State) (p : Plan) (d seat c : Nat) : (s.foldFound p d seat c).2.mem.wf = s.mem.wf := by simp [State.foldFound]
@[simp] theorem State.judgeOwner_wf (s : State) (p : Plan) (d pa seatCause detail : Nat) : (s.judgeOwner p d pa seatCause detail).2.mem.wf = s.mem.wf := by unfold State.judgeOwner; split <;> simp

@[simp] theorem State.judgeReads_wf (s : State) (p : Plan) (d : Nat) : (s.judgeReads p d).2.mem.wf = s.mem.wf := by
  unfold State.judgeReads
  exact (foldl_snd_wf _ _ _ fun _ _ => by simp).trans (foldl_snd_wf _ _ _ fun _ _ => by simp)

@[simp] theorem State.judgeWords_wf (s : State) (p : Plan) : (s.judgeWords p).2.mem.wf = s.mem.wf := by
  refine foldl_snd_wf _ _ _ fun acc e => ?_
  split
  · rfl
  split
  · simp
  · split <;> simp

@[simp] theorem State.judgeRunning_wf (s : State) : s.judgeRunning.mem.wf = s.mem.wf := by unfold State.judgeRunning; split <;> simp
@[simp] theorem State.chargeHouse_wf (s : State) (c : List Nat) : (s.chargeHouse c).mem.wf = s.mem.wf := by rfl
@[simp] theorem State.applyClears_wf (s : State) : s.applyClears.mem.wf = s.mem.wf := by rfl
@[simp] theorem State.applyPcie_wf (s : State) : s.applyPcie.mem.wf = s.mem.wf := by rfl
@[simp] theorem State.queueMark_wf (s : State) (r : EvReq) : (s.queueMark r).mem.wf = s.mem.wf := by rfl
@[simp] theorem State.commitEntry_wf (s : State) (p : Plan) (f : Form) (committed : List Entry) (e : Entry) : (s.commitEntry p f committed e).mem.wf = s.mem.wf := by simp [State.commitEntry, State.handOff]
@[simp] theorem State.foldEntry_wf (s : State) (e : Entry) (c : Nat) : (s.foldEntry e c).mem.wf = s.mem.wf := by rfl
@[simp] theorem State.reseat_wf (s : State) (i : Nat) : (s.reseat i).mem.wf = s.mem.wf := by unfold State.reseat; split <;> rfl
@[simp] theorem State.retestEntry_wf (s : State) (f : Form) (d : Nat) (p : Plan) (e : Entry) : (s.retestEntry f d p e).2.mem.wf = s.mem.wf := by simp [State.retestEntry]

@[simp] theorem State.retest_wf (s : State) : s.retest.mem.wf = s.mem.wf := by
  unfold State.retest
  split
  · rfl
  split
  · rfl
  · exact foldl_snd_wf _ _ _ fun _ _ => by simp

@[simp] theorem State.commitDeal_wf (s : State) (p : Plan) : (s.commitDeal p).mem.wf = s.mem.wf := by
  unfold State.commitDeal
  dsimp only
  split
  · simp
  · split <;> simp

@[simp] theorem State.displace_wf (s : State) (target : Nat) : (s.displace target).mem.wf = s.mem.wf := by simp [State.displace]

@[simp] theorem State.discardSelected_wf (s : State) : s.discardSelected.mem.wf = s.mem.wf := by
  fun_cases State.discardSelected s
  grind [State.sheetCpl_wf]

@[simp] theorem State.finishSheet_wf (s : State) (p : Plan) (status : Nat) : (s.finishSheet p status).mem.wf = s.mem.wf := by unfold State.finishSheet; split <;> rfl
@[simp] theorem State.dropRedeal_wf (s : State) (status : Nat) : (s.dropRedeal status).mem.wf = s.mem.wf := by unfold State.dropRedeal; split <;> simp

@[simp] theorem State.judgeRedeal_wf (s : State) : s.judgeRedeal.mem.wf = s.mem.wf := by
  fun_cases State.judgeRedeal s <;> grind [State.sendNotice_wf, State.suspectsToBist_wf, State.dropRedeal_wf, State.displace_wf]

@[simp] theorem State.judgeWhenDone_wf (s : State) : s.judgeWhenDone.mem.wf = s.mem.wf := by simp [State.judgeWhenDone]
@[simp] theorem State.startChecks_wf (s : State) (d : Nat) : (s.startChecks d).mem.wf = s.mem.wf := by rfl
@[simp] theorem State.damageBlock_wf (s : State) (image die block detail : Nat) : (s.damageBlock image die block detail).mem.wf = s.mem.wf := by unfold State.damageBlock; split <;> simp

@[simp] theorem State.rewriteDealerLines_wf (s : State) (p : Plan) (pas : List Nat) : (s.rewriteDealerLines p pas).mem.wf = s.mem.wf :=
  foldl_wf _ _ _ fun _ _ => rfl

/-- A misdeal puts back whole lines. -/
@[simp] theorem State.undoWrites_wf (s : State) (canon : s.mem.wf = true) : s.undoWrites.mem.wf = true := by
  have undone : ∀ (l : List (Nat × Bytes × Bool)) (c : List Host.Cell), cellsAbove none c = true → cellsAbove none (l.foldl (fun c x => writeBytes c (64 * x.1) x.2.1) c) = true := by
    intro l
    induction l with
    | nil => exact fun _ keeps => keeps
    | cons x l ih => exact fun c keeps => ih _ (writeBytes_keeps _ _ _ keeps)
  exact undone _ _ canon

@[simp] theorem State.misdealDeal_wf (s : State) (p : Plan) (d : Nat) (cs : List Cause) (canon : s.mem.wf = true) : (s.misdealDeal p d cs).mem.wf = true := by
  unfold State.misdealDeal
  extract_lets pas fails _ told discarded reseated undone charged r repairIdle at1 _ held displaced repaired checked marked _ revoked _ tested last
  have before : charged.mem.wf = true := by simp [charged, undone, reseated, discarded, told, canon]
  have after : last.mem.wf = true := by simp [last, tested, revoked, marked, checked, repaired, displaced, held, before]
  split
  · simp [before]
  · simp [after]

@[simp] theorem State.decideDeal_wf (s : State) (canon : s.mem.wf = true) : s.decideDeal.mem.wf = true := by simp [State.decideDeal, State.gather, State.settleHolds, State.agingAtDecision, State.raiseGuard, canon]

@[simp] theorem State.answerChecks_wf (ks : List Check) (bs : List Bool) (s : State) : (State.answerChecks ks bs s).mem.wf = s.mem.wf := by
  fun_induction State.answerChecks ks bs s with
  | case1 s k ks b bs ih => rw [ih]; simp [State.checkOutcome]
  | case2 => rfl

@[simp] theorem State.idleRedeal_wf (s : State) : s.idleRedeal.mem.wf = s.mem.wf := by rfl

@[simp] theorem State.answerRereads_wf (vs : List VaultFail) (bs : List Bool) (s : State) : (State.answerRereads vs bs s).mem.wf = s.mem.wf := by
  fun_induction State.answerRereads vs bs s <;> grind [State.damageBlock_wf, State.sendNotice_wf, State.idleRedeal_wf, State.dropRedeal_wf]

/-! ## Items of SVIS programs -/

@[simp] theorem State.setStreamPos_wf (s : State) (x : Site) (p : StreamPos) : (s.setStreamPos x p).mem.wf = s.mem.wf := by rfl
@[simp] theorem State.releaseRegions_wf (s : State) (ref : StoreRef) : (s.releaseRegions ref).mem.wf = s.mem.wf := by simp [State.releaseRegions]
@[simp] theorem State.renege_wf (s : State) (detail slot die : Nat) : (s.renege detail slot die).mem.wf = s.mem.wf := by simp [State.renege]
@[simp] theorem State.overrun_wf (s : State) (detail slot die place due : Nat) : (s.overrun detail slot die place due).mem.wf = s.mem.wf := by simp [State.overrun]
@[simp] theorem State.dropProgram_wf (s : State) (id : Nat) : (s.dropProgram id).mem.wf = s.mem.wf := by rfl
@[simp] theorem State.stopProgram_wf (s : State) (id status word : Nat) : (s.stopProgram id status word).mem.wf = s.mem.wf := by unfold State.stopProgram; split <;> simp
@[simp] theorem State.applyWrite_wf (s : State) (w : StoreWrite) : (s.applyWrite w).mem.wf = s.mem.wf := by simp [State.applyWrite]

@[simp] theorem State.applyHbm_wf (s : State) (l : List (Nat × Bytes)) (canon : s.mem.wf = true) : (s.applyHbm l).mem.wf = true := by
  unfold State.applyHbm
  exact foldl_keeps_wf _ _ (fun s x canon => s.writeLine_wf x.1 x.2 canon) s canon

@[simp] theorem State.postChip_wf (s : State) (k chip cycle : Nat) : (s.postChip k chip cycle).mem.wf = s.mem.wf := by rfl
@[simp] theorem State.noteUndo_wf (s : State) (h : List (Nat × Bytes)) : (s.noteUndo h).mem.wf = s.mem.wf := by rfl
@[simp] theorem State.orderLandings_wf (s : State) (i : Item) : (s.orderLandings i).mem.wf = s.mem.wf := by unfold State.orderLandings; split <;> simp

@[simp] theorem State.completeItem_wf (s : State) (i : Item) (canon : s.mem.wf = true) : (s.completeItem i).mem.wf = true := by
  unfold State.completeItem
  extract_lets _ removed ordered noted written told posted sent
  have kept : noted.mem.wf = true := by unfold noted; split <;> simp [ordered, removed, canon]
  have told' : told.mem.wf = true := by unfold told; split <;> simp [written, kept]
  have posted' : posted.mem.wf = true := by unfold posted; split <;> simp [told']
  simp [sent, posted']

@[simp] theorem State.finishItem_wf (s : State) (i : Item) (canon : s.mem.wf = true) : (s.finishItem i).mem.wf = true := by unfold State.finishItem; split <;> simp [canon]
@[simp] theorem State.meterOne_wf (s : State) (peak place slotDie : Nat) (n : Nat) (get : Svis → List (Nat × Nat)) (set : Svis → List (Nat × Nat) → Svis) (key : Nat) :
    (s.meterOne peak place slotDie n get set key).mem.wf = s.mem.wf := by simp [State.meterOne]

@[simp] theorem State.meter_wf (s : State) (f : Form) (e : Effect) (die slot : Nat) : (s.meter f e die slot).mem.wf = s.mem.wf := by
  unfold State.meter
  dsimp only
  split <;> simp

@[simp] theorem State.noteReads_wf (s : State) (f : Form) (die : Nat) (e : Effect) : (s.noteReads f die e).mem.wf = s.mem.wf := by simp [State.noteReads]

@[simp] theorem State.noteSat_wf (s : State) (o : CodeOwner) (sat : Bool) : (s.noteSat o sat).mem.wf = s.mem.wf := by
  fun_cases State.noteSat s o sat <;> grind

@[simp] theorem State.launch_wf (s : State) (e : Env) (b : Base) (f : Effect) (word : Nat) : (s.launch e b f word).mem.wf = s.mem.wf := by simp [State.launch]
@[simp] theorem State.chipMissing_wf (s : State) (x : Site) (b : Base) (cycle slot : Nat) : (s.chipMissing x b cycle slot).mem.wf = s.mem.wf := by unfold State.chipMissing; split <;> simp

/-! ## Moves between stores and HBM -/

@[simp] theorem State.programLine_wf (s : State) (ahead : List (Nat × Bytes)) (account : Nat) (fails wr : Bool) (v : VLines) (va : Nat) : (s.programLine ahead account fails wr v va).2.mem.wf = s.mem.wf := by
  fun_cases State.programLine s ahead account fails wr v va <;> grind [translate_wf, State.takeBytes_wf]

@[simp] theorem State.vLines_wf (s : State) (e : Env) (own : List (Nat × Bytes)) (wr : Bool) (l : List Nat) (v : VLines) : (s.vLines e own wr l v).2.mem.wf = s.mem.wf := by
  fun_induction State.vLines s e own wr l v <;> grind [State.programLine_wf]

@[simp] theorem moveLeg_wf (e : Env) (o : LOps) (m : Moved) (g : Leg) : (moveLeg e o m g).st.mem.wf = m.st.mem.wf := by
  unfold moveLeg
  grind [State.vLines_wf, State.security_wf]

@[simp] theorem moveAll_wf (e : Env) (o : LOps) (base : Effect) (s : State) (legs : List Leg) : (moveAll e o base s legs).2.mem.wf = s.mem.wf :=
  foldl_keeps (fun m : Moved => m.st.mem.wf) (moveLeg_wf e o) legs { eff := base, st := s }

@[simp] theorem lmovEffect_wf (s : State) (e : Env) (o : LOps) (x : Ext) : (lmovEffect s e o x).2.mem.wf = s.mem.wf := by simp [lmovEffect]
@[simp] theorem listMove_wf (s : State) (e : Env) (o : LOps) (x : Ext) (gather : Bool) : (listMove s e o x gather).2.mem.wf = s.mem.wf := by unfold listMove; split <;> simp
@[simp] theorem ldaEffect_wf (s : State) (e : Env) (o : LdaOps) : (ldaEffect s e o).2.mem.wf = s.mem.wf := by simp [ldaEffect]

/-! ## Issue of SVIS words -/

@[simp] theorem State.holdWord_wf (s : State) (x : Site) (b : Base) (op : SvisOp) : (s.holdWord x b op).mem.wf = s.mem.wf := by simp [State.holdWord]
@[simp] theorem buildOp_wf (s : State) (e : Env) (op : SvisOp) : (buildOp s e op).2.mem.wf = s.mem.wf := by unfold buildOp; split <;> simp
@[simp] theorem State.control_wf (s : State) (x : Site) (op : SvisOp) (cycle : Nat) : (s.control x op cycle).mem.wf = s.mem.wf := by unfold State.control; split <;> simp

@[simp] theorem State.endPrograms_wf (s : State) (word : Nat) : (s.endPrograms word).mem.wf = s.mem.wf :=
  foldl_wf _ _ _ fun _ _ => by split <;> simp

@[simp] theorem State.faultProgram_wf (s : State) (id status word k stream seq : Nat) : (s.faultProgram id status word k stream seq).mem.wf = s.mem.wf := by simp [State.faultProgram]

@[simp] theorem State.conflictOthers_wf (s : State) (e : Env) (f : Effect) : (s.conflictOthers e f).mem.wf = s.mem.wf :=
  foldl_wf _ _ _ fun _ _ => by split <;> simp

@[simp] theorem State.sendDeck_wf (s : State) (e : Env) (f : Effect) : (s.sendDeck e f).mem.wf = s.mem.wf := by unfold State.sendDeck; split <;> simp
@[simp] theorem State.issueDeal_wf (s : State) (e : Env) (b : Base) (op : SvisOp) (slot word : Nat) : (s.issueDeal e b op slot word).mem.wf = s.mem.wf := by unfold State.issueDeal; split <;> simp
@[simp] theorem State.issueProgram_wf (s : State) (e : Env) (b : Base) (op : SvisOp) (id word : Nat) : (s.issueProgram e b op id word).mem.wf = s.mem.wf := by unfold State.issueProgram; dsimp only; split <;> simp

@[simp] theorem State.waitOrdered_wf (s : State) (x : Site) (b : Base) (cycle : Nat) (core : Core) : (s.waitOrdered x b cycle core).2.mem.wf = s.mem.wf := by
  fun_cases State.waitOrdered s x b cycle core <;> grind [State.chipMissing_wf]

@[simp] theorem State.issueOrdered_wf (s : State) (x : Site) (b : Base) (op : SvisOp) : (s.issueOrdered x b op).mem.wf = s.mem.wf := by
  fun_cases State.issueOrdered s x b op <;> grind [State.endPrograms_wf, State.issueProgram_wf, State.setStreamPos_wf, State.holdWord_wf, State.waitOrdered_wf, State.issueDeal_wf]

theorem State.tryHanded_wf {s t : State} {k : Nat} {x : Handed} (h : s.tryHanded k x = some t) : t.mem.wf = s.mem.wf := by
  revert h
  fun_cases State.tryHanded s k x <;> grind [State.setCore, State.issueProgram_wf, State.endPrograms_wf]

theorem firstHead_wf {s t : State} {l : List (Nat × Handed)} (h : firstHead s l = some t) : t.mem.wf = s.mem.wf := by
  induction l with
  | nil => cases h
  | cons x l ih =>
    unfold firstHead at h
    split at h
    next taken => cases h; exact State.tryHanded_wf taken
    next => exact ih h

theorem firstHeld_wf {s t : State} {l : List Item} (found : firstHeld s l = some t) (canon : s.mem.wf = true) : t.mem.wf = true := by
  induction l with
  | nil => cases found
  | cons i l ih =>
    unfold firstHeld at found
    split at found
    · cases found; exact s.finishItem_wf i canon
    · exact ih found

/-- Items in flight complete one by one, and each writes its own lines. -/
@[simp] theorem pump_wf (n : Nat) (s : State) (canon : s.mem.wf = true) : (pump n s).mem.wf = true := by
  fun_induction pump n s with
  | case1 => exact canon
  | case2 s n t taken ih => exact ih ((firstHead_wf taken).trans canon)
  | case3 s n _ t taken ih => exact ih (firstHeld_wf taken canon)
  | case4 => exact canon

@[simp] theorem State.pumpAll_wf (s : State) (canon : s.mem.wf = true) : s.pumpAll.mem.wf = true := pump_wf _ s canon

@[simp] theorem State.handWord_wf (s : State) (x : Site) (b : Base) (op : SvisOp) (canon : s.mem.wf = true) : (s.handWord x b op).mem.wf = true := by
  fun_cases State.handWord s x b op <;> grind [State.pumpAll_wf, State.setCore, State.setStreamPos_wf, State.holdWord_wf]

@[simp] theorem State.issue_wf (s : State) (x : Site) (b : Base) (op : SvisOp) (canon : s.mem.wf = true) : (s.issue x b op).mem.wf = true := by simp [State.issue, canon]

/-! ## Completion of SVIS items -/

@[simp] theorem State.settleItems_wf (s : State) (word : Nat) (canon : s.mem.wf = true) : (s.settleItems word).mem.wf = true := by simp [State.settleItems, canon]
@[simp] theorem State.land_wf (s : State) (i : Item) (canon : s.mem.wf = true) : (s.land i).mem.wf = true := by unfold State.land; split <;> simp [canon]
@[simp] theorem State.mediaFail_wf (s : State) (i : Item) (bad : List Nat) : (s.mediaFail i bad).2.mem.wf = s.mem.wf := by unfold State.mediaFail; split <;> simp
@[simp] theorem State.noteMargin_wf (s : State) (m : Int) : (s.noteMargin m).mem.wf = s.mem.wf := by rfl

/-! ## Open window -/

@[simp] theorem State.onDies_wf (s : State) (m : BitVec 8) (f : Core → Core) (g : Cluster → Cluster) : (s.onDies m f g).mem.wf = s.mem.wf := by rfl
@[simp] theorem State.loseAllStores_wf (s : State) : s.loseAllStores.mem.wf = s.mem.wf := by rfl
@[simp] theorem State.loseStores_wf (s : State) (info : NativeInfo) : (s.loseStores info).mem.wf = s.mem.wf := by simp [State.loseStores]
@[simp] theorem State.stopAt_wf (s : State) (id status : Nat) : (s.stopAt id status).mem.wf = s.mem.wf := by simp [State.stopAt]

@[simp] theorem State.finishOf_wf (s : State) (id : Nat) (canon : s.mem.wf = true) : (s.finishOf id).mem.wf = true :=
  foldl_keeps_wf _ _ (fun s i => s.completeItem_wf i) s canon

@[simp] theorem State.closeWindow_wf (s : State) (canon : s.mem.wf = true) : s.closeWindow.mem.wf = true := by
  refine foldl_keeps_wf _ _ (fun u p keeps => ?_) s canon
  rw [State.loseStores_wf]
  split
  · simp [keeps]
  · simp [keeps]

/-! ## Resets -/

/-- A reset begins from HBM of no cells. -/
@[simp] theorem State.reboot_wf (s : State) (reason : Nat) : (s.reboot reason).mem.wf = true := by rfl

/-! ## Cadence -/

@[simp] theorem State.clearCompute_wf (s : State) (canon : s.mem.wf = true) : s.clearCompute.mem.wf = true := by simp [State.clearCompute, canon]
@[simp] theorem State.flushEvents_wf (s : State) : s.flushEvents.mem.wf = s.mem.wf := by simp [State.flushEvents]
@[simp] theorem State.holdRedeal_wf (s : State) (d : Nat) : (s.holdRedeal d).2.mem.wf = s.mem.wf := by simp [State.holdRedeal]

@[simp] theorem State.markPlan_wf (s : State) (d l : Nat) : (s.markPlan d l).2.mem.wf = s.mem.wf := by
  fun_cases State.markPlan s d l <;> grind [State.finishSheet_wf, State.dropRedeal_wf, State.discardSelected_wf, State.holdRedeal_wf]

@[simp] theorem State.copyMirrors_wf (s : State) (p : Plan) (canon : s.mem.wf = true) : (s.copyMirrors p).mem.wf = true :=
  foldl_keeps_wf _ _ (fun s _ => writeMirror_wf s _ _ _) s canon

@[simp] theorem State.seatDeal_wf (s : State) (p : Plan) : (s.seatDeal p).2.mem.wf = s.mem.wf :=
  foldl_snd_wf _ _ _ fun acc e => by simp

@[simp] theorem State.departMisdeal_wf (s : State) (rank detail : Nat) (canon : s.mem.wf = true) : (s.departMisdeal rank detail).mem.wf = true := by simp [State.departMisdeal, canon]
@[simp] theorem State.leaveTable_wf (s : State) (rank detail : Nat) (next : CadState) (canon : s.mem.wf = true) : (s.leaveTable rank detail next).mem.wf = true := by simp [State.leaveTable, canon]
@[simp] theorem State.reacquire_wf (s : State) (st : CadState) : (s.reacquire st).mem.wf = s.mem.wf := by rfl
@[simp] theorem State.toLeft_wf (s : State) (detail : Nat) (canon : s.mem.wf = true) : (s.toLeft detail).mem.wf = true := by simp [State.toLeft, canon]
@[simp] theorem State.applyGuard_wf (s : State) (d : Nat) : (s.applyGuard d).mem.wf = s.mem.wf := by rfl
@[simp] theorem State.markHolds_wf (s : State) : s.markHolds.mem.wf = s.mem.wf := by simp [State.markHolds]
@[simp] theorem State.noteMet_wf (s : State) : s.noteMet.mem.wf = s.mem.wf := by rfl
@[simp] theorem State.startDeal_wf (s : State) (d l p : Nat) (canon : s.mem.wf = true) : (s.startDeal d l p).mem.wf = true := by simp [State.startDeal, canon]
@[simp] theorem State.displacePast_wf (s : State) (d : Nat) : (s.displacePast d).mem.wf = s.mem.wf := by simp [State.displacePast]

@[simp] theorem State.markDeal_wf (s : State) (canon : s.mem.wf = true) : s.markDeal.mem.wf = true := by
  fun_cases State.markDeal s <;> grind [
    State.discardSelected_wf, State.decideDeal_wf, State.flushEvents_wf, State.clearCompute_wf, State.reboot_wf, State.displacePast_wf,
    State.markHolds_wf, State.noteMet_wf, State.applyGuard_wf, State.startDeal_wf]

@[simp] theorem State.trickStart_wf (s : State) (t : Nat) (canon : s.mem.wf = true) : (s.trickStart t).mem.wf = true := by simp [State.trickStart, canon]
@[simp] theorem State.tryReady_wf (s : State) : s.tryReady.mem.wf = s.mem.wf := by unfold State.tryReady; split <;> rfl
@[simp] theorem State.slew_wf (s : State) : s.slew.mem.wf = s.mem.wf := by rfl
@[simp] theorem State.acceptEdge_wf (s : State) (at' : Nat) (canon : s.mem.wf = true) : (s.acceptEdge at').mem.wf = true := by simp [State.acceptEdge, canon]
@[simp] theorem State.beat_wf (s : State) (off : Int) (canon : s.mem.wf = true) : (s.beat off).mem.wf = true := by unfold State.beat; split <;> simp [canon]
@[simp] theorem State.flywheel_wf (s : State) (canon : s.mem.wf = true) : s.flywheel.mem.wf = true := by simp [State.flywheel, canon]
@[simp] theorem State.takeStamp_wf (s : State) (h : HbHeader) (t : Nat) (clock : Option (Nat × Nat)) : (s.takeStamp h t clock).mem.wf = s.mem.wf := by rfl
@[simp] theorem State.positionFault_wf (s : State) (canon : s.mem.wf = true) : s.positionFault.mem.wf = true := by simp [State.positionFault, canon]

@[simp] theorem State.latchHeader_wf (s : State) (h : HbHeader) (canon : s.mem.wf = true) : (s.latchHeader h).mem.wf = true := by
  fun_cases State.latchHeader s h <;> grind [State.positionFault_wf]

@[simp] theorem State.newBanker_wf (s : State) (old : HbHeader) (h : HbHeader) (t : Nat) (canon : s.mem.wf = true) : (s.newBanker old h t).mem.wf = true := by
  unfold State.newBanker
  dsimp only
  split <;> simp [canon]

@[simp] theorem State.acquireHeader_wf (s : State) (h : HbHeader) (t : Nat) : (s.acquireHeader h t).mem.wf = s.mem.wf := by simp [State.acquireHeader]

@[simp] theorem State.cadHeader_wf (s : State) (x : HbHeader) (delayPs : Nat) (canon : s.mem.wf = true) : (s.cadHeader x delayPs).mem.wf = true := by
  fun_cases State.cadHeader s x delayPs <;> grind [State.tryReady_wf, State.latchHeader_wf, State.newBanker_wf, State.takeStamp_wf, State.acquireHeader_wf, State.positionFault_wf]

/-! ## Vault -/

@[simp] theorem wOk_wf (s : State) : (wOk s).2.2.mem.wf = s.mem.wf := by rfl
@[simp] theorem wRsvd_wf (s : State) : (wRsvd s).2.2.mem.wf = s.mem.wf := by rfl
@[simp] theorem wRange_wf (s : State) : (wRange s).2.2.mem.wf = s.mem.wf := by rfl
@[simp] theorem wState_wf (s : State) : (wState s).2.2.mem.wf = s.mem.wf := by rfl
@[simp] theorem wBusy_wf (s : State) : (wBusy s).2.2.mem.wf = s.mem.wf := by rfl
@[simp] theorem wRefused_wf (detail : Nat) (s : State) : (wRefused detail s).2.2.mem.wf = s.mem.wf := by rfl
@[simp] theorem State.setKey_wf (s : State) (k : Nat) (v : Option (Nat × BitVec 256)) : (s.setKey k v).mem.wf = s.mem.wf := by unfold State.setKey; split <;> rfl
@[simp] theorem State.changeKey_wf (s : State) (k : Nat) (v : Option (Nat × BitVec 256)) : (s.changeKey k v).mem.wf = s.mem.wf := by simp [State.changeKey, State.flushSlot]
@[simp] theorem State.keyLoad_wf (s : State) (secured : Bool) (b : Bytes) : (s.keyLoad secured b).2.2.mem.wf = s.mem.wf := by simp [State.keyLoad]
@[simp] theorem State.keyUnload_wf (s : State) (k : Nat) : (s.keyUnload k).2.2.mem.wf = s.mem.wf := by simp [State.keyUnload]
@[simp] theorem State.forwardPass_wf (s : State) (b : Bytes) : (s.forwardPass b).mem.wf = s.mem.wf := by unfold State.forwardPass; split <;> simp
@[simp] theorem State.creditPass_wf (s : State) : s.creditPass.mem.wf = s.mem.wf := by unfold State.creditPass; split <;> rfl
@[simp] theorem State.failPass_wf (s : State) (p : PassRun) (status : Nat) : (s.failPass p status).mem.wf = s.mem.wf := by unfold State.failPass; split <;> simp
@[simp] theorem State.vaultFailure_wf (s : State) (detail die : Nat) : (s.vaultFailure detail die).mem.wf = s.mem.wf := by rfl

@[simp] theorem State.keepRecord_wf (s : State) (p : PassRun) (i : Nat) (b : Bytes) (media : Media) : (s.keepRecord p i b media).mem.wf = s.mem.wf := by
  fun_cases State.keepRecord s p i b media <;> grind [State.vaultFailure_wf, State.failPass_wf]

@[simp] theorem State.endStream_wf (s : State) (p : PassRun) : (s.endStream p).mem.wf = s.mem.wf := by unfold State.endStream; split <;> simp

/-! ## Ring links and notices -/

@[simp] theorem State.boundLost_wf (s : State) (k : Nat) : (s.boundLost k).mem.wf = s.mem.wf := by simp [State.boundLost]
@[simp] theorem State.dropLink_wf (s : State) (k : Nat) : (s.dropLink k).mem.wf = s.mem.wf := by simp [State.dropLink]
@[simp] theorem State.nak_wf (s : State) (k ack : Nat) : (s.nak k ack).mem.wf = s.mem.wf := by simp [State.nak]
@[simp] theorem State.landXfer_wf (s : State) (x : DeckXfer) (canon : s.mem.wf = true) : (s.landXfer x).mem.wf = true := by simp [State.landXfer, canon]

@[simp] theorem State.dataPayload_wf (s : State) (k : Nat) (first : Bool) (b : Bytes) (canon : s.mem.wf = true) : (s.dataPayload k first b).mem.wf = true := by
  unfold State.dataPayload
  dsimp only
  split <;> simp [canon]

@[simp] theorem State.hear_wf (s : State) (k kind : Nat) (n : Notice) (effect : State → State) (keeps : ∀ u, (effect u).mem.wf = u.mem.wf) : (s.hear k kind n effect).mem.wf = s.mem.wf := by
  simp [State.hear, keeps]

@[simp] theorem State.diverge_wf (s : State) : s.diverge.mem.wf = s.mem.wf := by simp [State.diverge]
@[simp] theorem State.splitGroup_wf (s : State) : s.splitGroup.mem.wf = s.mem.wf := by unfold State.splitGroup; split <;> simp

@[simp] theorem State.bindWrite_wf (s : State) (v : Bytes) : (s.bindWrite v).2.2.mem.wf = s.mem.wf := by
  fun_cases State.bindWrite s v <;> grind [wRange_wf, wOk_wf, wRsvd_wf, wRefused_wf]

@[simp] theorem State.becomeBanker_wf (s : State) (deal len period nextLen nextPeriod : Nat) (lead : Bool) : (s.becomeBanker deal len period nextLen nextPeriod lead).mem.wf = s.mem.wf := by rfl
@[simp] theorem State.stopBanker_wf (s : State) : s.stopBanker.mem.wf = s.mem.wf := by rfl
@[simp] theorem State.handoverWrite_wf (s : State) (target : Nat) : (s.handoverWrite target).2.2.mem.wf = s.mem.wf := by simp [State.handoverWrite]
@[simp] theorem State.joinWrite_wf (s : State) (deal : Nat) : (s.joinWrite deal).2.2.mem.wf = s.mem.wf := by rfl

/-! ## Defects -/

@[simp] theorem State.addCheck_wf (s : State) (u : UnitRef) (rank detail : Nat) : (s.addCheck u rank detail).mem.wf = s.mem.wf := by rfl
@[simp] theorem State.stopDefect_wf (s : State) (d row col : Nat) : (s.stopDefect d row col).mem.wf = s.mem.wf := by simp [State.stopDefect]
@[simp] theorem State.defect_wf (s : State) (u : UnitRef) (detail die row col : Nat) : (s.defect u detail die row col).mem.wf = s.mem.wf := by simp [State.defect]
@[simp] theorem State.corrected_wf (s : State) : s.corrected.mem.wf = s.mem.wf := by rfl
@[simp] theorem State.parityCount_wf (s : State) : s.parityCount.mem.wf = s.mem.wf := by rfl

@[simp] theorem State.dropOnLink_wf (s : State) (l : List Item) : (s.dropOnLink l).mem.wf = s.mem.wf := by
  fun_cases State.dropOnLink s l <;> grind [State.takeFree_wf, State.stopProgram_wf]

@[simp] theorem State.felt_wf (s : State) (u : UnitRef) (detail die place : Nat) (crosses : Item → Bool) : (s.felt u detail die place crosses).mem.wf = s.mem.wf := by simp [State.felt]

@[simp] theorem State.doubleAudits_wf (s : State) (w : Nat) (cs : List AuditCmp) : (s.doubleAudits w cs).mem.wf = s.mem.wf :=
  foldl_wf _ _ _ fun _ _ => by split <;> simp

@[simp] theorem State.mismatch_wf (s : State) (w : Nat) (a : AuditCmp) : (s.mismatch w a).mem.wf = s.mem.wf := by simp [State.mismatch]
@[simp] theorem State.bist_wf (s : State) (failed : List UnitRef) : (s.bist failed).mem.wf = s.mem.wf := by simp [State.bist, State.bistSuspect]

/-! ## Loose DMA and the aperture -/

@[simp] theorem State.windowWrite_wf (s : State) (w : Nat) (b : Bytes) : (s.windowWrite w b).2.2.mem.wf = s.mem.wf := by
  fun_cases State.windowWrite s w b <;> rfl

@[simp] theorem State.ldmaCpl_wf (s : State) (q : Nat) (x : LdmaQueue) (status bytes addr : Nat) : (s.ldmaCpl q x status bytes addr).mem.wf = s.mem.wf := by rfl

@[simp] theorem State.ldmaRead_wf (s : State) (acct : Nat) (d : LdmaDesc) (va : Nat) (host : Bytes) (fails : Bool) : (s.ldmaRead acct d va host fails).2.mem.wf = s.mem.wf := by
  fun_cases State.ldmaRead s acct d va host fails <;> grind [translateFor_wf, State.takeBytes_wf, State.memLine_wf]

@[simp] theorem State.ldmaWrite_wf (s : State) (acct : Nat) (d : LdmaDesc) (va : Nat) (b : Bytes) (canon : s.mem.wf = true) : (s.ldmaWrite acct d va b).2.mem.wf = true := by
  fun_cases State.ldmaWrite s acct d va b <;> grind [State.writeLine_wf, translateFor_wf, State.memLine_wf]

@[simp] theorem State.notePcie_wf (s : State) (acct n : Nat) : (s.notePcie acct n).mem.wf = s.mem.wf := by unfold State.notePcie; split <;> rfl
@[simp] theorem State.descDone_wf (s : State) (q : Nat) : (s.descDone q).mem.wf = s.mem.wf := by simp [State.descDone]
@[simp] theorem State.descHit_wf (s : State) (q code addr : Nat) : (s.descHit q code addr).mem.wf = s.mem.wf := by rfl
@[simp] theorem State.noteMoved_wf (s : State) : s.noteMoved.mem.wf = s.mem.wf := by unfold State.noteMoved; split <;> rfl

@[simp] theorem State.moveLine_wf (s : State) (q : Nat) (canon : s.mem.wf = true) : (s.moveLine q).mem.wf = true := by
  fun_cases State.moveLine s q <;> grind [State.descDone_wf, State.ldmaRead_wf, State.ldmaWrite_wf, State.descHit_wf, State.notePcie_wf, State.setQueue, State.noteMoved_wf]

@[simp] theorem State.moveTurns_wf (n : Nat) (s : State) (canon : s.mem.wf = true) : (State.moveTurns n s).mem.wf = true := by
  induction n generalizing s with
  | zero => exact canon
  | succ n ih =>
    unfold State.moveTurns
    split
    · exact canon
    next q _ => exact ih _ (s.moveLine_wf q canon)

@[simp] theorem State.moveLoose_wf (s : State) (canon : s.mem.wf = true) : s.moveLoose.mem.wf = true := by simp [State.moveLoose, canon]

@[simp] theorem State.stopQueue_wf (s : State) (q status addr : Nat) : (s.stopQueue q status addr).mem.wf = s.mem.wf := by
  simp [State.stopQueue]

@[simp] theorem State.apertureFault_wf (s : State) (f : WalkFault) : (s.apertureFault f).mem.wf = s.mem.wf := by unfold State.apertureFault; split <;> rfl

@[simp] theorem State.apertureRead_wf (ctx n va : Nat) (s : State) : (State.apertureRead ctx n va s).2.mem.wf = s.mem.wf := by
  fun_induction State.apertureRead ctx n va s <;> grind [translateFor_wf, State.memLine_wf]

/-- Bytes are put one after another at their own addresses. -/
def cellSets (l : List (Nat × Byte)) (c : List Host.Cell) : List Host.Cell := l.foldl (fun c x => cellSet x.1 x.2 c) c

/-- So the list stays canonical. -/
theorem cellSets_keeps (l : List (Nat × Byte)) : ∀ c, cellsAbove none c = true → cellsAbove none (cellSets l c) = true := by
  induction l with
  | nil => exact fun _ canon => canon
  | cons x l ih => exact fun c canon => ih _ (cellSet_keeps x.1 x.2 none c canon trivial)

@[simp] theorem State.apertureMap_wf (ctx n va : Nat) (s : State) : (State.apertureMap ctx n va s).2.mem.wf = s.mem.wf := by
  fun_induction State.apertureMap ctx n va s <;> grind [translateFor_wf]

@[simp] theorem State.noteForeign_wf (s : State) (pas : List Nat) : (s.noteForeign pas).mem.wf = s.mem.wf := by simp [State.noteForeign]

/-! ## Video -/

@[simp] theorem State.videoCommand_wf (s : State) (c : CmdSlot) (allowed : Session → Bool) (k : State → Ticket → Session → State) (keeps : ∀ u t x, (k u t x).mem.wf = u.mem.wf) :
    (s.videoCommand c allowed k).mem.wf = s.mem.wf := by
  simp [State.videoCommand, keeps]

@[simp] theorem State.shutSession_wf (s : State) (k : Nat) : (s.shutSession k).mem.wf = s.mem.wf := by simp [State.shutSession]
@[simp] theorem State.videoEvent_wf (s : State) (k detail frame tag : Nat) : (s.videoEvent k detail frame tag).mem.wf = s.mem.wf := by simp [State.videoEvent]
@[simp] theorem State.faultSession_wf (s : State) (k detail tag : Nat) : (s.faultSession k detail tag).mem.wf = s.mem.wf := by simp [State.faultSession]

@[simp] theorem State.vWrite_wf (ctx : Nat) (at' : Nat → Nat) (i : Nat) (b : Bytes) (s : State) (canon : s.mem.wf = true) : (State.vWrite ctx at' i b s).2.mem.wf = true := by
  fun_induction State.vWrite ctx at' i b s with
  | case1 => exact canon
  | case2 => grind [translateFor_wf]
  | case3 i s b t x s' found usable ih => exact ih (cellSet_keeps _ _ none _ (by grind [translateFor_wf, Memory.wf]) trivial)
  | case4 => grind [translateFor_wf]

@[simp] theorem State.vRead_wf (ctx : Nat) (l : List Nat) (s : State) : (State.vRead ctx l s).2.mem.wf = s.mem.wf := by
  fun_induction State.vRead ctx l s <;> grind [translateFor_wf]

@[simp] theorem State.stateTouched_wf (s : State) (x : Session) : (s.stateTouched x).2.mem.wf = s.mem.wf := by
  fun_cases State.stateTouched s x <;> grind [State.vRead_wf, translateFor_wf]

@[simp] theorem State.writeRecord_wf (s : State) (k deal frame slice flags offset n tag : Nat) (canon : s.mem.wf = true) : (s.writeRecord k deal frame slice flags offset n tag).2.mem.wf = true := by
  fun_cases State.writeRecord s k deal frame slice flags offset n tag <;> grind [State.setFn, State.setSession, State.vWrite_wf]

theorem State.beginFrame_wf {s t : State} {e n : Nat} (h : s.beginFrame e n = some t) : t.mem.wf = s.mem.wf := by
  revert h
  fun_cases State.beginFrame s e n <;> grind [State.setEngine, State.setSession]

@[simp] theorem State.endFrame_wf (s : State) (e n : Nat) (h : Handoff) (rest : List Handoff) (canon : s.mem.wf = true) : (s.endFrame e n h rest).mem.wf = true := by
  fun_cases State.endFrame s e n h rest <;> grind [State.setEngine, State.setSession, State.vWrite_wf, State.faultSession_wf]

@[simp] theorem State.emitSlice_wf (s : State) (e n : Nat) (x : Handoff) (rest : List Handoff) (b : Bytes) (canon : s.mem.wf = true) : (s.emitSlice e n x rest b).mem.wf = true := by
  fun_cases State.emitSlice s e n x rest b <;> grind [State.faultSession_wf, State.setSession, State.videoEvent_wf, State.vWrite_wf, State.writeRecord_wf, State.endFrame_wf]

@[simp] theorem State.afterSlice_wf (s : State) (k : Nat) : (s.afterSlice k).mem.wf = s.mem.wf := by simp [State.afterSlice]

@[simp] theorem State.codeSlice_wf (s : State) (e n : Nat) (x : Handoff) (rest : List Handoff) (refs : List (Nat × Nat)) (canon : s.mem.wf = true) : (s.codeSlice e n x rest refs).mem.wf = true := by
  fun_cases State.codeSlice s e n x rest refs <;> grind [State.stateTouched_wf, State.faultSession_wf, State.setSession, State.videoEvent_wf, State.vRead_wf, State.emitSlice_wf]

@[simp] theorem State.decodeOn_wf (s : State) (k : Nat) (r : DecodeRun) (rest : List DecodeRun) (last : Bool) : (s.decodeOn k r rest last).mem.wf = s.mem.wf := by simp [State.decodeOn, State.endDecode]
@[simp] theorem State.countDecoded_wf (s : State) (e : Nat) : (s.countDecoded e).mem.wf = s.mem.wf := by rfl

@[simp] theorem State.takeStream_wf (s : State) (k : Nat) (r : DecodeRun) (n : Nat) : (s.takeStream k r n).2.mem.wf = s.mem.wf := by
  fun_cases State.takeStream s k r n <;> grind [State.setSession, State.vRead_wf]

@[simp] theorem State.dropFrame_wf (s : State) (k flags : Nat) (r : DecodeRun) (rest : List DecodeRun) (n : Nat) (last : Bool) (canon : s.mem.wf = true) : (s.dropFrame k flags r rest n last).mem.wf = true := by
  fun_cases State.dropFrame s k flags r rest n last <;> grind [State.setSession, State.writeRecord_wf, State.faultSession_wf, State.afterSlice_wf, State.decodeOn_wf]

@[simp] theorem State.putFrame_wf (s : State) (e k : Nat) (r : DecodeRun) (rest : List DecodeRun) (p : Picture) (canon : s.mem.wf = true) : (s.putFrame e k r rest p).mem.wf = true := by
  fun_cases State.putFrame s e k r rest p <;> grind [State.setSession, State.vWrite_wf, State.writeRecord_wf, State.faultSession_wf, State.afterSlice_wf, State.decodeOn_wf, State.countDecoded_wf]

@[simp] theorem State.decodeFrame_wf (s : State) (e k : Nat) (r : DecodeRun) (rest : List DecodeRun) (p : Picture) (canon : s.mem.wf = true) : (s.decodeFrame e k r rest p).mem.wf = true := by
  fun_cases State.decodeFrame s e k r rest p <;> grind [State.vRead_wf, State.videoEvent_wf, State.faultSession_wf, State.dropFrame_wf, State.putFrame_wf]

@[simp] theorem State.poolWrite_wf (s : State) (e b : Nat) (v : Bytes) : (s.poolWrite e b v).2.2.mem.wf = s.mem.wf := by simp [State.poolWrite]

/-! ## Power and temperature -/

@[simp] theorem State.thermalSettle_wf (s : State) : s.thermalSettle.mem.wf = s.mem.wf := by unfold State.thermalSettle; split <;> simp
@[simp] theorem State.thermalRaise_wf (s : State) : s.thermalRaise.mem.wf = s.mem.wf := by unfold State.thermalRaise; split <;> rfl
@[simp] theorem State.trip_wf (s : State) (canon : s.mem.wf = true) : s.trip.mem.wf = true := by simp [State.trip, canon]
@[simp] theorem State.standDown_wf (s : State) : s.standDown.mem.wf = s.mem.wf := by simp [State.standDown]
@[simp] theorem State.powerWrite_wf (s : State) (v : Nat) : (s.powerWrite v).2.2.mem.wf = s.mem.wf := by unfold State.powerWrite; dsimp only; split <;> rfl
@[simp] theorem State.sleepDebug_wf (s : State) : s.sleepDebug.mem.wf = s.mem.wf := by unfold State.sleepDebug; split <;> simp
@[simp] theorem State.flushKeys_wf (s : State) : s.flushKeys.mem.wf = s.mem.wf := by simp [State.flushKeys]

@[simp] theorem State.unwrapKeys_wf (s : State) : s.unwrapKeys.mem.wf = s.mem.wf := by
  unfold State.unwrapKeys
  split
  · rfl
  · exact foldl_wf _ _ _ fun _ _ => by split <;> simp

@[simp] theorem State.trainLinks_wf (s : State) : s.trainLinks.mem.wf = s.mem.wf := by rfl
@[simp] theorem State.checkFail_wf (s : State) : s.checkFail.mem.wf = true := by simp [State.checkFail]

/-! ## Function tables -/

@[simp] theorem State.tableWrite_wf (s : State) (k : Nat) (v : Bytes) : (s.tableWrite k v).2.2.mem.wf = s.mem.wf := by
  fun_cases State.tableWrite s k v <;> grind [wRange_wf, wOk_wf, wRsvd_wf, wRefused_wf]

/-! ## Settings store -/

@[simp] theorem State.writeBoot_wf (s : State) (b : Boot) : (s.writeBoot b).mem.wf = s.mem.wf := by rfl

@[simp] theorem State.putSetting_wf (s : State) (index sub v : Nat) : (s.putSetting index sub v).mem.wf = s.mem.wf := by
  fun_cases State.putSetting s index sub v <;> grind [State.setAcct, State.putSettings]

@[simp] theorem State.takeChoice_wf (s : State) (c : Nat × Nat × Bool) : (s.takeChoice c).mem.wf = s.mem.wf := by rfl
@[simp] theorem State.cfgDiverge_wf (s : State) (detail : Nat) : (s.cfgDiverge detail).mem.wf = s.mem.wf := by unfold State.cfgDiverge; split <;> rfl
@[simp] theorem State.applyRec_wf (s : State) (r : UserRec) : (s.applyRec r).mem.wf = s.mem.wf := by simp [State.applyRec]

@[simp] theorem State.syncRingAddr_wf (s : State) : s.syncRingAddr.mem.wf = s.mem.wf := by
  fun_cases State.syncRingAddr s <;> grind [State.writeBoot_wf]

@[simp] theorem State.loadUser_wf (s : State) : s.loadUser.mem.wf = s.mem.wf := by
  unfold State.loadUser
  dsimp only
  rw [State.syncRingAddr_wf]
  split <;> simp

@[simp] theorem State.startStore_wf (s : State) (c : UserCopy) : (s.startStore c).mem.wf = s.mem.wf := by rfl
@[simp] theorem State.storeWrite_wf (s : State) (v : Nat) : (s.storeWrite v).2.2.mem.wf = s.mem.wf := by simp [State.storeWrite]
@[simp] theorem State.restoreWrite_wf (s : State) (v : Nat) : (s.restoreWrite v).2.2.mem.wf = s.mem.wf := by simp [State.restoreWrite]

/-! ## Security -/

@[simp] theorem State.setLevel_wf (s : State) (level path : Nat) (expiry : Option Nat) : (s.setLevel level path expiry).mem.wf = s.mem.wf := by rfl
@[simp] theorem State.noteEnd_wf (s : State) : s.noteEnd.mem.wf = s.mem.wf := by unfold State.noteEnd; split <;> rfl
@[simp] theorem State.changeLevel_wf (s : State) (level path : Nat) (expiry : Option Nat) (measureOk : Bool) (canon : s.mem.wf = true) : (s.changeLevel level path expiry measureOk).mem.wf = true := by simp [State.changeLevel, canon]
@[simp] theorem State.closeDebug_wf (s : State) (measureOk : Bool) (canon : s.mem.wf = true) : (s.closeDebug measureOk).mem.wf = true := by simp [State.closeDebug, canon]
@[simp] theorem State.endSessionWrite_wf (s : State) (v : Nat) (measureOk : Bool) (canon : s.mem.wf = true) : (s.endSessionWrite v measureOk).2.2.mem.wf = true := by simp [State.endSessionWrite, canon]

@[simp] theorem State.signedWrite_wf (s : State) (kind : Nat) (b : Bytes) : (s.signedWrite kind b).2.2.mem.wf = s.mem.wf := by
  fun_cases State.signedWrite s kind b <;> grind [wRange_wf, wOk_wf, wRefused_wf, wState_wf, State.setLevel_wf, State.noteEnd_wf]

@[simp] theorem State.update_wf (s : State) (detail version : Nat) (slotB : Bool) : (s.update detail version slotB).mem.wf = s.mem.wf := by rfl
@[simp] theorem State.authorise_wf (s : State) (key : Nat) : (s.authorise key).mem.wf = s.mem.wf := by simp [State.authorise]
@[simp] theorem State.acceptGrant_wf (s : State) (r : SignedRec) (measureOk : Bool) (canon : s.mem.wf = true) : (s.acceptGrant r measureOk).mem.wf = true := by simp [State.acceptGrant, canon]

/-- A part of a canonical list is canonical. -/
theorem cellsAbove_filter (p : Host.Cell → Bool) (c : List Host.Cell) : ∀ lo, cellsAbove lo c = true → cellsAbove lo (c.filter p) = true := by
  induction c with
  | nil => exact fun _ canon => canon
  | cons x c ih =>
    obtain ⟨k, v⟩ := x
    intro lo canon
    simp only [cellsAbove, Bool.and_eq_true] at canon
    obtain ⟨⟨above, listed⟩, rest⟩ := canon
    rw [List.filter_cons]
    split
    · simp only [cellsAbove, Bool.and_eq_true]
      exact ⟨⟨above, listed⟩, ih _ rest⟩
    · refine ih lo ?_
      cases lo with
      | none => cases c <;> simp_all [cellsAbove]
      | some l => exact cellsAbove_mono l k c rest (Nat.le_of_lt (of_decide_eq_true above))

/-- A scrub keeps the cells outside usable HBM. -/
@[simp] theorem State.scrub_wf (s : State) (canon : s.mem.wf = true) : s.scrub.mem.wf = true := by
  unfold State.scrub
  refine cellsAbove_filter _ _ _ ?_
  show Memory.wf (State.mem _) = true
  simp [canon]

@[simp] theorem State.unloadImages_wf (s : State) : s.unloadImages.mem.wf = s.mem.wf := by simp [State.unloadImages]

@[simp] theorem State.destroyKeys_wf (s : State) : s.destroyKeys.mem.wf = s.mem.wf := by
  unfold State.destroyKeys
  dsimp only
  split <;> simp

@[simp] theorem State.clearAuths_wf (s : State) : s.clearAuths.mem.wf = s.mem.wf := by simp [State.clearAuths]

theorem State.transit_wf (s : State) (new : Nat) (effects : State → State) (canon : s.mem.wf = true) (keeps : ∀ u, u.mem.wf = true → (effects u).mem.wf = true) :
    (s.transit new effects).mem.wf = true := by
  simp [State.transit, keeps, canon]

@[simp] theorem State.haltWrite_wf (s : State) (v : Nat) : (s.haltWrite v).2.2.mem.wf = s.mem.wf := by simp [State.haltWrite]
@[simp] theorem State.stepWrite_wf (s : State) (n : Nat) : (s.stepWrite n).2.2.mem.wf = s.mem.wf := by simp [State.stepWrite]
@[simp] theorem State.respondMsg_wf (s : State) (code : Nat) : (s.respondMsg code).mem.wf = s.mem.wf := by rfl
@[simp] theorem State.spdmError_wf (s : State) (e : Nat) : (s.spdmError e).mem.wf = s.mem.wf := by rfl

@[simp] theorem State.spdmIn_wf (s : State) (phase : Nat) (f : State → State) (canon : s.mem.wf = true) (keeps : (f s).mem.wf = true) : (s.spdmIn phase f).mem.wf = true := by
  simp [State.spdmIn, canon, keeps]

@[simp] theorem State.setPhase_wf (s : State) (n : Nat) : (s.setPhase n).mem.wf = s.mem.wf := by rfl

@[simp] theorem State.inSession_wf (s : State) (n : Nat) (f : State → State) (canon : s.mem.wf = true) (keeps : (f s).mem.wf = true) : (s.inSession n f).mem.wf = true := by
  unfold State.inSession
  split
  · exact canon
  · split
    · simp [canon, keeps]
    · simp [canon]

/-! ## Start of the device -/

@[simp] theorem State.selfCheckFail_wf (s : State) : s.selfCheckFail.mem.wf = true := by simp [State.selfCheckFail]
@[simp] theorem State.startFailed_wf (s : State) (cause : Nat) (canon : s.mem.wf = true) : (s.startFailed cause).mem.wf = true := by simp [State.startFailed, canon]
@[simp] theorem State.clearStaged_wf (s : State) : s.clearStaged.mem.wf = s.mem.wf := by simp [State.clearStaged]
@[simp] theorem State.pieceWrite_wf (s : State) (k : Nat) (v : Bytes) : (s.pieceWrite k v).2.2.mem.wf = s.mem.wf := by simp [State.pieceWrite]
@[simp] theorem State.checkWrite_wf (s : State) (v : Nat) : (s.checkWrite v).2.2.mem.wf = s.mem.wf := by simp [State.checkWrite]
@[simp] theorem State.rollbackWrite_wf (s : State) (v : Nat) (verifies : Bool) : (s.rollbackWrite v verifies).2.2.mem.wf = s.mem.wf := by simp [State.rollbackWrite]
@[simp] theorem State.resetWrite_wf (s : State) (v : Nat) (canon : s.mem.wf = true) : (s.resetWrite v).2.2.mem.wf = true := by simp [State.resetWrite, canon]

/-! ## Object dictionary: effects of written values -/

@[simp] theorem State.bindAccounts_wf (s : State) (b : Bytes) : (s.bindAccounts b).2.2.mem.wf = s.mem.wf := by simp [State.bindAccounts]
@[simp] theorem State.clearAccount_wf (s : State) (a v : Nat) : (s.clearAccount a v).2.2.mem.wf = s.mem.wf := by unfold State.clearAccount; split <;> rfl
@[simp] theorem State.clearHouse_wf (s : State) (v : Nat) : (s.clearHouse v).2.2.mem.wf = s.mem.wf := by unfold State.clearHouse; split <;> rfl
@[simp] theorem State.clearLog_wf (s : State) (v : Nat) : (s.clearLog v).2.2.mem.wf = s.mem.wf := by unfold State.clearLog; split <;> rfl
@[simp] theorem State.settingWrite_wf (s : State) (index sub v : Nat) : (s.settingWrite index sub v).2.2.mem.wf = s.mem.wf := by simp [State.settingWrite]

@[simp] theorem State.dictWrite_wf (s : State) (secured ok : Bool) (index sub : Nat) (b : Bytes) (canon : s.mem.wf = true) : (s.dictWrite secured ok index sub b).2.2.mem.wf = true := by
  fun_cases State.dictWrite s secured ok index sub b <;> grind [
    State.settingWrite_wf, State.tableWrite_wf, State.windowWrite_wf, State.poolWrite_wf, State.clearAccount_wf, State.pieceWrite_wf, State.powerWrite_wf,
    State.signedWrite_wf, State.endSessionWrite_wf, State.haltWrite_wf, State.stepWrite_wf, State.storeWrite_wf, State.restoreWrite_wf,
    State.checkWrite_wf, State.rollbackWrite_wf, State.resetWrite_wf, State.clearHouse_wf, State.bindAccounts_wf, State.keyLoad_wf, State.keyUnload_wf,
    State.handoverWrite_wf, State.joinWrite_wf, State.bindWrite_wf, State.clearLog_wf]

@[simp] theorem State.setStaging_wf (s : State) (l : List Staging) : (s.setStaging l).mem.wf = s.mem.wf := by rfl
@[simp] theorem State.wholeValue_wf (s : State) (p : Path) (e : OdEntry) (index sub : Nat) (b : Bytes) (ok : Bool) (canon : s.mem.wf = true) : (s.wholeValue p e index sub b ok).2.2.mem.wf = true := by simp [State.wholeValue, canon]
@[simp] theorem State.tooLong_wf (s : State) (index sub : Nat) : (s.tooLong index sub).2.2.mem.wf = s.mem.wf := by unfold State.tooLong; split <;> rfl

@[simp] theorem State.segment_wf (s : State) (p : Path) (e : OdEntry) (index sub offset : Nat) (b : Bytes) (ok : Bool) (canon : s.mem.wf = true) : (s.segment p e index sub offset b ok).2.2.mem.wf = true := by
  unfold State.segment
  dsimp only
  split <;> simp [canon]

@[simp] theorem State.odWrite_wf (s : State) (a : Access) (ok : Bool) (canon : s.mem.wf = true) : (s.odWrite a ok).2.2.mem.wf = true := by
  fun_cases State.odWrite s a ok <;> grind [State.wholeValue_wf, State.segment_wf]

@[simp] theorem State.wholeWrite_wf (s : State) (p : Path) (index sub : Nat) (b : Bytes) (ok : Bool) (canon : s.mem.wf = true) : (s.wholeWrite p index sub b ok).2.2.mem.wf = true := by unfold State.wholeWrite; split <;> simp [canon]

@[simp] theorem State.odRead_wf (s : State) (a : Access) : (s.odRead a).2.2.mem.wf = s.mem.wf := by
  fun_cases State.odRead s a <;> grind

@[simp] theorem State.access_wf (s : State) (a : Access) (canon : s.mem.wf = true) : (s.access a).2.mem.wf = true := by simp [State.access, canon]
@[simp] theorem State.answered_wf (s : State) (x : DictAns) : (s.answered x).mem.wf = s.mem.wf := by rfl
@[simp] theorem answerWrite_wf (r : WriteRes) : (answerWrite r).mem.wf = r.2.2.mem.wf := by rfl

/-! ## Object dictionary: accesses -/

@[simp] theorem State.written_canonical (s : State) (p : Path) (i j : Nat) (b : Bytes) (canon : s.mem.wf = true) : (s.written p i j b).canonical = true := by simp [State.written, canon]
@[simp] theorem State.accessed_wf (s : State) (a : Access) (canon : s.mem.wf = true) : (s.accessed a).mem.wf = true := by simp [State.accessed, canon]

/-! ## Register mirror -/

@[simp] theorem State.mirrorDone_wf (s : State) (r : MirrorReq) (x : MirrorAns) : (s.mirrorDone r x).mem.wf = s.mem.wf := by unfold State.mirrorDone; split <;> rfl
@[simp] theorem State.requestDone_wf (s : State) (secured : Option Nat) (r : MirrorReq) (kind : Nat) (x : MirrorAns) : (s.requestDone secured r kind x).mem.wf = s.mem.wf := by unfold State.requestDone; split <;> simp
@[simp] theorem State.request_wf (s : State) (secured : Option Nat) (r : MirrorReq) (kind : Nat) (canon : s.mem.wf = true) : (s.request secured r kind).mem.wf = true := by simp [State.request, canon]

/-! ## Hatband -/

@[simp] theorem State.ringEvent_wf (s : State) (detail addr : Nat) : (s.ringEvent detail addr).mem.wf = s.mem.wf := by rfl
@[simp] theorem State.setSlow_wf (s : State) (l : List SlowPrep) : (s.setSlow l).mem.wf = s.mem.wf := by rfl

@[simp] theorem State.slowRead_wf (s : State) (e : OdEntry) (c : HbCall) : (s.slowRead e c).2.2.mem.wf = s.mem.wf := by
  fun_cases State.slowRead s e c <;> grind [State.setSlow_wf]

@[simp] theorem State.callRead_wf (s : State) (n : Nat) (c : HbCall) (canon : s.mem.wf = true) : (s.callRead n c).2.2.mem.wf = true := by
  unfold State.callRead
  dsimp only
  split <;> simp [canon]

@[simp] theorem State.callWrite_wf (s : State) (n : Nat) (c : HbCall) (canon : s.mem.wf = true) : (s.callWrite n c).2.2.mem.wf = true := by unfold State.callWrite; split <;> simp [canon]
@[simp] theorem State.answerUnicast_wf (s : State) (n : Nat) (c : HbCall) (canon : s.mem.wf = true) : (s.answerUnicast n c).2.mem.wf = true := by simp [State.answerUnicast, canon]
@[simp] theorem State.answerCall_wf (s : State) (n : Nat) (c : HbCall) (canon : s.mem.wf = true) : (s.answerCall n c).2.2.mem.wf = true := by simp [State.answerCall, canon]
@[simp] theorem State.setRemote_wf (s : State) (x : RemoteReq) : (s.setRemote x).mem.wf = s.mem.wf := by rfl
@[simp] theorem State.remoteDone_wf (s : State) (x : RemoteReq) (status detail contrib : Nat) : (s.remoteDone x status detail contrib).mem.wf = s.mem.wf := by simp [State.remoteDone]
@[simp] theorem State.remoteVoid_wf (s : State) (x : RemoteReq) : (s.remoteVoid x).mem.wf = s.mem.wf := by simp [State.remoteVoid]
@[simp] theorem State.remoteAnswer_wf (s : State) (x : RemoteReq) (c : HbCall) : (s.remoteAnswer x c).mem.wf = s.mem.wf := by simp [State.remoteAnswer]

@[simp] theorem State.readOwn_wf (s : State) (round : Nat) (slots : List HbCall) (void : Bool) : (s.readOwn round slots void).mem.wf = s.mem.wf := by
  fun_cases State.readOwn s round slots void <;> grind [State.remoteVoid_wf, State.remoteAnswer_wf]

@[simp] theorem State.remoteLate_wf (s : State) (round : Nat) : (s.remoteLate round).mem.wf = s.mem.wf := by
  fun_cases State.remoteLate s round <;> grind [State.remoteVoid_wf]

@[simp] theorem State.postRemote_wf (s : State) (round n : Nat) (x : RemoteReq) : (s.postRemote round n x).2.mem.wf = s.mem.wf := by rfl
@[simp] theorem State.noteLap1_wf (s : State) (round n : Nat) (c : HbCall) : (s.noteLap1 round n c).mem.wf = s.mem.wf := by rfl

@[simp] theorem State.slotLap1_wf (s : State) (round n : Nat) (c : HbCall) (canon : s.mem.wf = true) : (s.slotLap1 round n c).2.2.mem.wf = true := by
  fun_cases State.slotLap1 s round n c <;> grind [State.answerCall_wf, State.postRemote_wf, State.noteLap1_wf]

@[simp] theorem State.slotLap2_wf (s : State) (round n : Nat) (c : HbCall) (canon : s.mem.wf = true) : (s.slotLap2 round n c).2.2.mem.wf = true := by unfold State.slotLap2; split <;> simp [canon]

@[simp] theorem passSlots_wf (lap2 : Bool) (round : Nat) (l : List HbCall) : ∀ (n : Nat) (s : State), s.mem.wf = true → (passSlots lap2 round n l s).st.mem.wf = true := by
  induction l with
  | nil => exact fun _ _ canon => canon
  | cons c l ih =>
    intro n s canon
    refine ih _ _ ?_
    split <;> simp [canon]

@[simp] theorem State.passStanding_wf (s : State) (b : HbStanding) : (s.passStanding b).2.mem.wf = s.mem.wf := by simp [State.passStanding]

@[simp] theorem State.takeHeader_wf (s : State) (x : HbHeader) (delayNs : Nat) (canon : s.mem.wf = true) : (s.takeHeader x delayNs).mem.wf = true :=
  State.cadHeader_wf _ x _ canon

@[simp] theorem State.passHeader_wf (s : State) (x : HbHeader) (delayNs : Nat) (canon : s.mem.wf = true) : (s.passHeader x delayNs).mem.wf = true := by
  simp [State.passHeader, canon]

@[simp] theorem State.countSymErrs_wf (s : State) (n : Nat) : (s.countSymErrs n).mem.wf = s.mem.wf := by rfl
@[simp] theorem State.noteSeen_wf (s : State) (round banker : Nat) : (s.noteSeen round banker).mem.wf = s.mem.wf := by rfl

@[simp] theorem State.rivalFrame_wf (s : State) (f : HbFrame) (canon : s.mem.wf = true) : (s.rivalFrame f).mem.wf = true := by
  simp [State.rivalFrame, canon]

@[simp] theorem State.forwardFirst_wf (s : State) (f : HbFrame) (canon : s.mem.wf = true) : (s.forwardFirst f).mem.wf = true := by
  simp [State.forwardFirst, canon]

@[simp] theorem State.forwardSecond_wf (s : State) (f : HbFrame) (canon : s.mem.wf = true) : (s.forwardSecond f).mem.wf = true := by simp [State.forwardSecond, canon]
@[simp] theorem State.meetCall_wf (s : State) (slot : Nat) (c : HbCall) (canon : s.mem.wf = true) : (s.meetCall slot c).mem.wf = true := by simp [State.meetCall, canon]
@[simp] theorem State.announce_wf (s : State) : s.announce.mem.wf = s.mem.wf := by simp [State.announce]

@[simp] theorem State.admitCalls_wf (s : State) : s.admitCalls.2.mem.wf = s.mem.wf :=
  foldl_snd_wf _ _ _ fun _ _ => rfl

@[simp] theorem State.admitSelf_wf (s : State) : s.admitSelf.mem.wf = s.mem.wf := by unfold State.admitSelf; split <;> rfl

@[simp] theorem State.originate_wf (s : State) : s.originate.mem.wf = s.mem.wf := by
  unfold State.originate
  dsimp only
  split <;> simp

@[simp] theorem State.measureLap_wf (s : State) (dr : Nat) : (s.measureLap dr).mem.wf = s.mem.wf := by rfl
@[simp] theorem State.checkClosure_wf (s : State) (h : HbHeader) (origin delayNs : Nat) : (s.checkClosure h origin delayNs).mem.wf = s.mem.wf := by simp [State.checkClosure]
@[simp] theorem State.readStanding_wf (s : State) (b : HbStanding) : (s.readStanding b).mem.wf = s.mem.wf := by simp [State.readStanding, State.notePresent]
@[simp] theorem State.readAdmission_wf (s : State) (slots : List HbCall) (void : Bool) : (s.readAdmission slots void).mem.wf = s.mem.wf := by simp [State.readAdmission]

@[simp] theorem State.returned_wf (s : State) (f : HbFrame) (origin delayNs : Nat) (canon : s.mem.wf = true) : (s.returned f origin delayNs).mem.wf = true := by
  fun_cases State.returned s f origin delayNs
  grind [State.measureLap_wf, State.checkClosure_wf, State.passHeader_wf, State.readStanding_wf, State.ringEvent_wf, passSlots_wf, State.readOwn_wf, State.readAdmission_wf]

/-! ## Host interface -/

@[simp] theorem State.setSessionVec_wf (s : State) (fn key v : Nat) : (s.setSessionVec fn key v).mem.wf = s.mem.wf := by unfold State.setSessionVec; split <;> simp

section
variable {s : State} (canon : s.mem.wf = true)
include canon

/-! ## Translation -/

@[simp] theorem execContext_canonical (c : CmdSlot) : (execContext c s).canonical = true := by
  rw [execContext, Out.canonical_next, State.hostCommand_wf, canon]
  intro u t
  split
  · exact State.complete_wf u t _
  split
  · exact State.complete_wf u t _
  · exact State.complete_wf _ t _

@[simp] theorem execInvalidate_canonical (c : CmdSlot) : (execInvalidate c s).canonical = true := by
  rw [execInvalidate, Out.canonical_next, State.hostCommand_wf, canon]
  intro u t
  dsimp only
  split
  · exact State.complete_wf u t _
  split
  · exact State.complete_wf _ t _
  · rw [State.complete_wf, State.dropCached_wf]

@[simp] theorem execInvalidateDone_canonical (tag : Word32) : (execInvalidateDone tag s).canonical = true := by
  simp only [execInvalidateDone, Out.canonical_next]
  split
  · exact canon
  · rw [State.complete_wf, State.dropCached_wf]
    exact canon

/-! ## Seats -/

@[simp] theorem execHold_canonical (c : CmdSlot) : (execHold c s).canonical = true := by
  rw [execHold, Out.canonical_next, State.hostCommand_wf, canon]
  intro u t
  dsimp only
  split
  · simp
  split
  · simp
  split
  · simp
  · split <;> simp

/-! ## Forms -/

@[simp] theorem execUnloadEffect_canonical (formId : Nat) : (execUnloadEffect formId s).canonical = true := by unfold execUnloadEffect; split <;> simp [canon]

/-! ## Sheets -/

@[simp] theorem execSheetArrival_canonical (buf : Nat) : (execSheetArrival buf s).canonical = true := by
  simp only [execSheetArrival, Out.canonical_next]
  split
  · exact canon
  · split <;> simp [canon]

/-! ## Completion of SVIS items -/

@[simp] theorem execRepeatIteration_canonical (x : Site) : (execRepeatIteration x s).canonical = true := by
  simp only [execRepeatIteration, Out.canonical_next]
  split
  · exact canon
  · split <;> simp [canon]

@[simp] theorem execInstructionComplete_canonical (item : Nat) : (execInstructionComplete item s).canonical = true := by unfold execInstructionComplete; split <;> simp [canon]

@[simp] theorem execTileLanding_canonical (item late : Nat) : (execTileLanding item late s).canonical = true := by
  simp only [execTileLanding, Out.canonical_next]
  split
  · exact canon
  split
  · exact canon
  · split <;> simp [canon]

@[simp] theorem execMemoryItemComplete_canonical (item : Nat) (arr : Arrival) : (execMemoryItemComplete item arr s).canonical = true := by
  simp only [execMemoryItemComplete, Out.canonical_next]
  split
  · exact canon
  split
  · exact canon
  · split <;> simp [canon]

/-! ## Open window -/

@[simp] theorem execOpenProgramStart_canonical : (execOpenProgramStart s).canonical = true := by unfold execOpenProgramStart; split <;> simp [canon]
@[simp] theorem execOpenWindowEnd_canonical : (execOpenWindowEnd s).canonical = true := by unfold execOpenWindowEnd; split <;> simp [canon]

/-! ## Cadence -/

@[simp] theorem execDealMark_canonical (edge : Option Int) : (execDealMark edge s).canonical = true := by
  simp only [execDealMark, Out.canonical_next]
  split
  · exact canon
  · split <;> simp [canon]

@[simp] theorem execMissedEdge_canonical : (execMissedEdge s).canonical = true := by unfold execMissedEdge; split <;> exact canon
@[simp] theorem execLoadHintRise_canonical : (execLoadHintRise s).canonical = true := by unfold execLoadHintRise; split <;> simp [canon]
@[simp] theorem execSeamStart_canonical : (execSeamStart s).canonical = true := by unfold execSeamStart; split <;> exact canon

@[simp] theorem execDrainEnd_canonical : (execDrainEnd s).canonical = true := by
  simp only [execDrainEnd, Out.canonical_next]
  split
  · exact canon
  · split <;> simp [canon]

@[simp] theorem execDelayLineStep_canonical : (execDelayLineStep s).canonical = true := by unfold execDelayLineStep; split <;> exact canon
@[simp] theorem execLeftRelease_canonical : (execLeftRelease s).canonical = true := by unfold execLeftRelease; split <;> exact canon

/-! ## Vault -/

@[simp] theorem execKeySlotUpdate_canonical (slot : Nat) : (execKeySlotUpdate slot s).canonical = true := by unfold execKeySlotUpdate; split <;> simp [canon]

@[simp] theorem execImageDelete_canonical (c : CmdSlot) : (execImageDelete c s).canonical = true := by
  rw [execImageDelete, Out.canonical_next, State.hostCommand_wf, canon]
  intro u t
  dsimp only
  split
  · simp
  · split <;> simp

@[simp] theorem execPassHeader_canonical (value : Bytes) : (execPassHeader value s).canonical = true := by
  simp only [execPassHeader, Out.canonical_next]
  split
  · simp [canon]
  split
  · simp [canon]
  · split <;> simp [canon]

@[simp] theorem execPassRecord_canonical (value : Bytes) (media : Media) : (execPassRecord value media s).canonical = true := by
  simp only [execPassRecord, Out.canonical_next]
  split
  · exact canon
  split
  · exact canon
  split
  · simp [canon]
  split
  · simp [canon]
  · split <;> simp [canon]

@[simp] theorem execPassStreamEnd_canonical (linkLost : Bool) : (execPassStreamEnd linkLost s).canonical = true := by
  simp only [execPassStreamEnd, Out.canonical_next]
  split
  · exact canon
  split
  · exact canon
  · split <;> simp [canon]

@[simp] theorem execPassEndReport_canonical (highest : Nat) : (execPassEndReport highest s).canonical = true := by
  simp only [execPassEndReport, Out.canonical_next]
  split
  · exact canon
  split
  · exact canon
  · split <;> split <;> simp [canon]

@[simp] theorem execVaultScrub_canonical (die block : Nat) (media : Media) : (execVaultScrub die block media s).canonical = true := by
  rw [execVaultScrub, Out.canonical_next]
  split
  · exact canon
  split
  · simp [canon]
  extract_lets _ _ scanned
  have same : scanned.mem.wf = true := by simp [scanned, canon]
  split
  · exact same
  · split <;> simp [same]

/-! ## Ring links and notices -/

@[simp] theorem execNoRedealNotice_canonical (link : Nat) (n : Notice) : (execNoRedealNotice link n s).canonical = true := by
  simp only [execNoRedealNotice, Out.canonical_next]
  rw [State.hear_wf, canon]
  intro u
  split
  · rfl
  · simp

@[simp] theorem execBindingEffect_canonical : (execBindingEffect s).canonical = true := by unfold execBindingEffect; split <;> simp [canon]
@[simp] theorem execBankerTakeover_canonical (handover : Bool) : (execBankerTakeover handover s).canonical = true := by unfold execBankerTakeover; split <;> simp [canon]
@[simp] theorem execRefInLoss_canonical : (execRefInLoss s).canonical = true := by unfold execRefInLoss; split <;> exact canon
@[simp] theorem execRefInLock_canonical : (execRefInLock s).canonical = true := by unfold execRefInLock; split <;> exact canon
@[simp] theorem execSyncIn_canonical : (execSyncIn s).canonical = true := by unfold execSyncIn; split <;> exact canon

/-! ## Defects -/

@[simp] theorem execStoreEcc_canonical (u : UnitRef) (_line : Nat) (uncorrectable : Bool) : (execStoreEcc u _line uncorrectable s).canonical = true := by
  simp only [execStoreEcc, Out.canonical_next]
  split
  · simp [canon]
  · split <;> simp [canon]

@[simp] theorem execHbmUncorrectable_canonical (pa : Nat) : (execHbmUncorrectable pa s).canonical = true := by unfold execHbmUncorrectable; split <;> exact canon
@[simp] theorem execAuditWindowStart_canonical : (execAuditWindowStart s).canonical = true := by unfold execAuditWindowStart; split <;> exact canon
@[simp] theorem execAuditCompare_canonical (window : Nat) (cmps : List AuditCmp) : (execAuditCompare window cmps s).canonical = true := by unfold execAuditCompare; split <;> simp [canon]

/-! ## Loose DMA and the aperture -/

@[simp] theorem execWindowChangeEffect_canonical (w : Nat) : (execWindowChangeEffect w s).canonical = true := by
  simp only [execWindowChangeEffect, Out.canonical_next]
  split
  · exact canon
  · split <;> exact canon

@[simp] theorem execLooseDmaStop_canonical (queue : Nat) : (execLooseDmaStop queue s).canonical = true := by unfold execLooseDmaStop; split <;> simp [canon]
@[simp] theorem execHalt_canonical (fn queue : Nat) : (execHalt fn queue s).canonical = true := by unfold execHalt; split <;> exact canon

@[simp] theorem execOpenWindowStart_canonical : (execOpenWindowStart s).canonical = true := by
  simp only [execOpenWindowStart, Out.canonical_next]
  split
  · exact canon
  split
  · exact canon
  · simp [canon]

@[simp] theorem execBar2Read_canonical (fn offset len : Nat) : (execBar2Read fn offset len s).canonical = true := by
  simp only [execBar2Read, Out.canonical_next]
  grind [State.post_wf, State.apertureRead_wf, State.apertureFault_wf]

@[simp] theorem execBar2Write_canonical (fn offset : Nat) (data : Bytes) : (execBar2Write fn offset data s).canonical = true := by
  simp only [execBar2Write, Out.canonical_next]
  split
  · simp [canon]
  split
  · exact canon
  split
  next fault u found =>
    have kept := State.apertureMap_wf (s.fn fn).apAcct data.length ((s.fn fn).apBase + offset) s
    rw [found] at kept
    rw [State.apertureFault_wf]
    exact kept.trans canon
  next pas u found =>
    have kept := State.apertureMap_wf (s.fn fn).apAcct data.length ((s.fn fn).apBase + offset) s
    rw [found] at kept
    rw [State.noteForeign_wf]
    exact cellSets_keeps _ _ (kept.trans canon)

/-! ## Video -/

@[simp] theorem execSliceDone_canonical (engine : Nat) (out : SliceOut) : (execSliceDone engine out s).canonical = true := by
  simp only [execSliceDone, Out.canonical_next]
  split
  · exact canon
  split
  · exact canon
  split
  · simp [canon]
  split
  · simp [canon]
  split
  · simp [canon]
  next begun => simp [State.beginFrame_wf begun, canon]

@[simp] theorem execDecodeFrameDone_canonical (engine session : Nat) (out : DecOutcome) : (execDecodeFrameDone engine session out s).canonical = true := by
  simp only [execDecodeFrameDone, Out.canonical_next]
  split
  · exact canon
  split
  · exact canon
  split
  · grind [State.takeStream_wf, State.faultSession_wf, State.dropFrame_wf, State.videoEvent_wf]
  · grind [State.faultSession_wf, State.setSession, State.stateTouched_wf, State.takeStream_wf, State.decodeFrame_wf]

@[simp] theorem execEngineResetDone_canonical (engine : Nat) : (execEngineResetDone engine s).canonical = true := by unfold execEngineResetDone; split <;> exact canon

/-! ## Power and temperature -/

@[simp] theorem execTripRelease_canonical : (execTripRelease s).canonical = true := by unfold execTripRelease; split <;> exact canon
@[simp] theorem execSleepComplete_canonical : (execSleepComplete s).canonical = true := by unfold execSleepComplete; split <;> exact canon

/-! ## Function tables -/

@[simp] theorem execTableSlotUpdate_canonical (k : Nat) : (execTableSlotUpdate k s).canonical = true := by unfold execTableSlotUpdate; split <;> simp [canon]

/-! ## Settings store -/

@[simp] theorem execStoreComplete_canonical (firstOk secondOk : Bool) : (execStoreComplete firstOk secondOk s).canonical = true := by unfold execStoreComplete; split <;> simp [canon]

/-! ## Security -/

@[simp] theorem execGrantExpiry_canonical (measureOk : Bool) : (execGrantExpiry measureOk s).canonical = true := by
  simp only [execGrantExpiry, Out.canonical_next]
  split
  · exact canon
  · split <;> simp [canon]

@[simp] theorem execRecordVerified_canonical (measureOk : Bool) : (execRecordVerified measureOk s).canonical = true := by
  simp only [execRecordVerified, Out.canonical_next]
  split
  · exact canon
  split
  · split <;> simp [canon]
  · simp [canon]
  · simp [canon]

@[simp] theorem execOpenPreparationDone_canonical : (execOpenPreparationDone s).canonical = true := by unfold execOpenPreparationDone; split <;> simp [canon]

@[simp] theorem execProvision_canonical : (execProvision s).canonical = true := by
  simp only [execProvision, Out.canonical_next]
  split
  · exact State.transit_wf s _ _ canon fun u keeps => by simp [keeps]
  · exact canon

@[simp] theorem execUndeploy_canonical : (execUndeploy s).canonical = true := by
  simp only [execUndeploy, Out.canonical_next]
  split
  · exact State.transit_wf s _ _ canon fun u keeps => by simp [keeps]
  · exact canon

@[simp] theorem execReturnCmd_canonical : (execReturnCmd s).canonical = true := by
  simp only [execReturnCmd, Out.canonical_next]
  split
  · exact State.transit_wf s _ _ canon fun u keeps => by simp [keeps]
  · exact canon

@[simp] theorem execFinish_canonical (session : Nat) (verifyOk : Bool) : (execFinish session verifyOk s).canonical = true := by
  simp only [execFinish, Out.canonical_next]
  split
  · exact canon
  · split <;> simp [canon]

@[simp] theorem execIdeIntegrityFail_canonical (stream : Nat) : (execIdeIntegrityFail stream s).canonical = true := by unfold execIdeIntegrityFail; split <;> exact canon

/-! ## Start of the device -/

@[simp] theorem execCheckComplete_canonical (signatureOk orphan : Bool) : (execCheckComplete signatureOk orphan s).canonical = true := by
  simp only [execCheckComplete, Out.canonical_next]
  split
  · exact canon
  · split <;> simp [canon]

@[simp] theorem execBrimConfirm_canonical : (execBrimConfirm s).canonical = true := by unfold execBrimConfirm; split <;> exact canon

/-! ## Object dictionary: accesses -/

@[simp] theorem execSnapshotLapse_canonical (path : Path) (index sub : Nat) : (execSnapshotLapse path index sub s).canonical = true := by unfold execSnapshotLapse; split <;> exact canon

/-! ## Hatband -/

@[simp] theorem execSlowEntryPrepared_canonical (index sub : Nat) : (execSlowEntryPrepared index sub s).canonical = true := by unfold execSlowEntryPrepared; split <;> simp [canon]

@[simp] theorem execFrameReturn_canonical (f : HbFrame) (delayNs : Nat) : (execFrameReturn f delayNs s).canonical = true := by
  simp only [execFrameReturn, Out.canonical_next]
  split
  · exact canon
  split
  · simp [canon]
  · simp [canon]

@[simp] theorem execNodeLost_canonical (addr : Nat) : (execNodeLost addr s).canonical = true := by unfold execNodeLost; split <;> exact canon
@[simp] theorem execRingBreak_canonical : (execRingBreak s).canonical = true := by unfold execRingBreak; split <;> exact canon

/-! ## Host interface -/

@[simp] theorem execMsiXRaise_canonical (fn vector : Nat) : (execMsiXRaise fn vector s).canonical = true := by
  simp only [execMsiXRaise, Out.canonical_next]
  split
  · exact canon
  · split <;> simp [canon]

/-! ## Every command -/

/-- A command without a lemma of its own is a composition of the operations above, so its definition is all that is needed. -/
theorem exec_canonical (c : Instr) : Out.canonical (exec c s) = true := by
  cases c <;> simp [
    exec, canon, execSeat, execRelease, execClear, execReadSeat, execAbort, execFormLoad, execFormUnload, execSheetDb, execSheetCutoff,
    State.sendSelect, execScReadRequest, execScWriteRequest, execKittyEviction, execFetchInvalidate, execDealDecision, execRepairCheckDone, execMma,
    execMzero, execVadd, execVsub, execVmul, execVfma, execVmax, execVmin, execVabs, execVneg, execVcvt, execVcmplt, execVcmpeq, execVsel, execVqmx,
    execVand, execVor, execSfn, execSfuse, execSstat, execSmerge, execSmask, execLmov, execLgath, execLscat, execLda, execWstream, execXput,
    execXcast, execXdeck, execNop, execRepeatFrame, execSeta, execAdda, execAddid, execRegion, execRfree, execMarkTrace, execRwait, execEndProgram,
    execProgram, execResetNPulse, execPwrGoodFall, execPcieReset, execWatchdogExpiry, execBeatEdge, execFlywheelEdge, execBeatLoss, execPass,
    execLinkTrained, execLinkDown, execDeckIdent, execDeckNak, execDeckDataFlit, execSelectNotice, execCauseNotice, execFoldNotice, execLeaveNotice,
    execGroupCompare, execBankerElectionTimeout, execLinkParity, execGatewayParity, execTableEcc, execSfuParity, execVaultPort, execHubDefect,
    execDroop, execAudit, execBistDone, execLooseDmaDescriptor, execResume, execSkip, execLdmaDb, execQbind, execOpenSession, execCloseSession,
    execSessionDrained, execAbandon, execForceKey, execRate, execPoolMark, execDecodeCmd, execBsRead, execEngineDefect, execThermalEvaluation,
    State.thermalWithdraw, State.takeReadings, State.noteBlind, execThermalTrip, execCriticalTemperature, execSleepEntry, execWakeComplete,
    execOpenPreparation, State.prepare, execDeploy, State.transit_wf, execGetVersion, execGetCapabilities, execNegotiateAlgorithms, execGetDigests,
    execGetCertificate, execChallenge, execGetMeasurements, execKeyExchange, execKeyUpdate, execHeartbeat, execEndSession, execIdeKmRequest,
    execResetRelease, State.enterLamed, State.enterRescue, execHatbandReady, State.startSecurity, State.completeEffects, execHbmTrained,
    execVaultMounted, execRunReady, execKeyLoad, execKeyUnload, execPcieWindowWrite, execPoolEntryWrite, execTableSlotWrite, execStoreLayer,
    execRestoreLayer, execAccountCounterClear, execHouseCounterClear, execAccountBinding, execLogClear, execJoinMark, execHandover, execGroupBinding,
    execGrantObserve, execGrantOpen, execBlankOpenGrant, execEndDebugSession, execDealerHalt, execDealerStep, execSleepRequest, execRunRequest,
    execStagingPieceWrite, execStageCheck, execDiscard, execCrownAuthorisation, execRollback, execFirmwareReset, execTapAccess, execDictionaryWrite,
    execStagingTimeout, execMirrorRead, execMirrorWrite, execMirrorBroadcastRead, execVendorDefinedRequest, execHbFirstLapFrame, execHbSecondLapFrame,
    execHbRead, execHbWrite, execHbBroadcastRead, execRoundOrigin, execEvHead, execCplHead, execRegisterWrite, State.cmdDoorbell, execFlr,
    State.muteSheets]

end

end Sys2Proof.Machine

namespace Sys2Proof.Proofs
open Sys2Proof Sys2Proof.Machine

/-- Settles O60: whichever command is at the front, its operation leaves HBM in canonical form. -/
theorem stepKeepsMemoryCanonical : Obligations.StepKeepsMemoryCanonical := by
  unfold Obligations.StepKeepsMemoryCanonical
  intro s t canon stepped
  unfold step at stepped
  split at stepped
  case h_1 =>
    cases stepped
    exact canon
  case h_2 c rest _ =>
    have kept := exec_canonical (s := { s with pending := rest }) canon c
    rw [stepped] at kept
    exact kept

end Sys2Proof.Proofs
end

section
/-!
Lemmas on hub defects that recur (R359), uncorrectable HBM errors (R258) and the defects found where nothing is dealt (Table 12.5, R188, R189, R240, R301, R348, R590); that their check begins at once is log entry 61, and that a droop is then nothing log entry 78.
-/
namespace Sys2Proof.Machine

variable {s : State}

/-! ## The hub defect that recurs -/

/-- A misdeal that takes the device from the table decides its deal, and moves nothing else of the deal clock. -/
theorem State.departMisdeal_cad (s : State) (rank detail : Nat) : (s.departMisdeal rank detail).cad = { s.cad with decided := true } := by
  have judged : s.judgeRunning.cad = s.cad := congrArg Holdings.cad s.judgeRunning_holdings
  unfold State.departMisdeal
  dsimp only
  split
  · refine (State.misdealDeal_lasts _ _ _ _).cad.trans ?_
    simp [judged]
  · refine (State.misdealDeal_lasts _ _ _ _).cad.trans ((congrArg Holdings.cad (State.judgeReads_holdings _ _ _)).trans ?_)
    simp only [State.holdings, State.sendNotice_frame]
    split
    next known => simp [← known]
    next => exact s.decideDeal_forgets.1

@[simp] theorem State.leaveTable_holdHub (s : State) (rank detail : Nat) (next : CadState) : (s.leaveTable rank detail next).cad.holdHub = s.cad.holdHub := by
  have departed : (s.departMisdeal rank detail).cad.holdHub = s.cad.holdHub := by rw [s.departMisdeal_cad]
  have tested : ∀ again : Bool, (if again then s.departMisdeal rank detail else (s.departMisdeal rank detail).suspectsToBist).cad.holdHub = s.cad.holdHub :=
    fun again => by split <;> exact departed
  unfold State.leaveTable
  dsimp only
  rw [State.flushEvents_cad]
  dsimp only
  simp only [State.sendNotice_frame]
  exact tested _

/-- The hub defect is one that recurs, and the device stays in LEFT until it is reset (R359). -/
def State.hubHeld (s : State) : State := { s.hubDefectSeen with repair := { s.hubDefectSeen.repair with hubHold := true }, cad := { s.cad with holdHub := true } }

theorem execHubDefect_leaves {d : Nat} (deals : s.dealing = true) (before : s.repair.hubDefectDeal = some d) (recent : s.cad.deal - d ≤ s.repair.transientWindow) :
    execHubDefect s = .next (s.hubHeld.leaveTable 3 0x37 .left) := by
  have still : s.hubHeld.dealing = true := deals
  have again : decide (s.cad.deal - d ≤ s.repair.transientWindow) = true := decide_eq_true recent
  unfold execHubDefect
  rw [before]
  dsimp only
  rw [if_pos again]
  exact congrArg Host.Outcome.next (if_pos still)

/-! ## The uncorrectable HBM error -/

theorem mem_sins (n : Nat) (l : List Nat) : n ∈ sins n l := by
  induction l with
  | nil => exact List.mem_singleton_self n
  | cons m l ih =>
    unfold sins
    split
    next same => exact same ▸ List.mem_cons_self
    split
    · exact List.mem_cons_self
    · exact List.mem_cons_of_mem m ih

theorem usableHbm_byte {pa : Nat} (usable : usableHbm pa 1 = true) : pa < 8 * dieStride := by
  simp only [usableHbm] at usable
  simp_all

theorem execHbmUncorrectable_poisons {pa : Nat} (usable : usableHbm pa 1 = true) : execHbmUncorrectable pa s = .next (s.markPoison pa) := by
  rw [execHbmUncorrectable, if_pos (usableHbm_byte usable)]

theorem State.markPoison_poisonedAt (s : State) (pa : Nat) : (s.markPoison pa).poisonedAt pa = true := by
  rw [State.poisonedAt, s.markPoison_mem]
  exact List.contains_iff_mem.mpr (mem_sins _ _)

/-! ## Defects where nothing is dealt -/

section
variable (idle : s.dealing = false)
include idle

theorem State.inDealTricks_of_idle : s.inDealTricks = false := by simp [State.inDealTricks, idle]

theorem State.addCheck_of_idle (u : UnitRef) (rank detail : Nat) : s.addCheck u rank detail = s.withCheckNow u rank detail := by
  simp [State.addCheck, State.withCheckNow, idle]

/-- A droop where no deal tricks run is nothing (R590). -/
theorem execDroop_of_idle (die ns : Nat) : execDroop die ns s = .next s := by
  simp [execDroop, State.inDealTricks_of_idle idle]

theorem execVaultPort_of_idle (die block : Nat) : execVaultPort die block s = .next ((s.vaultFailure 0x52 die).addCheck (.vaultPort die) 7 0x52) := by
  simp [execVaultPort, State.inDealTricks_of_idle idle]

variable (closed : s.svis.openWin = none)
include closed

theorem State.defect_of_idle (u : UnitRef) (detail die row col : Nat) : s.defect u detail die row col = s.withCheckNow u 3 detail := by
  have shut : s.inOpenWindow die = false := by simp [State.inOpenWindow, closed]
  simp [State.defect, shut, State.inDealTricks_of_idle idle, State.addCheck_of_idle idle]

theorem State.felt_of_idle (u : UnitRef) (detail die place : Nat) (crosses : Item → Bool) : s.felt u detail die place crosses = s.moreParity.withCheckNow u 3 detail := by
  have shut : s.parityCount.inOpenWindow die = false := by simp [State.inOpenWindow, State.parityCount, closed]
  have still : s.parityCount.dealing = false := idle
  simp only [State.felt, shut, State.inDealTricks_of_idle still, State.addCheck_of_idle still, Bool.false_eq_true, if_false]
  rfl

end

/-- A vault failure is counted and logged, in a class that the hub store does not keep. -/
theorem State.vaultFailure_frame (s : State) (detail die : Nat) :
    (s.vaultFailure detail die).vault = { s.vault with failures := s.vault.failures + 1 } ∧ (s.vaultFailure detail die).dealer = s.dealer ∧ (s.vaultFailure detail die).cad = s.cad
      ∧ (s.vaultFailure detail die).group = s.group ∧ (s.vaultFailure detail die).seats = s.seats ∧ (s.vaultFailure detail die).mem = s.mem ∧ (s.vaultFailure detail die).nv = s.nv := by
  simp [State.vaultFailure, (State.logAppend_nv _ (logItem _ _ _ _)).2 rfl]

/-- The check that begins at once depends on the Dealer and on the deal that a cause belongs to. -/
theorem State.withCheckNow_dealer {t : State} (dealer : t.dealer = s.dealer) (cad : t.cad = s.cad) (group : t.group = s.group) (u : UnitRef) (rank detail : Nat) :
    (t.withCheckNow u rank detail).dealer = (s.withCheckNow u rank detail).dealer := by
  have deal : t.causeDeal = s.causeDeal := by
    unfold State.causeDeal State.left State.inGroup
    rw [cad, group]
  simp [State.withCheckNow, dealer, deal]

end Sys2Proof.Machine

namespace Sys2Proof.Proofs
open Sys2Proof Sys2Proof.Machine

/-- Settles O31: the recurring hub defect is a departure that keeps its hold, the HBM error a poisoned line, and an idle defect its check alone. -/
theorem hubDefectAndPoison : Obligations.HubDefectAndPoison := by
  unfold Obligations.HubDefectAndPoison
  refine ⟨?hub, ?hbm, ?idle⟩
  case hub =>
    intro s d deals before recent
    obtain ⟨left, -, -, -, running, -, -⟩ := s.hubHeld.leaveTable_leaves 3 0x37 .left
    exact ⟨_, execHubDefect_leaves deals before recent, left, State.leaveTable_holdHub _ _ _ _, running⟩
  case hbm =>
    intro s pa usable
    exact ⟨_, execHbmUncorrectable_poisons usable, s.markPoison_mem pa, s.markPoison_poisonedAt pa, by simp [State.markPoison], by simp [State.markPoison]⟩
  case idle =>
    intro s idle closed
    have defect : ∀ u detail d r c, (.next (s.defect u detail d r c) : Out) = .next (s.withCheckNow u 3 detail) :=
      fun u detail d r c => congrArg Host.Outcome.next (State.defect_of_idle idle closed u detail d r c)
    refine ⟨?coreStore, ?clusterStore, ?link, ?gateway, ?table, ?sfu, ?vault, ?droop⟩
    case coreStore => exact fun d r c k _ => defect (.coreStore d r c k) 0x30 d r c
    case clusterStore => exact fun d r c _ => defect (.clusterStore d r c) 0x30 d r c
    case link => exact fun d r c => congrArg Host.Outcome.next (State.felt_of_idle idle closed (.router d r c) 0x31 d (placeCluster d r c) _)
    case gateway => exact fun d r => congrArg Host.Outcome.next (State.felt_of_idle idle closed (.gateway d r) 0x32 d (placeCluster d r 0) _)
    case table => exact fun d r c => defect (.table d r c) 0x33 d r c
    case sfu => exact fun d r c => defect (.sfu d r c) 0x36 d r c
    case vault =>
      intro d b
      obtain ⟨vault, dealer, cad, group, seats, mem, nv⟩ := s.vaultFailure_frame 0x52 d
      have still : (s.vaultFailure 0x52 d).dealing = false := by rw [State.dealing, cad]; exact idle
      refine ⟨_, execVaultPort_of_idle idle d b, ?_⟩
      rw [State.addCheck_of_idle still]
      exact ⟨congrArg Vault.failures vault, State.withCheckNow_dealer dealer cad group _ _ _, seats, mem, nv⟩
    case droop => exact execDroop_of_idle idle

end Sys2Proof.Proofs
end

section
/-!
Lemmas on the directory of shared-coherent lines and the Kitties' evictions (R268 to R270): what each part of a request does to the state of its own line, of another line, and to memory. The eviction in two commands, the SC bit read from the translated leaves and H as an owner are log entry 30.
-/
namespace Sys2Proof.Machine

variable {s : State} {line m d : Nat}

/-! ## The state of a line -/

/-- The directory does not list a line that nobody shares. -/
def DirState.listed (st : DirState) : DirState := if st = .uncached || st = .shared 0 false then .uncached else st

@[simp] theorem State.dirState_setDir_same (s : State) (line : Nat) (st : DirState) : (s.setDir line st).dirState line = st.listed := by
  unfold State.dirState State.setDir DirState.listed
  dsimp only
  split
  · rw [aget_adel_same]; rfl
  · rw [aget_aset_same]; rfl

theorem State.dirState_setDir_other (s : State) (st : DirState) (other : m ≠ line) : (s.setDir line st).dirState m = s.dirState m := by
  unfold State.dirState State.setDir
  dsimp only
  split
  · rw [aget_adel_other _ _ _ other]
  · rw [aget_aset_other _ _ _ _ other]

@[simp] theorem State.dirState_kittyDrop (s : State) (d line m : Nat) : (s.kittyDrop d line).dirState m = s.dirState m := by
  unfold State.kittyDrop; split <;> rfl

@[simp] theorem State.dirState_beginEvict (s : State) (d line m : Nat) : (s.beginEvict d line).dirState m = s.dirState m := by
  unfold State.beginEvict
  split
  · rfl
  · split <;> rfl

@[simp] theorem State.dirState_kittyAccess (s : State) (d line m : Nat) : (s.kittyAccess d line).dirState m = s.dirState m := by
  unfold State.kittyAccess
  dsimp only
  split
  · rfl
  · split
    · exact State.dirState_beginEvict s _ _ m
    · rfl

/-! ## Who holds a line -/

theorem dieBit_getLsbD (d e : Nat) : (dieBit d).getLsbD e = (decide (e < 8) && decide (d = e)) := by
  rw [dieBit, BitVec.getLsbD_ofNat, Nat.testBit_two_pow]

theorem dieBit_self (die : d < 8) : (dieBit d).getLsbD d = true := by simp [dieBit_getLsbD, die]

/-- A line that nobody shares is held by nobody, listed or not. -/
theorem holds_listed (st : DirState) (d : Nat) : holds st.listed d = holds st d := by
  unfold DirState.listed
  split
  next unlisted =>
    obtain rfl | rfl : st = .uncached ∨ st = .shared 0 false := by simpa using unlisted
    · rfl
    · simp [holds]
  next => rfl

theorem holds_dropDie (st : DirState) (d : Nat) : holds (dropDie st d) d = none := by
  cases st with
  | uncached => rfl
  | ownedHub => rfl
  | owned o => by_cases own : o = d <;> simp [dropDie, holds, own]
  | shared k h =>
    have gone : (k &&& ~~~dieBit d).getLsbD d = false := by
      by_cases die : d < 8 <;> simp [dieBit_getLsbD, die]
    simp [dropDie, holds, gone]

theorem holds_readDir (st : DirState) (die : d < 8) : ∃ k, holds (readDir st (.die d)) d = some k := by
  cases st with
  | uncached => simp [readDir, holds, dieBit_self die]
  | ownedHub => simp [readDir, holds, dieBit_self die]
  | shared k h => simp [readDir, holds, dieBit_self die]
  | owned o => by_cases own : o = d <;> simp [readDir, holds, own, dieBit_self die]

/-- An owner that was another keeps a copy in S. -/
theorem holds_readDir_owner {o : Nat} (die : o < 8) (other : o ≠ d) : holds (readDir (.owned o) (.die d)) o = some false := by
  simp [readDir, holds, other, dieBit_self die]

theorem readDir_hub (st : DirState) : (readDir st .hub).listed = .ownedHub ∨ ∃ k, (readDir st .hub).listed = .shared k true := by
  cases st <;> simp [readDir, DirState.listed]

theorem writeDir_listed (a : CohAgent) : (writeDir a).listed = writeDir a := by
  cases a <;> simp [writeDir, DirState.listed]

/-! ## The directory processes an eviction -/

theorem State.evicts_evicted_same (s : State) (line d : Nat) : (s.evicted line d).evicts d line = false := by
  refine List.any_eq_false.mpr fun x mem => ?_
  simpa [imp_iff_not_or] using (List.mem_filter.mp mem).2

theorem State.evicts_evicted_of_free {e : Nat} (d : Nat) (free : s.evicts e line = false) : (s.evicted line d).evicts e line = false :=
  List.any_eq_false.mpr fun x mem => List.any_eq_false.mp free x (List.mem_of_mem_filter mem)

theorem State.dirState_evicted_same (s : State) (line d : Nat) : (s.evicted line d).dirState line = (dropDie (s.dirState line) d).listed :=
  s.dirState_setDir_same line _

theorem State.dirState_evicted_other (s : State) (d : Nat) (other : m ≠ line) : (s.evicted line d).dirState m = s.dirState m :=
  s.dirState_setDir_other _ other

theorem State.dirState_crossing_other (s : State) (d : Nat) (other : m ≠ line) : (s.crossing line d).dirState m = s.dirState m :=
  State.dirState_evicted_other _ d other

theorem State.holds_evicted (s : State) (line d : Nat) : holds ((s.evicted line d).dirState line) d = none := by
  rw [s.dirState_evicted_same, holds_listed, holds_dropDie]

theorem State.mem_evicted (s : State) (line d : Nat) : (s.evicted line d).mem = s.mem := rfl

theorem State.mem_crossing (s : State) (line d : Nat) : (s.crossing line d).mem = { s.mem with crossings := s.mem.crossings + 1 } := rfl

theorem State.mem_kittyDrop (s : State) (d line : Nat) : (s.kittyDrop d line).mem = s.mem := by
  unfold State.kittyDrop; split <;> rfl

theorem State.coh_kittyDrop (s : State) (d line : Nat) : (s.kittyDrop d line).coh = s.coh := by
  unfold State.kittyDrop; split <;> rfl

theorem State.evicts_kittyDrop (s : State) (d line e k : Nat) : (s.kittyDrop d line).evicts e k = s.evicts e k := by
  rw [State.evicts, State.evicts, s.coh_kittyDrop]

theorem State.mem_kittyAccess (s : State) (d line : Nat) : (s.kittyAccess d line).mem = s.mem := by
  have begun : ∀ old, (s.beginEvict d old).mem = s.mem := fun old => by
    unfold State.beginEvict
    split
    · rfl
    · split <;> rfl
  unfold State.kittyAccess
  dsimp only
  split
  · rfl
  · split
    · exact begun _
    · rfl

/-! ## The parts of a request -/

/-- An eviction by the requester itself has reached the directory before its request. -/
def State.ownEvicted (s : State) : CohAgent → Nat → State
  | .die d, line => if s.evicts d line then s.evicted line d else s
  | .hub, _ => s

theorem State.ownEvicted_die (s : State) (d line : Nat) : s.ownEvicted (.die d) line = if s.evicts d line then s.evicted line d else s := rfl

/-- The snoops of a request that meet an eviction. -/
def State.crossed (s : State) (a : CohAgent) (wr : Bool) (line : Nat) : List Nat := (snooped (s.dirState line) a wr).filter (fun d => s.evicts d line)

/-- The snoops of a request have gone out. -/
def State.snoop (s : State) (a : CohAgent) (wr : Bool) (line : Nat) : State :=
  let t := (s.crossed a wr line).foldl (fun s d => s.crossing line d) s
  if wr then (snooped (s.dirState line) a wr).foldl (fun s d => s.kittyDrop d line) t else t

/-- The requester is a sharer or the owner. -/
def State.grant (s : State) (a : CohAgent) (wr : Bool) (line : Nat) : State := s.setDir line (if wr then writeDir a else readDir (s.dirState line) a)

/-- The requester's Kitty brings the line in. -/
def State.bringIn (s : State) : CohAgent → Nat → State
  | .die d, line => s.kittyAccess d line
  | .hub, _ => s

theorem State.scRequest_eq (s : State) (a : CohAgent) (wr : Bool) (line : Nat) :
    s.scRequest a wr line = (((s.ownEvicted a line).snoop a wr line).grant a wr line).bringIn a line := by
  cases a <;> rfl

/-! ## What each part does to a line -/

@[simp] theorem State.dirState_bringIn (s : State) (a : CohAgent) (line m : Nat) : (s.bringIn a line).dirState m = s.dirState m := by
  cases a with
  | die d => exact s.dirState_kittyAccess d line m
  | hub => rfl

theorem State.dirState_ownEvicted_other (s : State) (a : CohAgent) (other : m ≠ line) : (s.ownEvicted a line).dirState m = s.dirState m := by
  cases a with
  | hub => rfl
  | die d =>
    rw [State.ownEvicted_die]
    split
    · exact s.dirState_evicted_other d other
    · rfl

/-- A line that another owns is not changed by the requester's own eviction. -/
theorem State.dirState_ownEvicted_of_drop {st : DirState} (state : s.dirState line = st) (listed : st.listed = st) (kept : dropDie st d = st) :
    (s.ownEvicted (.die d) line).dirState line = st := by
  rw [State.ownEvicted_die]
  split
  · rw [s.dirState_evicted_same, state, kept, listed]
  · exact state

theorem State.evicts_ownEvicted {e : Nat} (a : CohAgent) (free : s.evicts e line = false) : (s.ownEvicted a line).evicts e line = false := by
  cases a with
  | hub => exact free
  | die d =>
    rw [State.ownEvicted_die]
    split
    · exact State.evicts_evicted_of_free d free
    · exact free

@[simp] theorem State.mem_ownEvicted (s : State) (a : CohAgent) (line : Nat) : (s.ownEvicted a line).mem = s.mem := by
  cases a with
  | hub => rfl
  | die d => rw [State.ownEvicted_die]; split <;> rfl

theorem State.dirState_kittyDrops (s : State) (line m : Nat) (l : List Nat) : (l.foldl (fun s d => s.kittyDrop d line) s).dirState m = s.dirState m :=
  foldl_keeps (fun s => s.dirState m) (fun s d => s.dirState_kittyDrop d line m) l s

theorem State.dirState_crossings_other (s : State) (l : List Nat) (other : m ≠ line) : (l.foldl (fun s d => s.crossing line d) s).dirState m = s.dirState m :=
  foldl_keeps (fun s => s.dirState m) (fun s d => s.dirState_crossing_other d other) l s

theorem State.mem_kittyDrops (s : State) (line : Nat) (l : List Nat) : (l.foldl (fun s d => s.kittyDrop d line) s).mem = s.mem :=
  foldl_keeps State.mem (fun s d => s.mem_kittyDrop d line) l s

theorem State.mem_crossings (line : Nat) (l : List Nat) (s : State) : (l.foldl (fun s d => s.crossing line d) s).mem = { s.mem with crossings := s.mem.crossings + l.length } := by
  induction l generalizing s with
  | nil => rfl
  | cons d l ih =>
    rw [List.foldl_cons, ih, s.mem_crossing]
    simp [Nat.add_comm, Nat.add_left_comm]

theorem State.dirState_snoop_other (s : State) (a : CohAgent) (wr : Bool) (other : m ≠ line) : (s.snoop a wr line).dirState m = s.dirState m := by
  unfold State.snoop
  dsimp only
  split
  · rw [State.dirState_kittyDrops, State.dirState_crossings_other s _ other]
  · exact State.dirState_crossings_other s _ other

theorem State.dirState_snoop_uncrossed {a : CohAgent} {wr : Bool} (none : s.crossed a wr line = []) (m : Nat) : (s.snoop a wr line).dirState m = s.dirState m := by
  unfold State.snoop
  rw [none]
  dsimp only
  split
  · exact State.dirState_kittyDrops s line m _
  · rfl

theorem State.mem_snoop (s : State) (a : CohAgent) (wr : Bool) (line : Nat) :
    (s.snoop a wr line).mem = { s.mem with crossings := s.mem.crossings + (s.crossed a wr line).length } := by
  unfold State.snoop
  dsimp only
  split
  · rw [State.mem_kittyDrops, State.mem_crossings]
  · exact State.mem_crossings line _ s

/-- A snoop crosses nothing where no Kitty it goes to evicts the line. -/
theorem State.crossed_nil {a : CohAgent} {wr : Bool} (free : ∀ e ∈ snooped (s.dirState line) a wr, s.evicts e line = false) : s.crossed a wr line = [] :=
  List.filter_eq_nil_iff.mpr fun e snooped => by simp [free e snooped]

theorem snooped_lt {st : DirState} {a : CohAgent} {wr : Bool} {e : Nat} (mem : e ∈ snooped st a wr) : e < 8 :=
  List.mem_range.mp (List.mem_filter.mp mem).1

/-- A read snoops the one owner. -/
theorem snooped_read_owned {a : CohAgent} {o e : Nat} (mem : e ∈ snooped (.owned o) a false) : e = o := by
  have held := (List.mem_filter.mp mem).2
  by_contra other
  simp [holds, Ne.symm other] at held

theorem snooped_ownedHub (a : CohAgent) (wr : Bool) : snooped .ownedHub a wr = [] := by
  simp [snooped, holds]

/-! ## A request to the directory -/

theorem State.dirState_scRequest_other (s : State) (a : CohAgent) (wr : Bool) (other : m ≠ line) : (s.scRequest a wr line).dirState m = s.dirState m := by
  rw [s.scRequest_eq, State.dirState_bringIn, State.grant, State.dirState_setDir_other _ _ other, State.dirState_snoop_other _ a wr other, s.dirState_ownEvicted_other a other]

theorem State.dirState_scRequest_write (s : State) (a : CohAgent) (line : Nat) : (s.scRequest a true line).dirState line = writeDir a := by
  rw [s.scRequest_eq, State.dirState_bringIn, State.grant, State.dirState_setDir_same]
  exact writeDir_listed a

theorem State.dirState_scRequest_read (s : State) (a : CohAgent) (line : Nat) :
    (s.scRequest a false line).dirState line = (readDir (((s.ownEvicted a line).snoop a false line).dirState line) a).listed := by
  rw [s.scRequest_eq, State.dirState_bringIn, State.grant, State.dirState_setDir_same]
  rfl

/-- A read of a line that is another's own, with no eviction to cross, is answered on that state. -/
theorem State.dirState_scRequest_read_owned {o : Nat} (owned : s.dirState line = .owned o) (other : o ≠ d) (free : s.evicts o line = false) :
    (s.scRequest (.die d) false line).dirState line = (readDir (.owned o) (.die d)).listed := by
  have kept : (s.ownEvicted (.die d) line).dirState line = .owned o := State.dirState_ownEvicted_of_drop owned rfl (by simp [dropDie, other])
  have uncrossed : (s.ownEvicted (.die d) line).crossed (.die d) false line = [] := State.crossed_nil fun e mem => by
    rw [kept] at mem
    rw [snooped_read_owned mem]
    exact State.evicts_ownEvicted (.die d) free
  rw [s.dirState_scRequest_read, State.dirState_snoop_uncrossed uncrossed, kept]

theorem State.dirState_scRequest_read_ownedHub (owned : s.dirState line = .ownedHub) :
    (s.scRequest (.die d) false line).dirState line = .shared (dieBit d) true := by
  have kept : (s.ownEvicted (.die d) line).dirState line = .ownedHub := State.dirState_ownEvicted_of_drop owned rfl rfl
  have uncrossed : (s.ownEvicted (.die d) line).crossed (.die d) false line = [] := by rw [State.crossed, kept, snooped_ownedHub]; rfl
  rw [s.dirState_scRequest_read, State.dirState_snoop_uncrossed uncrossed, kept]
  simp [readDir, DirState.listed]

/-- Of memory a request counts crossings alone. -/
theorem State.mem_scRequest (s : State) (a : CohAgent) (wr : Bool) (line : Nat) :
    (s.scRequest a wr line).mem = { s.mem with crossings := s.mem.crossings + ((s.ownEvicted a line).crossed a wr line).length } := by
  have brought : ∀ u : State, (u.bringIn a line).mem = u.mem := fun u => by
    cases a with
    | die d => exact u.mem_kittyAccess d line
    | hub => rfl
  rw [s.scRequest_eq, brought]
  show ((s.ownEvicted a line).snoop a wr line).mem = _
  rw [State.mem_snoop, State.mem_ownEvicted]

theorem State.mem_scRequest_uncrossed {a : CohAgent} {wr : Bool} (free : ∀ e < 8, s.evicts e line = false) : (s.scRequest a wr line).mem = s.mem := by
  have uncrossed : (s.ownEvicted a line).crossed a wr line = [] := State.crossed_nil fun e mem => State.evicts_ownEvicted a (free e (snooped_lt mem))
  rw [s.mem_scRequest, uncrossed]
  rfl

theorem State.bytes_scRequest (s : State) (a : CohAgent) (wr : Bool) (line : Nat) : (s.scRequest a wr line).mem.bytes = s.mem.bytes := by
  rw [s.mem_scRequest]

/-! ## The commands -/

section
variable (usable : scLine line = true) (page : s.scPage line = true)
include usable page

theorem execScWriteRequest_serves (a : CohAgent) : execScWriteRequest a line s = .next (s.scRequest a true line) := by
  simp [execScWriteRequest, usable, page]

theorem execScReadRequest_serves (a : CohAgent) : execScReadRequest a line s = .next (s.scRequest a false line) := by
  simp [execScReadRequest, usable, page]

end

/-- A line outside usable HBM or of a page without SC is not served. -/
theorem execScRequest_unserved (a : CohAgent) (out : scLine line = false ∨ s.scPage line = false) : execScWriteRequest a line s = .next s ∧ execScReadRequest a line s = .next s := by
  have unserved : ¬(scLine line && s.scPage line) = true := by
    obtain outside | page := out
    · simp [outside]
    · simp [page]
  exact ⟨congrArg Host.Outcome.next (if_neg unserved), congrArg Host.Outcome.next (if_neg unserved)⟩

theorem execKittyEviction_begins {k : Bool} (held : holds (s.dirState line) d = some k) (free : s.evicts d line = false) :
    execKittyEviction d line s = .next { s.kittyDrop d line with coh := { s.coh with evicting := s.coh.evicting ++ [(d, line, k)] } } := by
  simp [execKittyEviction, State.beginEvict, held, free, State.evicts_kittyDrop, State.coh_kittyDrop]

theorem execKittyEviction_processed (evicts : s.evicts d line = true) : execKittyEviction d line s = .next (s.evicted line d) := by
  simp [execKittyEviction, evicts]

theorem execFetchInvalidate_crosses (evicts : s.evicts d line = true) : execFetchInvalidate d line s = .next ((s.kittyDrop d line).crossing line d) := by
  simp [execFetchInvalidate, evicts, State.evicts_kittyDrop]

theorem execFetchInvalidate_drops (free : s.evicts d line = false) :
    execFetchInvalidate d line s = .next ((s.kittyDrop d line).setDir line (dropDie (s.dirState line) d)) := by
  simp [execFetchInvalidate, free, State.evicts_kittyDrop]

end Sys2Proof.Machine

namespace Sys2Proof.Proofs
open Sys2Proof Sys2Proof.Machine

/-- Settles O33: a request is its own eviction, its snoops and the grant, each of which speaks of its own line alone. -/
theorem directoryServes : Obligations.DirectoryServes := by
  unfold Obligations.DirectoryServes
  refine ⟨?write, ?read, ?hub, fun a line s out => execScRequest_unserved a out, fun d line k s held free => execKittyEviction_begins held free, ?evicted, ?invalidated⟩
  case write =>
    intro a line s usable page
    exact ⟨_, execScWriteRequest_serves usable page a, (s.dirState_scRequest_write a line).trans (by cases a <;> rfl), fun m other => s.dirState_scRequest_other a true other,
      s.bytes_scRequest a true line, State.mem_scRequest_uncrossed, congrArg Fixtures.seats (s.scRequest_fixtures a true line)⟩
  case read =>
    intro d line s usable page die
    refine ⟨_, execScReadRequest_serves usable page (.die d), ?_, fun o below other owned free => ?_, State.dirState_scRequest_read_ownedHub,
      fun m other => s.dirState_scRequest_other (.die d) false other, s.bytes_scRequest (.die d) false line, State.mem_scRequest_uncrossed⟩
    · rw [s.dirState_scRequest_read, holds_listed]
      exact holds_readDir _ die
    · rw [State.dirState_scRequest_read_owned owned other free, holds_listed]
      exact holds_readDir_owner below other
  case hub =>
    intro line s usable page
    refine ⟨_, execScReadRequest_serves usable page .hub, ?_, fun m other => s.dirState_scRequest_other .hub false other, s.bytes_scRequest .hub false line⟩
    rw [s.dirState_scRequest_read]
    exact readDir_hub _
  case evicted =>
    intro d line s _ evicts
    refine ⟨⟨_, execKittyEviction_processed evicts, s.evicts_evicted_same line d, s.holds_evicted line d, fun m other => s.dirState_evicted_other d other, s.mem_evicted line d⟩,
      ⟨_, execFetchInvalidate_crosses evicts, State.evicts_evicted_same _ line d, State.holds_evicted _ line d, ?_⟩⟩
    rw [State.mem_crossing, s.mem_kittyDrop]
  case invalidated =>
    intro d line s _ free
    refine ⟨_, execFetchInvalidate_drops free, ?_, s.mem_kittyDrop d line⟩
    rw [State.dirState_setDir_same, holds_listed, holds_dropDie]

end Sys2Proof.Proofs
end

section
/-!
Lemmas on the host aperture (R258, R267, R554): an access to HBM leaves all but the translations and the caches it meets, and bytes written one by one stand at their own addresses.
-/
namespace Sys2Proof.Machine

variable {s u : State} {fn off len : Nat}

/-! ## What an access to HBM leaves as it was -/

/-- The state without what an access to HBM meets on its way: the leaves cached and the walks, the Kitties, and the directory with its crossings. -/
def State.still (s : State) : State := { s with coh := {}, kitty := {}, mem := { s.mem with cached := [], walks := 0, crossings := 0 } }

theorem State.of_still (same : u.still = s.still) : u.mem.bytes = s.mem.bytes ∧ u.seats = s.seats ∧ u.dealer = s.dealer ∧ u.cad = s.cad :=
  ⟨(congrArg (·.mem.bytes) same :), (congrArg State.seats same :), (congrArg State.dealer same :), (congrArg State.cad same :)⟩

@[simp] theorem State.kittyDrop_still (s : State) (die line : Nat) : (s.kittyDrop die line).still = s.still := by
  unfold State.kittyDrop; split <;> rfl

@[simp] theorem State.beginEvict_still (s : State) (die line : Nat) : (s.beginEvict die line).still = s.still := by
  unfold State.beginEvict
  split
  · rfl
  · split <;> rfl

@[simp] theorem State.kittyAccess_still (s : State) (die line : Nat) : (s.kittyAccess die line).still = s.still := by
  unfold State.kittyAccess
  dsimp only
  split
  · rfl
  · split
    · exact State.beginEvict_still s die _
    · rfl

@[simp] theorem State.setDir_still (s : State) (line : Nat) (d : DirState) : (s.setDir line d).still = s.still := by rfl

@[simp] theorem State.evicted_still (s : State) (line die : Nat) : (s.evicted line die).still = s.still := by rfl

@[simp] theorem State.crossings_still (s : State) (line : Nat) (l : List Nat) : (l.foldl (fun s d => s.crossing line d) s).still = s.still :=
  foldl_keeps State.still (fun s d => by rfl) l s

@[simp] theorem State.kittyDrops_still (s : State) (line : Nat) (l : List Nat) : (l.foldl (fun s d => s.kittyDrop d line) s).still = s.still :=
  foldl_keeps State.still (fun s d => s.kittyDrop_still d line) l s

@[simp] theorem State.scRequest_still (s : State) (a : CohAgent) (wr : Bool) (line : Nat) : (s.scRequest a wr line).still = s.still := by
  cases a <;> simp [State.scRequest, apply_ite State.still]

@[simp] theorem State.memLine_still (s : State) (a : CohAgent) (wr : Bool) (pa : Nat) : (s.memLine a wr pa).still = s.still := by
  unfold State.memLine
  split
  · rfl
  · split <;> simp

theorem translate_still (s : State) (ctx va : Nat) : (translate s ctx va).2.still = s.still := by
  unfold translate
  split
  · rfl
  · dsimp only; split <;> rfl

theorem translateFor_still (s : State) (ctx va : Nat) (wr : Bool) : (translateFor s ctx va wr).2.still = s.still := by
  have walked := translate_still s ctx va
  unfold translateFor
  split <;> next found => rw [found] at walked; exact walked

/-! ## A read of the aperture -/

/-- A read that translates answers as many bytes as it asks for, and changes nothing but what it meets. -/
theorem State.apertureRead_ok {ctx : Nat} (n : Nat) : ∀ {va : Nat} {b : Bytes} {s u : State}, State.apertureRead ctx n va s = (.ok b, u) → b.length = n ∧ u.still = s.still := by
  induction n with
  | zero =>
    intro va b s u read
    cases read
    exact ⟨rfl, rfl⟩
  | succ n ih =>
    intro va b s u read
    have walked := translateFor_still s ctx va false
    unfold State.apertureRead at read
    split at read
    · cases read
    next x v found =>
      rw [found] at walked
      split at read
      · cases read
      split at read
      · cases read
      split at read
      · cases read
      next rest w readRest =>
        cases read
        obtain ⟨length, still⟩ := ih readRest
        refine ⟨congrArg (· + 1) length, still.trans (Eq.trans ?_ walked)⟩
        split
        · exact State.memLine_still v _ _ _
        · rfl

theorem State.apertureMap_ok {ctx : Nat} (n : Nat) : ∀ {va : Nat} {pas : List Nat} {s u : State}, State.apertureMap ctx n va s = (.ok pas, u) → pas.length = n ∧ u.still = s.still := by
  induction n with
  | zero =>
    intro va pas s u mapped
    cases mapped
    exact ⟨rfl, rfl⟩
  | succ n ih =>
    intro va pas s u mapped
    have walked := translateFor_still s ctx va true
    unfold State.apertureMap at mapped
    split at mapped
    · cases mapped
    next x v found =>
      rw [found] at walked
      split at mapped
      · cases mapped
      split at mapped
      · cases mapped
      next rest w mapRest =>
        cases mapped
        obtain ⟨length, still⟩ := ih mapRest
        exact ⟨congrArg (· + 1) length, still.trans walked⟩

/-- The answer of BAR2_READ stands for the host. -/
def State.bar2Answered (s : State) (r : Option Bytes) : State := { s with host := { s.host with bar2 := some r } }

theorem execBar2Read_answers {b : Bytes} (run : s.power.phase = 0) (opened : s.apertureOpen fn = true) (inside : off + len ≤ bar2Size)
    (read : State.apertureRead (s.fn fn).apAcct len ((s.fn fn).apBase + off) s = (.ok b, u)) : execBar2Read fn off len s = .next (u.bar2Answered (some b)) := by
  have fits : ¬ bar2Size < off + len := Nat.not_lt.mpr inside
  simp [execBar2Read, run, opened, fits, read, State.bar2Answered]

/-! ## A write of the aperture -/

theorem cellGet_cellSets_other {a : Nat} {l : List (Nat × Byte)} : ∀ {c : List Host.Cell}, cellsAbove none c = true → a ∉ l.map (·.1) → cellGet a (cellSets l c) = cellGet a c := by
  induction l with
  | nil => exact fun _ _ => rfl
  | cons x l ih =>
    intro c canon other
    obtain ⟨first, rest⟩ := not_or.mp fun h => other (List.mem_cons.mpr h)
    exact (ih (cellSet_keeps x.1 x.2 none c canon trivial) rest).trans (cellGet_cellSet_other x.1 a x.2 none c canon first)

theorem cellGet_cellSets_mem {a : Nat} {v : Byte} {l : List (Nat × Byte)} :
    ∀ {c : List Host.Cell}, cellsAbove none c = true → (l.map (·.1)).Nodup → (a, v) ∈ l → cellGet a (cellSets l c) = v := by
  induction l with
  | nil => exact fun _ _ mem => absurd mem List.not_mem_nil
  | cons x l ih =>
    intro c canon once mem
    obtain ⟨fresh, once⟩ := List.nodup_cons.mp once
    have kept := cellSet_keeps x.1 x.2 none c canon trivial
    obtain rfl | later := List.mem_cons.mp mem
    · exact (cellGet_cellSets_other kept fresh).trans (cellGet_cellSet_same a v none c canon)
    · exact ih kept once later

/-- What a write of the aperture stores, and the poison it clears. -/
def State.bar2Stored (s : State) (pas : List Nat) (data : Bytes) (c : List Host.Cell) : State :=
  { s with mem := { s.mem with bytes := cellSets (pas.zip data) c, poison := s.mem.poison.filter (fun l => !(fullLines pas).contains l) } }

/-- The lines that a write of the aperture touches are met at the Kitties and the directory. -/
def State.bar2Lines (s : State) (pas : List Nat) : State := ((pas.map (fun a => a / 64 * 64)).dedup).foldl (fun s a => s.memLine .hub true a) s

theorem State.bar2Lines_still (s : State) (pas : List Nat) : (s.bar2Lines pas).still = s.still :=
  foldl_keeps State.still (fun s a => s.memLine_still .hub true a) _ s

theorem execBar2Write_lands {data : Bytes} {pas : List Nat} (run : s.power.phase = 0) (opened : s.apertureOpen fn = true) (inside : off + data.length ≤ bar2Size)
    (mapped : State.apertureMap (s.fn fn).apAcct data.length ((s.fn fn).apBase + off) s = (.ok pas, u)) :
    execBar2Write fn off data s = .next (((u.bar2Lines pas).bar2Stored pas data u.mem.bytes).noteForeign pas) := by
  have fits : ¬ bar2Size < off + data.length := Nat.not_lt.mpr inside
  simp [execBar2Write, run, opened, fits, mapped, State.bar2Stored, State.bar2Lines, cellSets]

/-- Noting foreign writes changes the Dealer, which judges them where the drain window has ended (R257). -/
theorem State.noteForeign_holdings (s : State) (pas : List Nat) : (s.noteForeign pas).holdings = s.holdings := by
  unfold State.noteForeign
  dsimp only
  split
  · exact State.judgeRunning_holdings _
  · rfl

/-! ## A shut aperture -/

section
variable (run : s.power.phase = 0) (shut : s.apertureOpen fn = false)
include run shut

theorem execBar2Read_shut : execBar2Read fn off len s = .next (s.bar2Answered none) := by
  simp [execBar2Read, run, shut, State.bar2Answered]

theorem execBar2Write_shut (data : Bytes) : execBar2Write fn off data s = .next s := by
  simp [execBar2Write, run, shut]

end

end Sys2Proof.Machine

namespace Sys2Proof.Proofs
open Sys2Proof Sys2Proof.Machine

/-- Settles O36: a translated read changes nothing that memory holds, and a translated write stores each byte at an address of its own. -/
theorem apertureReadsAndWrites : Obligations.ApertureReadsAndWrites := by
  unfold Obligations.ApertureReadsAndWrites
  refine ⟨?read, ?write, fun fn off len data s run shut => ⟨execBar2Read_shut run shut, execBar2Write_shut run shut data⟩⟩
  case read =>
    intro fn off len b s u run opened inside read
    obtain ⟨length, still⟩ := State.apertureRead_ok len read
    obtain ⟨bytes, seats, dealer, -⟩ := State.of_still still
    exact ⟨_, execBar2Read_answers run opened inside read, rfl, length, bytes, seats, dealer⟩
  case write =>
    intro fn off data pas s u run opened inside canon mapped once
    obtain ⟨length, still⟩ := State.apertureMap_ok data.length mapped
    obtain ⟨bytes, -⟩ := State.of_still still
    obtain ⟨-, seats, -, cad⟩ := State.of_still ((u.bar2Lines_still pas).trans still)
    have addresses : (pas.zip data).map (·.1) = pas := List.map_fst_zip (le_of_eq length)
    have held := State.noteForeign_holdings ((u.bar2Lines pas).bar2Stored pas data u.mem.bytes) pas
    have stored : (((u.bar2Lines pas).bar2Stored pas data u.mem.bytes).noteForeign pas).mem = ((u.bar2Lines pas).bar2Stored pas data u.mem.bytes).mem := congrArg Holdings.mem held
    refine ⟨_, execBar2Write_lands run opened inside mapped, fun i below => ?_, fun a outside => ?_, fun l full => ?_, ?_,
      (congrArg Holdings.seats held).trans seats, (congrArg Holdings.cad held).trans cad⟩
    · rw [State.hbmByte, stored]
      refine cellGet_cellSets_mem (bytes ▸ canon) (addresses.symm ▸ once) ?_
      rw [← length] at below
      rw [List.getD_eq_getElem _ _ below, List.getD_eq_getElem _ _ (length ▸ below), ← List.getElem_zip (h := by simpa [length] using below)]
      exact List.getElem_mem _
    · rw [State.hbmByte, stored]
      refine (cellGet_cellSets_other (bytes ▸ canon) (addresses.symm ▸ outside)).trans ?_
      rw [bytes, State.hbmByte]
    · rw [stored]
      simp [State.bar2Stored, full]
    · rw [stored]
      exact cellSets_keeps _ _ (bytes ▸ canon)

end Sys2Proof.Proofs
end

section
/-!
Lemmas on CONTEXT, INVALIDATE and the invalidation that waits for its pins (R244, R248, R545; that CONTEXT drops the account's cached leaves is log entry 18).
-/
namespace Sys2Proof.Machine

variable {s : State} {c : CmdSlot}

/-- Taking a command pins and frees no page. -/
@[simp] theorem State.rangePinned_cmdTaken (s : State) (c : CmdSlot) (ctx va len : Nat) : (s.cmdTaken c).rangePinned ctx va len = s.rangePinned ctx va len := by rfl

/-! ## CONTEXT -/

section
variable (admitted : Admitted s c true none) (account : argHigh c.arg0 12 = false) (arg1 : c.arg1 = 0) (arg2 : c.arg2 = 0)
include admitted account arg1 arg2

theorem execContext_installs {x : Context} (legal : parseContext (c.payload.take 16) = some x) :
    execContext c s = .next (State.cmdDone { s with mem := { s.mem with
      contexts := aset c.arg0.toNat x s.mem.contexts, cached := s.mem.cached.filter (fun l => decide (l.ctx ≠ c.arg0.toNat)) } } 0x20 c 0 0) := by
  rw [execContext, hostCommand_admitted _ _ _ _ _ _ admitted, if_neg (by simp [account, arg1, arg2]), legal]
  exact congrArg Host.Outcome.next (complete_after s _ 0x20 c 0 rfl)

theorem execContext_badRecord (illegal : parseContext (c.payload.take 16) = none) : execContext c s = .next (s.cmdDone 0x20 c 2 0) := by
  rw [execContext, hostCommand_admitted _ _ _ _ _ _ admitted, if_neg (by simp [account, arg1, arg2]), illegal]
  exact congrArg Host.Outcome.next (complete_taken s 0x20 c 2)

end

/-! ## INVALIDATE -/

section
variable (admitted : Admitted s c true none) (account : argHigh c.arg0 12 = false) (address : argHigh c.arg1 48 = false) (pages : c.arg2.toNat % 65536 = 0)
include admitted account address pages

theorem execInvalidate_drops (free : s.rangePinned c.arg0.toNat c.arg1.toNat c.arg2.toNat = false) :
    execInvalidate c s = .next (State.cmdDone { s with mem := { s.mem with
      cached := s.mem.cached.filter (fun l => !(l.ctx = c.arg0.toNat && overlaps l.va l.size c.arg1.toNat c.arg2.toNat)) } } 0x21 c 0 0) := by
  rw [execInvalidate, hostCommand_admitted _ _ _ _ _ _ admitted, if_neg (by simp [account, address, pages])]
  dsimp only
  rw [State.rangePinned_cmdTaken, if_neg (by simp [free])]
  exact congrArg Host.Outcome.next (complete_after s _ 0x21 c 0 rfl)

theorem execInvalidate_defers (pinned : s.rangePinned c.arg0.toNat c.arg1.toNat c.arg2.toNat = true) :
    execInvalidate c s = .next (State.cmdDone { s with mem := { s.mem with
      deferred := s.mem.deferred ++ [{ ctx := c.arg0.toNat, va := c.arg1.toNat, len := c.arg2.toNat, ticket := ticketOf s 0x21 c }] } } 0x21 c 0x10 0) := by
  rw [execInvalidate, hostCommand_admitted _ _ _ _ _ _ admitted, if_neg (by simp [account, address, pages])]
  dsimp only
  rw [State.rangePinned_cmdTaken, if_pos pinned]
  exact congrArg Host.Outcome.next (complete_after s _ 0x21 c 0x10 rfl)

end

/-! ## The invalidation that waited -/

theorem execInvalidateDone_completes {d : Deferred} (waits : s.mem.deferred = [d]) (tag : d.ticket.tag < 2 ^ 32) (free : s.rangePinned d.ctx d.va d.len = false) :
    execInvalidateDone (BitVec.ofNat 32 d.ticket.tag) s = .next (State.complete { s with mem := { s.mem with
      deferred := [], cached := s.mem.cached.filter (fun l => !(l.ctx = d.ctx && overlaps l.va l.size d.va d.len)) } } d.ticket 0) := by
  have due : s.mem.deferred.find? (fun e => e.ticket.tag = (BitVec.ofNat 32 d.ticket.tag).toNat && !s.rangePinned e.ctx e.va e.len) = some d := by
    simpa [waits, free] using (Nat.mod_eq_of_lt tag).symm
  have rest : s.mem.deferred.erase d = [] := by simp [waits]
  rw [execInvalidateDone, due]
  dsimp only
  rw [rest]
  rfl

end Sys2Proof.Machine

namespace Sys2Proof.Proofs
open Sys2Proof Sys2Proof.Machine

/-- Settles O11: each command ends in one of its branches, with its completion after the one change of memory. -/
theorem contextAndInvalidate : Obligations.ContextAndInvalidate := by
  unfold Obligations.ContextAndInvalidate
  refine ⟨?context, ?invalidate, ?done⟩
  case context =>
    exact fun c s admitted account arg1 arg2 => ⟨fun x => execContext_installs admitted account arg1 arg2, execContext_badRecord admitted account arg1 arg2⟩
  case invalidate =>
    exact fun c s admitted account address pages => ⟨execInvalidate_drops admitted account address pages, execInvalidate_defers admitted account address pages⟩
  case done =>
    exact fun d s => execInvalidateDone_completes

end Sys2Proof.Proofs
end

section
/-!
Lemmas on the Loose DMA registers (R265): what RESUME, SKIP and HALT do to a queue that the function sees, and that they do nothing to another.
-/
namespace Sys2Proof.Machine

variable {s : State} {fn q : Nat}

@[simp] theorem State.queue_setQueue_same (s : State) (q : Nat) (x : LdmaQueue) : (s.setQueue q x).queue q = x := by
  simp [State.queue, State.setQueue]

theorem State.queue_setQueue_other (s : State) {p q : Nat} (x : LdmaQueue) (other : p ≠ q) : (s.setQueue q x).queue p = s.queue p := by
  simp [State.queue, State.setQueue, aget_aset_other _ _ _ _ other]

/-- A queue's completion changes no queue. -/
@[simp] theorem State.queue_ldmaCpl (s : State) (q : Nat) (x : LdmaQueue) (status bytes addr p : Nat) : (s.ldmaCpl q x status bytes addr).queue p = s.queue p := by
  simp [State.queue, State.ldmaCpl]

/-! ## RESUME and SKIP -/

section
variable (sees : s.seesQueue fn q = true) (stopped : (s.queue q).stopped = true)
include sees stopped

theorem execResume_starts (d : Bytes) :
    execResume fn q d s = .next (s.setQueue q { s.queue q with stopped := false, status := 0, ring := aset (s.queue q).head (parseLdma (padTo 32 d)) (s.queue q).ring }) := by
  simp [execResume, sees, stopped]

theorem execSkip_starts (held : (s.queue q).held ≠ 0) :
    execSkip fn q s = .next (s.setQueue q { s.queue q with stopped := false, status := 0, bytesDone := 0, head := ((s.queue q).head + 1) % 256 }) := by
  simp [execSkip, sees, stopped, held]

end

/-! ## HALT -/

theorem execHalt_stops (sees : s.seesQueue fn q = true) (runs : (s.queue q).stopped = false) : execHalt fn q s = .next (s.stopQueue q 0x09 0) := by
  simp [execHalt, sees, runs]

/-- A stop for HALTED reports no security event, so it is a completion and the queue's own record. -/
theorem State.stopQueue_halted (s : State) (q : Nat) :
    s.stopQueue q 0x09 0 = (s.ldmaCpl q (s.queue q) 0x09 (s.queue q).bytesDone 0).setQueue q { s.queue q with
      stopped := true, hit := none, hand := none, status := 0x09, stopIndex := (s.queue q).head, faultAddr := 0 } := rfl

/-! ## A queue that the function does not see -/

section
variable (hidden : s.seesQueue fn q = false)
include hidden

theorem execResume_hidden (d : Bytes) : execResume fn q d s = .next s := by simp [execResume, hidden]
theorem execSkip_hidden : execSkip fn q s = .next s := by simp [execSkip, hidden]
theorem execHalt_hidden : execHalt fn q s = .next s := by simp [execHalt, hidden]

end

end Sys2Proof.Machine

namespace Sys2Proof.Proofs
open Sys2Proof Sys2Proof.Machine

/-- Settles O35: each register writes its own queue's record alone, and HALT a completion besides. -/
theorem queueRegisters : Obligations.QueueRegisters := by
  unfold Obligations.QueueRegisters
  refine ⟨?starts, ?halts, ?hidden⟩
  case starts =>
    exact fun fn q d s sees stopped => ⟨execResume_starts sees stopped d, execSkip_starts sees stopped⟩
  case halts =>
    intro fn q s sees runs
    refine ⟨_, execHalt_stops sees runs, ?_⟩
    rw [State.stopQueue_halted, State.queue_setQueue_same]
    refine ⟨rfl, rfl, rfl, rfl, fun p other => ?_, ?_, ?_⟩
    · rw [State.queue_setQueue_other _ _ other, State.queue_ldmaCpl]
    · simp [State.ldmaCpl]
    · simp [State.ldmaCpl]
  case hidden =>
    exact fun fn q d s hidden => ⟨execResume_hidden hidden d, execSkip_hidden hidden, execHalt_hidden hidden⟩

end Sys2Proof.Proofs
end

section
/-!
Lemmas on the passes and the scrub of the vault (R291 to R298, R301): what a header, a record, the stream's end and its report do on a device that no pass link feeds and that feeds none, and what a scrub makes of its block. That VALUE0 of PASS holds the highest status is log entry 28, that a scrub with no held key judges nothing log entry 29.
-/
namespace Sys2Proof.Machine

variable {s : State}

/-! ## A device with no pass link -/

theorem State.creditPass_of_host (host : s.vault.passFrom = none) : s.creditPass = s := by
  rw [State.creditPass, host]

theorem State.forwardPass_of_noLink (b : Bytes) (last : s.dict.settings.passLink = 0xFF) : s.forwardPass b = s := by
  unfold State.forwardPass
  split
  · simp [last]
  · rfl

/-! ## The header (R291, R294) -/

/-- The WRITING entry that a header creates. -/
def State.newEntry (s : State) (h : PassHead) : ImageEntry :=
  { id := h.id, keyId := h.keyId, gen := h.gen, state := 1, pos := s.keptPos h, replicate := h.replicate
    extents := (s.allocate h).getD [], digest := h.digest, damaged := [] }

theorem execPassHeader_begins {v : Bytes} {t : Ticket} (idle : s.vault.pass = none) (command : s.vault.passCmd = some t) (host : s.vault.passFrom = none)
    (admitted : s.passRefusal v = none) (fresh : (parsePassHead v).mend = false) (last : s.dict.settings.passLink = 0xFF) :
    execPassHeader v s = .next { s with
      vault := { s.vault with
        pass := some { head := parsePassHead v, entry := some s.freeIndex, nextIdx := [], status := 0, ticket := some t, ended := false }, passCmd := none }
      nv := { s.nv with images := aset s.freeIndex (s.newEntry (parsePassHead v)) s.nv.images } } := by
  unfold execPassHeader
  rw [State.creditPass_of_host host]
  dsimp only
  rw [if_neg (by simp [idle]), if_neg (by simp [command]), admitted]
  dsimp only
  rw [if_neg (by simp [fresh]), command]
  exact congrArg Host.Outcome.next (State.forwardPass_of_noLink v last)

/-! ## A record (R292 to R294) -/

/-- The run of a pass after a record: the next block of the record's shard is due. -/
def PassRun.next (p : PassRun) (b : Bytes) : PassRun :=
  { p with nextIdx := aset (8 * (byteAt b 0 % 16) + byteAt b 0 / 16 % 8) (le b 4 4 + 1) p.nextIdx }

theorem ne_nil_of_recordBad {p : PassRun} {b : Bytes} (good : recordBad p b = false) : b ≠ [] := by
  rintro rfl
  simp [recordBad] at good

/-- A record in order, of the position that this device keeps, goes to its entry. -/
theorem execPassRecord_keeps {v : Bytes} {p : PassRun} {i : Nat} (m : Media) (run : s.vault.pass = some p) (host : s.vault.passFrom = none) (going : p.ended = false)
    (good : recordBad p v = false) (last : s.dict.settings.passLink = 0xFF) (entry : p.entry = some i) (own : byteAt v 0 % 16 = s.keptPos p.head) :
    execPassRecord v m s = .next ((s.setPass (p.next v)).keepRecord (p.next v) i v m) := by
  have position : byteAt v 0 % 16 = (s.setPass (p.next v)).keptPos (p.next v).head := own
  unfold execPassRecord
  rw [run]
  dsimp only
  rw [if_neg (by simp [going]), if_neg (by simp [ne_nil_of_recordBad good]), State.creditPass_of_host host, State.forwardPass_of_noLink _ last, if_neg (by simp [good])]
  split
  next j found =>
    cases entry.symm.trans found
    exact congrArg Host.Outcome.next (if_pos position)
  next lost => cases entry.symm.trans lost

/-- The block of a record is written as its ciphertext and tag, and the bytes written to its die are counted. -/
def State.storeRecord (s : State) (e : ImageEntry) (b : Bytes) : State :=
  let die := byteAt b 0 / 16 % 8
  { s with nv := { s.nv with
      blocks := aset (blockKey die ((e.extents.getD die (0, 0)).1 + le b 4 4)) ((b.drop 16).take 4096, BitVec.ofNat 128 (leAll (b.drop 4112).reverse)) s.nv.blocks
      written := aset die ((aget die s.nv.written).getD 0 + 4096) s.nv.written } }

theorem State.failPass_deletes {p : PassRun} {i : Nat} (status : Nat) (entry : p.entry = some i) (fresh : p.head.mend = false) :
    s.failPass p status = { s with
      vault := { s.vault with pass := some { p with status, entry := none } }
      nv := { s.nv with images := adel i s.nv.images } } := by
  simp [State.failPass, State.setPass, entry, fresh]

section
variable {b : Bytes} {p : PassRun} {i : Nat} {e : ImageEntry} (fresh : p.head.mend = false) (held : aget i s.nv.images = some e)
include fresh held

/-- A block that reads back authentic is damaged no more. -/
theorem State.keepRecord_authentic {data : Bytes} {above : Bool} (reads : (s.storeRecord e b).readBlock e (byteAt b 0 / 16 % 8) (le b 4 4) = .ok (data, above)) :
    s.keepRecord p i b .good = { s.storeRecord e b with
      vault := { s.vault with aboveLowest := s.vault.aboveLowest + boolNat above }
      nv := { (s.storeRecord e b).nv with
        images := aset i { e with damaged := e.damaged.filter (fun x => decide (x ≠ (byteAt b 0 / 16 % 8, (e.extents.getD (byteAt b 0 / 16 % 8) (0, 0)).1 + le b 4 4))) } s.nv.images } } := by
  unfold State.storeRecord at reads ⊢
  simp [State.keepRecord, held, fresh, reads, -List.getD_eq_getElem?_getD]

/-- A block that does not is counted and logged, and ends the pass here. -/
theorem State.keepRecord_fails {d : Nat} (entry : p.entry = some i) (reads : (s.storeRecord e b).readBlock e (byteAt b 0 / 16 % 8) (le b 4 4) = .error d) :
    s.keepRecord p i b .good = { (s.storeRecord e b).vaultFailure d (byteAt b 0 / 16 % 8) with
      vault := { s.vault with failures := s.vault.failures + 1, pass := some { p with status := 0x08, entry := none } }
      nv := { (s.storeRecord e b).nv with images := adel i s.nv.images } } := by
  have ends : s.keepRecord p i b .good = ((s.storeRecord e b).vaultFailure d (byteAt b 0 / 16 % 8)).failPass p 0x08 := by
    unfold State.storeRecord at reads ⊢
    simp [State.keepRecord, held, fresh, reads, -List.getD_eq_getElem?_getD]
  obtain ⟨vault, -, -, -, -, -, nv⟩ := (s.storeRecord e b).vaultFailure_frame d (byteAt b 0 / 16 % 8)
  rw [ends, State.failPass_deletes 0x08 entry fresh, vault, nv]
  rfl

end

/-! ## The end of the stream, and the report (R294, R295) -/

theorem execPassStreamEnd_ready {p : PassRun} {i : Nat} {e : ImageEntry} (run : s.vault.pass = some p) (going : p.ended = false) (well : p.status = 0) (whole : p.whole = true)
    (fresh : p.head.mend = false) (entry : p.entry = some i) (held : aget i s.nv.images = some e) :
    execPassStreamEnd false s = .next { s with
      vault := { s.vault with lastStatus := 0, pass := some { p with ended := true } }
      nv := { s.nv with images := aset i { e with state := 2 } (s.nv.images.filter (fun x => decide (x.1 = i) || decide (x.2.id ≠ e.id))) } } := by
  have ends : s.endStream p = { s with nv := { s.nv with images := aset i { e with state := 2 } (s.nv.images.filter (fun x => decide (x.1 = i) || decide (x.2.id ≠ e.id))) } } := by
    simp [State.endStream, entry, held, fresh]
  unfold execPassStreamEnd
  rw [run]
  dsimp only
  rw [if_neg (by simp [going]), if_neg (not_not_intro well), if_neg Bool.false_ne_true, if_neg (by simp [whole]), ends]
  dsimp only
  rw [run]
  dsimp only
  rw [well]
  rfl

theorem execPassEndReport_completes {p : PassRun} {t : Ticket} {n : Nat} (run : s.vault.pass = some p) (host : s.vault.passFrom = none) (done : p.ended = true) (command : p.ticket = some t)
    (most : p.status ≤ n) :
    execPassEndReport n s = .next (State.completeWith
      { s.post { ev 0x0F 0 s.curDeal with w1 := p.status + 256 * n, w2 := p.head.id, w3 := p.head.gen } with
        vault := { s.vault with pass := none, passFrom := none } } t p.status n) := by
  unfold execPassEndReport
  rw [run]
  dsimp only
  rw [if_neg (by simp [done]), Nat.max_eq_right most, command]
  simp [host]

/-! ## The scrub (R298, R301) -/

/-- An image whose key no slot holds is not read. -/
theorem State.keysOf_of_readBlock {e : ImageEntry} {die idx : Nat} {x : Bytes × Bool} (reads : s.readBlock e die idx = .ok x) : s.keysOf e.keyId ≠ [] := by
  intro unheld
  unfold State.readBlock at reads
  rw [unheld] at reads
  dsimp only [openWith] at reads
  split at reads <;> simp at reads

/-- An event that waits, or is posted at once, changes nothing of the vault, the memory, the seats and the forms. -/
theorem State.queuePost_frame (s : State) (r : EvReq) (volatile : persistentClass r.cls = false) :
    (s.queuePost r).nv = s.nv ∧ (s.queuePost r).vault = s.vault ∧ (s.queuePost r).mem = s.mem ∧ (s.queuePost r).seats = s.seats ∧ (s.queuePost r).forms = s.forms := by
  unfold State.queuePost
  split
  · simp
  split
  · simp
  · simp [(s.logAppend_nv r).2 volatile]

/-- The entry of an image with one block more marked damaged. -/
def ImageEntry.damage (e : ImageEntry) (x : Nat × Nat) : ImageEntry :=
  { e with state := 3, damaged := if e.damaged.contains x then e.damaged else e.damaged ++ [x] }

theorem ImageEntry.mem_damage (e : ImageEntry) (x : Nat × Nat) : x ∈ (e.damage x).damaged := by
  unfold ImageEntry.damage
  dsimp only
  split
  next marked => exact List.contains_iff_mem.mp marked
  · exact List.mem_append_right _ (List.mem_singleton_self x)

theorem State.damageBlock_frame {id j : Nat} {e : ImageEntry} (found : s.imageOf id = some (j, e)) (die block detail : Nat) :
    (s.damageBlock id die block detail).nv = { s.nv with images := aset j (e.damage (die, block)) s.nv.images } ∧ (s.damageBlock id die block detail).vault = s.vault
      ∧ (s.damageBlock id die block detail).mem = s.mem ∧ (s.damageBlock id die block detail).seats = s.seats ∧ (s.damageBlock id die block detail).forms = s.forms := by
  unfold State.damageBlock
  rw [found]
  exact State.queuePost_frame _ _ rfl

/-- A vault failure that damages a block: the entry of its image, and the count of failures. -/
theorem State.damageBlock_vaultFailure {id j : Nat} {e : ImageEntry} (found : s.imageOf id = some (j, e)) (die block detail : Nat) :
    ((s.vaultFailure detail die).damageBlock id die block detail).nv = { s.nv with images := aset j (e.damage (die, block)) s.nv.images }
      ∧ ((s.vaultFailure detail die).damageBlock id die block detail).vault = { s.vault with failures := s.vault.failures + 1 }
      ∧ ((s.vaultFailure detail die).damageBlock id die block detail).mem = s.mem ∧ ((s.vaultFailure detail die).damageBlock id die block detail).seats = s.seats
      ∧ ((s.vaultFailure detail die).damageBlock id die block detail).forms = s.forms := by
  obtain ⟨vault, -, -, -, seats, mem, nv⟩ := s.vaultFailure_frame detail die
  have forms : (s.vaultFailure detail die).forms = s.forms := by simp [State.vaultFailure]
  have still : (s.vaultFailure detail die).imageOf id = some (j, e) := by rw [State.imageOf, nv]; exact found
  obtain ⟨nv', vault', mem', seats', forms'⟩ := State.damageBlock_frame still die block detail
  exact ⟨nv'.trans (by rw [nv]), vault'.trans vault, mem'.trans mem, seats'.trans seats, forms'.trans forms⟩

theorem execVaultScrub_unowned {die block : Nat} (unowned : s.blockOwner die block = none) (m : Media) : execVaultScrub die block m s = .next s := by
  rw [execVaultScrub, unowned]

section
variable {die block i idx : Nat} {e : ImageEntry} (owner : s.blockOwner die block = some (i, e, idx))
include owner

theorem execVaultScrub_failed : execVaultScrub die block .failed s = .next ((s.vaultFailure 0x50 die).damageBlock e.id die block 0x50) := by
  rw [execVaultScrub, owner]

/-- With no key to read by, a scrub judges nothing. -/
theorem execVaultScrub_unheld (unheld : s.keysOf e.keyId = []) : execVaultScrub die block .good s = .next s := by
  simp [execVaultScrub, owner, unheld]

theorem execVaultScrub_unauthentic {d : Nat} (held : s.keysOf e.keyId ≠ []) (reads : s.readBlock e die idx = .error d) :
    execVaultScrub die block .good s = .next ((s.vaultFailure d die).damageBlock e.id die block d) := by
  simp [execVaultScrub, owner, held, reads]

section
variable {data : Bytes} {above : Bool} (reads : s.readBlock e die idx = .ok (data, above))
include reads

theorem execVaultScrub_good : execVaultScrub die block .good s = .next { s with vault := { s.vault with aboveLowest := s.vault.aboveLowest + boolNat above } } := by
  simp [execVaultScrub, owner, State.keysOf_of_readBlock reads, reads]

/-- A corrected error is counted and its block written again; neither changes what the block reads as. -/
theorem execVaultScrub_corrected :
    execVaultScrub die block .corrected s = .next { s with
      vault := { s.vault with corrected := s.vault.corrected + 1, aboveLowest := s.vault.aboveLowest + boolNat above }
      nv := { s.nv with written := aset die ((aget die s.nv.written).getD 0 + 4096) s.nv.written } } := by
  have held := State.keysOf_of_readBlock reads
  unfold execVaultScrub
  rw [owner]
  refine congrArg Host.Outcome.next ?_
  dsimp only
  rw [if_pos rfl]
  split
  next unheld => exact absurd unheld held
  split
  next again =>
    cases reads.symm.trans again
    rfl
  next again => cases reads.symm.trans again

end

end

end Sys2Proof.Machine

namespace Sys2Proof.Proofs
open Sys2Proof Sys2Proof.Machine

/-- Settles O40: each command of a pass, and each outcome of a scrub, is one branch of its definition. -/
theorem passesAndScrub : Obligations.PassesAndScrub := by
  unfold Obligations.PassesAndScrub
  refine ⟨⟨?header, ?record, ?streamEnd, ?report⟩, ?judged, ?failed, ?unowned⟩
  case header =>
    intro v t s idle command host admitted fresh last
    exact ⟨_, execPassHeader_begins idle command host admitted fresh last, rfl, rfl, ⟨_, rfl, rfl, rfl, rfl, rfl, rfl⟩, rfl, rfl, rfl, rfl, rfl⟩
  case record =>
    intro v m p i e s run host going well good last fresh entry held own media die blk q w
    subst media
    have step : exec (.passRecord v .good) s = .next ((s.setPass q).keepRecord q i v .good) := execPassRecord_keeps .good run host going good last entry own
    cases reads : w.readBlock e die (le v 4 4) with
    | ok x => exact step.trans (congrArg Host.Outcome.next (State.keepRecord_authentic (s := s.setPass q) (p := q) fresh held reads))
    | error d => exact step.trans (congrArg Host.Outcome.next (State.keepRecord_fails (s := s.setPass q) (p := q) fresh held entry reads))
  case streamEnd => exact fun p i e s => execPassStreamEnd_ready
  case report => exact fun p t n s => execPassEndReport_completes
  case judged =>
    intro die block i j idx e e' s owner found
    cases reads : s.readBlock e die idx with
    | ok x => exact ⟨execVaultScrub_corrected owner reads, execVaultScrub_good owner reads⟩
    | error d =>
      dsimp only
      split
      next unheld => exact execVaultScrub_unheld owner unheld
      next held =>
        obtain ⟨nv, -⟩ := State.damageBlock_vaultFailure found die block d
        exact ⟨_, _, execVaultScrub_unauthentic owner held reads, congrArg Nv.images nv, rfl, e'.mem_damage _⟩
  case failed =>
    intro die block i j idx e e' s owner found
    obtain ⟨nv, rest⟩ := State.damageBlock_vaultFailure found die block 0x50
    exact ⟨_, execVaultScrub_failed owner, ⟨_, congrArg Nv.images nv, rfl, e'.mem_damage _, rfl, rfl⟩, by rw [nv], rest⟩
  case unowned => exact fun die block m s unowned => execVaultScrub_unowned unowned m

end Sys2Proof.Proofs
end

section
/-!
Lemmas on the lines of the Hatband and of the Deck: what the scrambler, the symbols, the words, the sections and the fields of Tables 13.1 and 14.1 to 14.6 read back.
-/
namespace Sys2Proof.Machine

/-! ## The scrambler (R399) -/

/-- The first `n` bits of a word, bit 15 first, through the scrambler or the descrambler. -/
def bitsThrough (f : BitVec 23 → Bool → Bool × BitVec 23) (r : BitVec 23) (w : Nat) : Nat → Nat × BitVec 23
  | 0 => (0, r)
  | n + 1 => let x := bitsThrough f r w n; let y := f x.2 (bit w (15 - n)); (2 * x.1 + boolNat y.1, y.2)

theorem wordThrough_eq_bitsThrough (f : BitVec 23 → Bool → Bool × BitVec 23) (r : BitVec 23) (w : Nat) : wordThrough f r w = bitsThrough f r w 16 := rfl

theorem boolNat_lt_two (b : Bool) : boolNat b < 2 := by cases b <;> decide

theorem bitsThrough_lt (f : BitVec 23 → Bool → Bool × BitVec 23) (r : BitVec 23) (w n : Nat) : (bitsThrough f r w n).1 < 2 ^ n := by
  induction n with
  | zero => exact Nat.one_pos
  | succ n ih =>
    have := boolNat_lt_two (f (bitsThrough f r w n).2 (bit w (15 - n))).1
    simp only [bitsThrough, Nat.pow_succ]
    omega

/-- What has gone through after some bits is the leading part of what has gone through after more. -/
theorem bitsThrough_leading (f : BitVec 23 → Bool → Bool × BitVec 23) (r : BitVec 23) (w n k : Nat) :
    (bitsThrough f r w (n + k)).1 / 2 ^ k = (bitsThrough f r w n).1 := by
  induction k with
  | zero => simp
  | succ k ih =>
    have := boolNat_lt_two (f (bitsThrough f r w (n + k)).2 (bit w (15 - (n + k)))).1
    have halved : (bitsThrough f r w (n + (k + 1))).1 / 2 = (bitsThrough f r w (n + k)).1 := by
      rw [← Nat.add_assoc]
      simp only [bitsThrough]
      omega
    rw [Nat.pow_succ', ← Nat.div_div_eq_div_mul, halved, ih]

/-- The last bit of a number is its parity. -/
theorem decide_parity (a : Nat) (b : Bool) : decide ((2 * a + boolNat b) % 2 ^ 1 = 1) = b := by
  cases b <;> simp [boolNat]

/-- Each bit of a word that went through is the bit that left at its place. -/
theorem bit_wordThrough (f : BitVec 23 → Bool → Bool × BitVec 23) (r : BitVec 23) (w n : Nat) (inWord : n < 16) :
    bit (wordThrough f r w).1 (15 - n) = (f (bitsThrough f r w n).2 (bit w (15 - n))).1 := by
  have lead := bitsThrough_leading f r w (n + 1) (15 - n)
  rw [show n + 1 + (15 - n) = 16 by omega] at lead
  rw [wordThrough_eq_bitsThrough, bit, bits, lead]
  simp only [bitsThrough]
  exact decide_parity _ _

/-- The descrambler undoes the scrambler, bit by bit, where both registers agree. -/
theorem descrambleBit_scrambleBit (r : BitVec 23) (b : Bool) : descrambleBit r (scrambleBit r b).1 = (b, (scrambleBit r b).2) := by
  simp [descrambleBit, scrambleBit]

theorem bitsThrough_descramble (r : BitVec 23) {w n : Nat} (fits : w < 2 ^ 16) (inWord : n ≤ 16) :
    bitsThrough descrambleBit r (wordThrough scrambleBit r w).1 n = (w / 2 ^ (16 - n), (bitsThrough scrambleBit r w n).2) := by
  induction n with
  | zero => rw [Nat.sub_zero, Nat.div_eq_of_lt fits]; rfl
  | succ n ih =>
    have step : w / 2 ^ (15 - n) = 2 * (w / 2 ^ (16 - n)) + boolNat (bit w (15 - n)) := by
      rw [boolNat_bit, bits, show 16 - n = 15 - n + 1 by omega, Nat.pow_succ, ← Nat.div_div_eq_div_mul]
      omega
    simp only [bitsThrough, ih (by omega), bit_wordThrough scrambleBit r w n (by omega), descrambleBit_scrambleBit]
    rw [show 16 - (n + 1) = 15 - n by omega, step]

/-- A word reads back from its scrambled form. -/
theorem wordThrough_descramble (r : BitVec 23) {w : Nat} (fits : w < 2 ^ 16) :
    wordThrough descrambleBit r (wordThrough scrambleBit r w).1 = (w, (wordThrough scrambleBit r w).2) := by
  have := bitsThrough_descramble r fits (Nat.le_refl 16)
  simpa [wordThrough_eq_bitsThrough] using this

/-! ## Symbols (Table 14.1) -/

theorem symbolOf_dataSymbol {w : Nat} (fits : w < 2 ^ 16) : symbolOf (dataSymbol w) = some (.inl w) := by
  have high : (0x60000 + w) % 2 ^ 20 / 2 ^ 16 = 6 := by omega
  have low : (0x60000 + w) % 2 ^ 20 % 2 ^ 16 = w := by omega
  simp only [symbolOf, dataSymbol, BitVec.toNat_ofNat, high, low, if_true]

/-- A word's scrambled data symbol is no symbol error. -/
theorem symbolOf_scrambled (r : BitVec 23) (w : Nat) : symbolOf (dataSymbol (wordThrough scrambleBit r w).1) = some (.inl (wordThrough scrambleBit r w).1) :=
  symbolOf_dataSymbol (bitsThrough_lt scrambleBit r w 16)

theorem wordsOf_dataSymbols {ws : List Nat} (fits : ∀ w ∈ ws, w < 2 ^ 16) : ∀ r, (wordsOf r (dataSymbols r ws).1).1 = ws.map some := by
  induction ws with
  | nil => exact fun _ => rfl
  | cons w ws ih =>
    intro r
    have tail := ih (fun v inTail => fits v (by simp [inTail])) (wordThrough scrambleBit r w).2
    simp only [dataSymbols, wordsOf, symbolOf_scrambled, wordThrough_descramble r (fits w (by simp)), tail, List.map_cons]

@[simp] theorem dataSymbols_length (ws : List Nat) : ∀ r, (dataSymbols r ws).1.length = ws.length := by
  induction ws with
  | nil => exact fun _ => rfl
  | cons w ws ih => intro r; simp [dataSymbols, ih]

/-- No data symbol that leaves is a symbol error. -/
theorem symbolOf_of_mem_dataSymbols {ws : List Nat} : ∀ {r : BitVec 23} {x : BitVec 20}, x ∈ (dataSymbols r ws).1 → symbolOf x ≠ none := by
  induction ws with
  | nil => intro r x inNil; simp [dataSymbols] at inNil
  | cons w ws ih =>
    intro r x inCons
    simp only [dataSymbols, List.mem_cons] at inCons
    obtain rfl | inTail := inCons
    · rw [symbolOf_scrambled]
      exact Option.some_ne_none _
    · exact ih inTail

/-! ## Words and sections (R400, R401, R421) -/

@[simp] theorem fieldWords_length (v n : Nat) : (fieldWords v n).length = n := by
  induction n with
  | zero => rfl
  | succ n ih => simp [fieldWords, ih]

theorem fieldWords_fit (v n : Nat) : ∀ w ∈ fieldWords v n, w < 2 ^ 16 := by
  induction n with
  | zero => simp [fieldWords]
  | succ n ih =>
    intro w inField
    simp only [fieldWords, List.mem_cons] at inField
    obtain rfl | inTail := inField
    · exact Nat.mod_lt _ (by decide)
    · exact ih w inTail

/-- The words of a field, behind a part already read. -/
theorem foldl_fieldWords (v n : Nat) : ∀ a, (fieldWords v n).foldl (fun v w => v * 2 ^ 16 + w) a = a * 2 ^ (16 * n) + v % 2 ^ (16 * n) := by
  induction n with
  | zero => simp [fieldWords, Nat.mod_one]
  | succ n ih =>
    intro a
    have split : v % 2 ^ (16 * (n + 1)) = v / 2 ^ (16 * n) % 2 ^ 16 * 2 ^ (16 * n) + v % 2 ^ (16 * n) := by
      rw [show 16 * (n + 1) = 16 * n + 16 by omega, Nat.pow_add, Nat.mod_mul, Nat.mul_comm (2 ^ (16 * n)), Nat.add_comm]
    simp only [fieldWords, List.foldl_cons, ih, split]
    rw [show 16 * (n + 1) = 16 + 16 * n by omega, Nat.pow_add]
    ring

/-- A field reads back from its words. -/
theorem wordsField_fieldWords {v n : Nat} (fits : v < 2 ^ (16 * n)) : wordsField (fieldWords v n) = v := by
  rw [wordsField, foldl_fieldWords, Nat.zero_mul, Nat.zero_add, Nat.mod_eq_of_lt fits]

theorem wordsCrc_lt (ws : List Nat) : wordsCrc ws < 2 ^ 32 := by
  unfold wordsCrc crc32c
  exact BitVec.isLt _

/-- The CRC a section leaves with. -/
def sealedCrc (ok : Bool) (ws : List Nat) : Nat := if ok then wordsCrc ws else 2 ^ 32 - 1 - wordsCrc ws

theorem sealWords_eq (ok : Bool) (ws : List Nat) : sealWords ok ws = ws ++ fieldWords (sealedCrc ok ws) 2 := rfl

theorem sealedCrc_lt (ok : Bool) (ws : List Nat) : sealedCrc ok ws < 2 ^ (16 * 2) := by
  have := wordsCrc_lt ws
  unfold sealedCrc
  split <;> omega

/-- The CRC matches exactly where the section is good: no number is its own inverse. -/
theorem sealedCrc_eq_iff (ok : Bool) (ws : List Nat) : sealedCrc ok ws = wordsCrc ws ↔ ok = true := by
  have := wordsCrc_lt ws
  cases ok <;> simp [sealedCrc]
  omega

@[simp] theorem sealWords_length (ok : Bool) (ws : List Nat) : (sealWords ok ws).length = ws.length + 2 := by simp [sealWords_eq]

theorem sealWords_fit {ws : List Nat} (fits : ∀ w ∈ ws, w < 2 ^ 16) (ok : Bool) : ∀ w ∈ sealWords ok ws, w < 2 ^ 16 := by
  intro w inSection
  rw [sealWords_eq, List.mem_append] at inSection
  exact inSection.elim (fits w) (fieldWords_fit _ _ w)

/-- A section in front of others is read as it was sealed. -/
theorem readSection_sealed {n : Nat} {ws : List Nat} (length : ws.length = n) (ok : Bool) (rest : List Nat) :
    readSection n ((sealWords ok ws ++ rest).map some) = (ok, ws) := by
  subst length
  have all : (((sealWords ok ws ++ rest).map some).take (ws.length + 2)).all (·.isSome) = true := by
    simp [List.all_eq_true]
  have words : (((sealWords ok ws ++ rest).map some).take ws.length).map (·.getD 0) = ws := by
    simp [sealWords_eq, Function.comp_def]
  have crc : ((((sealWords ok ws ++ rest).map some).drop ws.length).take 2).map (·.getD 0) = fieldWords (sealedCrc ok ws) 2 := by
    have two : (fieldWords (sealedCrc ok ws) 2 ++ rest).take 2 = fieldWords (sealedCrc ok ws) 2 := List.take_left' (by simp)
    rw [← List.map_drop, ← List.map_take, sealWords_eq, List.append_assoc, List.drop_left, two]
    simp
  simp only [readSection, words, crc, all, wordsField_fieldWords (sealedCrc_lt ok ws), sealedCrc_eq_iff]
  simp

/-- A section in front of others is as long as its words and its CRC. -/
theorem drop_sealed {n : Nat} {ws : List Nat} (length : ws.length = n) (ok : Bool) (rest : List Nat) :
    ((sealWords ok ws ++ rest).map some).drop (n + 2) = rest.map some := by
  rw [← List.map_drop, List.drop_left' (by simp [length])]

/-- A bit reads as the truth value its place holds. -/
theorem bit_of_bits {v i : Nat} {b : Bool} (h : bits v i 1 = boolNat b) : bit v i = b := by
  rw [bit, h]
  cases b <;> rfl

/-! ## The header (Table 14.4) -/

section
variable {h : HbHeader}

theorem headerWords_fit (fits : HeaderFits h) : ∀ w ∈ headerWords h, w < 2 ^ 16 := by
  obtain ⟨round, -, stamp, period, len, next, banker, delay⟩ := fits
  have deal := fieldWords_fit h.curDeal 3
  have bits := boolNat_lt_two h.stretchPend
  have void := boolNat_lt_two h.void
  have rsvd := boolNat_lt_two h.rsvd
  intro w inHeader
  simp only [headerWords, List.cons_append, List.mem_cons, List.mem_append, List.not_mem_nil, or_false] at inHeader
  rcases inHeader with rfl | inDeal | rfl | rfl | rfl | rfl | rfl | rfl
  case inr.inl => exact deal w inDeal
  all_goals omega

theorem headerWords_length (h : HbHeader) : (headerWords h).length = 10 := by simp [headerWords]

/-- A header reads back from its words. -/
theorem parseHeader_headerWords (fits : HeaderFits h) : parseHeader h.ok (headerWords h) = h := by
  obtain ⟨-, deal, stamp, period, len, next, banker, -⟩ := fits
  have pend := boolNat_lt_two h.stretchPend
  have voidBit := boolNat_lt_two h.void
  have rsvdBit := boolNat_lt_two h.rsvd
  have words : headerWords h = [h.round, h.curDeal / 2 ^ 32 % 2 ^ 16, h.curDeal / 2 ^ 16 % 2 ^ 16, h.curDeal % 2 ^ 16, 256 * h.curPeriod + h.stampTrick / 2 ^ 16, h.stampTrick % 2 ^ 16,
      256 * h.nextPeriod + 128 * boolNat h.stretchPend + h.nextLen / 2 ^ 16, h.nextLen % 2 ^ 16, 2048 * h.bankerId + 1024 * boolNat h.void + boolNat h.rsvd, h.accDelay] := by
    simp [headerWords, fieldWords]
  obtain ⟨ok, rsvd, round, curDeal, stampTrick, curPeriod, nextLen, nextPeriod, stretchPend, bankerId, void, accDelay⟩ := h
  rw [words]
  simp only at *
  have dealRead : wordsField [curDeal / 2 ^ 32 % 2 ^ 16, curDeal / 2 ^ 16 % 2 ^ 16, curDeal % 2 ^ 16] = curDeal := by
    simp only [wordsField, List.foldl_cons, List.foldl_nil]
    omega
  have unused : bits (256 * curPeriod + stampTrick / 2 ^ 16) 6 2 = 0 := by unfold bits; omega
  have rsvdRead : bits (2048 * bankerId + 1024 * boolNat void + boolNat rsvd) 0 10 = boolNat rsvd := by unfold bits; omega
  simp only [parseHeader, List.getD_cons_zero, List.getD_cons_succ, List.drop_succ_cons, List.drop_zero, List.take_succ_cons, List.take_zero, dealRead, unused, rsvdRead, HbHeader.mk.injEq, true_and, and_true]
  refine ⟨by cases rsvd <;> rfl, ?_, ?_, ?_, ?_, bit_of_bits ?_, ?_, bit_of_bits ?_⟩ <;> unfold bits <;> omega

end

/-! ## The standing block (Table 14.5) -/

/-- Pairs of entries, one after the other. -/
theorem flatMap_pairs {α : Type} (f : Nat → α) (n : Nat) : (List.range n).flatMap (fun i => [f (2 * i), f (2 * i + 1)]) = (List.range (2 * n)).map f := by
  induction n with
  | zero => rfl
  | succ n ih => simp [List.range_succ, ih, Nat.mul_add]

/-- The byte at place `i` of ORDER: its entry's, or 0 behind the last. -/
def orderByteAt (l : List OrderEntry) (i : Nat) : Nat := match l[i]? with | some e => orderByte e | none => 0

theorem orderByte_lt {e : OrderEntry} (addr : e.addr < 2 ^ 5) : orderByte e < 256 := by
  have bmc := boolNat_lt_two e.bmc
  have elig := boolNat_lt_two e.elig
  unfold orderByte
  omega

theorem orderByteAt_lt {l : List OrderEntry} (addr : ∀ e ∈ l, e.addr < 2 ^ 5) (i : Nat) : orderByteAt l i < 256 := by
  unfold orderByteAt
  split
  next e found => exact orderByte_lt (addr e (List.mem_of_getElem? found))
  next => decide

/-- The 32 bytes of ORDER: the entries, and zeros behind them. -/
theorem map_orderByteAt {l : List OrderEntry} (length : l.length ≤ 32) :
    (List.range 32).map (orderByteAt l) = l.map orderByte ++ List.replicate (32 - l.length) 0 := by
  refine List.ext_getElem (by simp; omega) fun i left right => ?_
  simp only [List.getElem_map, List.getElem_range, List.getElem_append, List.length_map, List.getElem_replicate]
  split
  next inside => simp [orderByteAt, List.getElem?_eq_getElem inside]
  next outside => simp [orderByteAt, List.getElem?_eq_none (Nat.le_of_not_lt outside)]

/-- An entry of ORDER reads back from its byte. -/
theorem parseOrder_orderByte {e : OrderEntry} (addr : e.addr < 2 ^ 5) (rest : List Nat) : parseOrder (orderByte e :: rest) = e :: parseOrder rest := by
  obtain ⟨bmc, elig, a⟩ := e
  have bmcBit := boolNat_lt_two bmc
  have eligBit := boolNat_lt_two elig
  simp only at addr
  have valid : bit (orderByte ⟨bmc, elig, a⟩) 7 = true := bit_of_bits (b := true) (by simp only [orderByte, bits, show boolNat true = 1 from rfl]; omega)
  rw [parseOrder, if_pos valid]
  congr 1
  simp only [OrderEntry.mk.injEq, orderByte]
  refine ⟨bit_of_bits ?_, bit_of_bits ?_, ?_⟩ <;> unfold bits <;> omega

theorem parseOrder_zeros (n : Nat) : parseOrder (List.replicate n 0) = [] := by
  cases n <;> rfl

/-- ORDER reads back up to its first entry without V. -/
theorem parseOrder_orderBytes {l : List OrderEntry} (addr : ∀ e ∈ l, e.addr < 2 ^ 5) (n : Nat) : parseOrder (l.map orderByte ++ List.replicate n 0) = l := by
  induction l with
  | nil => exact parseOrder_zeros n
  | cons e l ih =>
    rw [List.map_cons, List.cons_append, parseOrder_orderByte (addr e (by simp)), ih fun x inTail => addr x (by simp [inTail])]

section
variable {b : HbStanding}

theorem standingWords_eq (b : HbStanding) : standingWords b = fieldWords b.present.toNat 2 ++ fieldWords b.join.toNat 2 ++ fieldWords b.notSeated.toNat 2 ++ [b.stretch, b.floor]
    ++ (List.range 16).map (fun i => 256 * orderByteAt b.order (2 * i) + orderByteAt b.order (2 * i + 1)) := rfl

theorem standingWords_length (b : HbStanding) : (standingWords b).length = 24 := by simp [standingWords_eq]

theorem standingWords_fit (fits : StandingFits b) : ∀ w ∈ standingWords b, w < 2 ^ 16 := by
  obtain ⟨stretch, floor, -, addr⟩ := fits
  intro w inBlock
  simp only [standingWords_eq, List.mem_append, List.mem_cons, List.not_mem_nil, or_false, List.mem_map] at inBlock
  rcases inBlock with (((inPresent | inJoin) | inNot) | (rfl | rfl)) | ⟨i, -, rfl⟩
  · exact fieldWords_fit _ _ w inPresent
  · exact fieldWords_fit _ _ w inJoin
  · exact fieldWords_fit _ _ w inNot
  · exact stretch
  · exact floor
  · have even := orderByteAt_lt addr (2 * i)
    have odd := orderByteAt_lt addr (2 * i + 1)
    omega

/-- A standing block reads back from its words. -/
theorem parseStanding_standingWords (fits : StandingFits b) : parseStanding b.ok (standingWords b) = b := by
  obtain ⟨-, -, length, addr⟩ := fits
  have order : ((List.range 16).map (fun i => 256 * orderByteAt b.order (2 * i) + orderByteAt b.order (2 * i + 1))).flatMap (fun v => [bits v 8 8, bits v 0 8]) = (List.range 32).map (orderByteAt b.order) := by
    rw [List.flatMap_map, ← flatMap_pairs _ 16]
    refine List.flatMap_congr fun i _ => ?_
    have even := orderByteAt_lt addr (2 * i)
    have odd := orderByteAt_lt addr (2 * i + 1)
    simp only [bits, List.cons.injEq, and_true]
    omega
  have two : ∀ w : Word32, BitVec.ofNat 32 (wordsField (fieldWords w.toNat 2)) = w := fun w => by
    rw [wordsField_fieldWords w.isLt, BitVec.ofNat_toNat, BitVec.setWidth_eq]
  have present := two b.present
  have join := two b.join
  have notSeated := two b.notSeated
  simp only [parseStanding, standingWords_eq]
  obtain ⟨p, p', presentWords⟩ : ∃ x y, fieldWords b.present.toNat 2 = [x, y] := ⟨_, _, rfl⟩
  obtain ⟨j, j', joinWords⟩ : ∃ x y, fieldWords b.join.toNat 2 = [x, y] := ⟨_, _, rfl⟩
  obtain ⟨n, n', notWords⟩ : ∃ x y, fieldWords b.notSeated.toNat 2 = [x, y] := ⟨_, _, rfl⟩
  rw [presentWords] at present ⊢
  rw [joinWords] at join ⊢
  rw [notWords] at notSeated ⊢
  simp only [List.cons_append, List.nil_append, List.getD_cons_zero, List.getD_cons_succ, List.drop_succ_cons, List.drop_zero, List.take_succ_cons, List.take_zero, present, join, notSeated, order,
    map_orderByteAt length, parseOrder_orderBytes addr]

end

/-! ## Call slots (Table 14.6) -/

theorem map_getD_range {α : Type} (d : α) (l : List α) : (List.range l.length).map (fun i => l.getD i d) = l := by
  refine List.ext_getElem (by simp) fun i left right => ?_
  simp [List.getElem?_eq_getElem right]

/-- The bytes of a word's halves. -/
theorem word_bytes {x y : Byte} : BitVec.ofNat 8 ((256 * x.toNat + y.toNat) / 256) = x ∧ BitVec.ofNat 8 (256 * x.toNat + y.toNat) = y := by
  constructor <;> bv_omega

section
variable {c : HbCall}

theorem callWords_length (c : HbCall) : (callWords c).length = 23 := by simp [callWords]

theorem callWords_fit (fits : CallFits c) : ∀ w ∈ callWords c, w < 2 ^ 16 := by
  obtain ⟨kind, cls, target, caller, index, sub, op, len, offset, status, tag, -, contrib, alen⟩ := fits
  have used := boolNat_lt_two c.used
  have rsvd := boolNat_lt_two c.rsvd
  intro w inSlot
  simp only [callWords, List.cons_append, List.nil_append, List.mem_append, List.mem_cons, List.not_mem_nil, or_false, List.mem_map] at inSlot
  rcases inSlot with rfl | rfl | rfl | (((inOffset | rfl) | ⟨m, -, rfl⟩) | rfl)
  case inr.inr.inr.inl.inl.inl => exact fieldWords_fit _ _ w inOffset
  case inr.inr.inr.inl.inr =>
    have high : byteAt c.data (2 * m) < 2 ^ 8 := BitVec.isLt _
    have low : byteAt c.data (2 * m + 1) < 2 ^ 8 := BitVec.isLt _
    omega
  all_goals omega

/-- The bytes of DATA read back from their words. -/
theorem callData_words (length : c.data.length = 32) :
    ((List.range 16).map (fun m => 256 * byteAt c.data (2 * m) + byteAt c.data (2 * m + 1))).flatMap (fun v => [BitVec.ofNat 8 (v / 256), BitVec.ofNat 8 v]) = c.data := by
  have bytes := map_getD_range 0 c.data
  rw [length, ← flatMap_pairs _ 16] at bytes
  rw [List.flatMap_map]
  refine (List.flatMap_congr fun i _ => ?_).trans bytes
  simp only [byteAt, word_bytes]

/-- A call slot reads back from its words. -/
theorem parseCall_callWords (fits : CallFits c) : parseCall c.ok (callWords c) = c := by
  obtain ⟨kind, cls, target, caller, index, sub, op, len, offset, status, tag, length, contrib, alen⟩ := fits
  have usedBit := boolNat_lt_two c.used
  have rsvdBit := boolNat_lt_two c.rsvd
  have data := callData_words length
  have offsetRead := wordsField_fieldWords (n := 2) offset
  obtain ⟨o, o', offsetWords⟩ : ∃ x y, fieldWords c.offset 2 = [x, y] := ⟨_, _, rfl⟩
  obtain ⟨ok, rsvd, used, ckind, ccls, ctarget, ccaller, cindex, csub, cop, clen, coffset, cstatus, ctag, cdata, ccontrib, calen⟩ := c
  simp only at *
  rw [offsetWords] at offsetRead
  simp only [parseCall, callWords, offsetWords]
  generalize dataWords : (List.range 16).map (fun m => 256 * byteAt cdata (2 * m) + byteAt cdata (2 * m + 1)) = d at data ⊢
  have dataLength : d.length = 16 := by rw [← dataWords]; simp
  have last : ∀ x, (d ++ [x]).getD 16 0 = x := fun x => by simp [dataLength]
  have front : ∀ x, (d ++ [x]).take 16 = d := fun x => List.take_left' dataLength
  have unused : bits (1024 * ccontrib + calen) 6 4 = 0 := by unfold bits; omega
  have rsvdRead : bits (2 ^ 15 * boolNat used + 2 ^ 13 * ckind + 2 ^ 11 * ccls + 64 * ctarget + 2 * ccaller + boolNat rsvd) 0 1 = boolNat rsvd := by unfold bits; omega
  simp only [List.cons_append, List.nil_append, List.getD_cons_zero, List.getD_cons_succ, List.drop_succ_cons, List.drop_zero, List.take_succ_cons, List.take_zero, last, front, offsetRead, data, unused,
    bit_of_bits rsvdRead, HbCall.mk.injEq, ne_eq, not_true_eq_false, decide_false, Bool.or_false, true_and]
  refine ⟨bit_of_bits ?_, ?_, ?_, ?_, ?_, ?_, ?_, ?_, ?_, ?_, ?_, ?_⟩ <;> unfold bits <;> omega

/-- Call slots, each behind the one before, read back. -/
theorem parseCalls_callWords (rest : List Nat) {l : List HbCall} (fits : ∀ c ∈ l, CallFits c) :
    parseCalls l.length ((l.flatMap (fun c => sealWords c.ok (callWords c)) ++ rest).map some) = l := by
  induction l with
  | nil => rfl
  | cons c l ih =>
    rw [List.length_cons, List.flatMap_cons, List.append_assoc, parseCalls, readSection_sealed (callWords_length c), drop_sealed (callWords_length c), parseCall_callWords (fits c (by simp)),
      ih fun x inTail => fits x (by simp [inTail])]

end

/-! ## Frames (Table 14.3) -/

section
variable {f : HbFrame}

theorem slotWords_length (l : List HbCall) : (l.flatMap (fun c => sealWords c.ok (callWords c))).length = 25 * l.length := by
  induction l with
  | nil => rfl
  | cons c l ih =>
    rw [List.flatMap_cons, List.length_append, sealWords_length, callWords_length, ih, List.length_cons]
    omega

/-- The words of a frame, each section in front of all that follow it. -/
theorem frameWords_eq (f : HbFrame) : frameWords f = sealWords f.header.ok (headerWords f.header) ++ (sealWords f.standing.ok (standingWords f.standing)
    ++ (f.slots.flatMap (fun c => sealWords c.ok (callWords c)) ++ (sealWords f.originOk (fieldWords f.serial.toNat 4) ++ []))) := by
  simp [frameWords]

theorem frameWords_length (fits : FrameFits f) : (frameWords f).length = 494 := by
  simp only [frameWords, List.length_append, sealWords_length, headerWords_length, standingWords_length, slotWords_length, fieldWords_length, fits.slots]

theorem frameWords_fit (fits : FrameFits f) : ∀ w ∈ frameWords f, w < 2 ^ 16 := by
  intro w inFrame
  simp only [frameWords, List.mem_append, List.mem_flatMap] at inFrame
  rcases inFrame with ((inHeader | inStanding) | ⟨c, inSlots, inCall⟩) | inOrigin
  · exact sealWords_fit (headerWords_fit fits.header) _ w inHeader
  · exact sealWords_fit (standingWords_fit fits.standing) _ w inStanding
  · exact sealWords_fit (callWords_fit (fits.calls c inSlots)) _ w inCall
  · exact sealWords_fit (fieldWords_fit _ 4) _ w inOrigin

theorem frameSymbols_length (fits : FrameFits f) (lap2 : Bool) (r : BitVec 23) : (frameSymbols lap2 r f).length = 500 := by
  simp [frameSymbols, frameWords_length fits]

/-- SOF names the lap. -/
theorem frameLap2_frameSymbols (lap2 : Bool) (r : BitVec 23) (f : HbFrame) : frameLap2 (frameSymbols lap2 r f) = lap2 := by
  cases lap2 <;> rfl

/-- The words between SOF and the idle symbols, descrambled. -/
theorem wordsOf_frameSymbols (fits : FrameFits f) (lap2 : Bool) (r : BitVec 23) :
    (wordsOf r (((frameSymbols lap2 r f).drop 1).take 494)).1 = (frameWords f).map some := by
  have data : ((frameSymbols lap2 r f).drop 1).take 494 = (dataSymbols r (frameWords f)).1 := by
    simp only [frameSymbols, List.cons_append, List.nil_append, List.append_assoc, List.drop_succ_cons, List.drop_zero]
    exact List.take_left' (by simp [frameWords_length fits])
  rw [data, wordsOf_dataSymbols (frameWords_fit fits)]

/-- EOF, the last symbol, carries VOID. -/
theorem frameSymbols_eof (fits : FrameFits f) (lap2 : Bool) (r : BitVec 23) : (frameSymbols lap2 r f)[499]? = some (controlSymbol 0xC3 (boolNat lap2 + 2 * boolNat f.eofVoid)) := by
  simp only [frameSymbols]
  rw [List.getElem?_append_right (by simp [frameWords_length fits])]
  simp [frameWords_length fits]

theorem symbolOf_eof (lap2 void : Bool) : symbolOf (controlSymbol 0xC3 (boolNat lap2 + 2 * boolNat void)) = some (.inr (0xC300 + (boolNat lap2 + 2 * boolNat void))) := by
  cases lap2 <;> cases void <;> rfl

theorem eof_void (lap2 void : Bool) : (!(bits (0xC300 + (boolNat lap2 + 2 * boolNat void)) 8 8 = 0xC3) || bit (0xC300 + (boolNat lap2 + 2 * boolNat void)) 1) = void := by
  cases lap2 <;> cases void <;> rfl

/-- Nothing of a frame that leaves is a symbol error. -/
theorem symbolOf_frameSymbols (lap2 : Bool) (r : BitVec 23) (f : HbFrame) : ∀ x ∈ frameSymbols lap2 r f, symbolOf x ≠ none := by
  intro x inFrame
  simp only [frameSymbols, List.mem_append, List.mem_cons, List.not_mem_nil, or_false, List.mem_replicate] at inFrame
  rcases inFrame with ((rfl | inData) | ⟨-, rfl⟩) | rfl
  · cases lap2 <;> decide
  · exact symbolOf_of_mem_dataSymbols inData
  · decide
  · rw [symbolOf_eof]
    exact Option.some_ne_none _

/-- A frame reads back from its symbols. -/
theorem parseFrame_frameSymbols (fits : FrameFits f) (lap2 : Bool) (r : BitVec 23) : parseFrame r (frameSymbols lap2 r f) = f := by
  have errors : ((frameSymbols lap2 r f).filter (fun x => symbolOf x = none)).length = f.symErrs := by
    rw [fits.errors, List.length_eq_zero_iff, List.filter_eq_nil_iff]
    exact fun x inFrame => by simpa using symbolOf_frameSymbols lap2 r f x inFrame
  have header := readSection_sealed (headerWords_length f.header) f.header.ok
  have standing := readSection_sealed (standingWords_length f.standing) f.standing.ok
  have origin := readSection_sealed (fieldWords_length f.serial.toNat 4) f.originOk
  have behindHeader := fun rest => drop_sealed (headerWords_length f.header) f.header.ok rest
  have behindStanding := fun rest => drop_sealed (standingWords_length f.standing) f.standing.ok rest
  have behindSlots : ∀ rest, ((f.slots.flatMap (fun c => sealWords c.ok (callWords c)) ++ rest).map some).drop 450 = rest.map some := fun rest => by
    rw [← List.map_drop, List.drop_left' (by simp only [slotWords_length, fits.slots])]
  have slots : ∀ rest, parseCalls 18 ((f.slots.flatMap (fun c => sealWords c.ok (callWords c)) ++ rest).map some) = f.slots := fun rest =>
    fits.slots ▸ parseCalls_callWords rest fits.calls
  have serial : BitVec.ofNat 64 (wordsField (fieldWords f.serial.toNat 4)) = f.serial := by
    rw [wordsField_fieldWords f.serial.isLt, BitVec.ofNat_toNat, BitVec.setWidth_eq]
  have drop38 : ∀ l : List (Option Nat), l.drop 38 = (l.drop (10 + 2)).drop (24 + 2) := fun l => by simp
  have drop488 : ∀ l : List (Option Nat), l.drop 488 = ((l.drop (10 + 2)).drop (24 + 2)).drop 450 := fun l => by simp
  rw [parseFrame, wordsOf_frameSymbols fits, frameSymbols_eof fits, errors, frameWords_eq, drop38, drop488, header, show 12 = 10 + 2 from rfl, behindHeader, standing, behindStanding, slots, behindSlots, origin]
  simp only [parseHeader_headerWords fits.header, parseStanding_standingWords fits.standing, serial, Option.bind_some, symbolOf_eof, eof_void]
  rw [← fits.timed]

end

/-! ## Deck flits (R362, Table 13.1) -/

section
variable {f : Flit}

theorem crc32_lt (b : Bytes) : crc32 b < 2 ^ 32 := by
  unfold crc32
  exact BitVec.isLt _

/-- The header of a flit as one number of 96 bits. -/
def flitNumber (f : Flit) : Nat :=
  f.type * 2 ^ 92 + f.seq * 2 ^ 80 + f.ack * 2 ^ 68 + f.crData * 2 ^ 58 + f.crNotice * 2 ^ 52 + f.crPass * 2 ^ 44 + f.len * 2 ^ 36 + boolNat f.first * 2 ^ 35 + boolNat f.rsvd

theorem flitHeader_eq (f : Flit) : flitHeader f = (toLe (flitNumber f) 12).reverse := rfl

theorem flitHeader_length (f : Flit) : (flitHeader f).length = 12 := by simp [flitHeader_eq]

/-- The CRC a flit leaves with. -/
def flitCrc (ok : Bool) (b : Bytes) : Nat := if ok then crc32 b else 2 ^ 32 - 1 - crc32 b

theorem flitCrc_lt (ok : Bool) (b : Bytes) : flitCrc ok b < 256 ^ 4 := by
  have := crc32_lt b
  unfold flitCrc
  split <;> omega

theorem flitCrc_eq_iff (ok : Bool) (b : Bytes) : flitCrc ok b = crc32 b ↔ ok = true := by
  have := crc32_lt b
  cases ok <;> simp [flitCrc]
  omega

/-- The bytes of a flit whose payload is whole: header, payload, CRC. -/
theorem flitBytes_eq (payload : f.payload.length = 240) : flitBytes f = flitHeader f ++ f.payload ++ toLe (flitCrc f.ok (flitHeader f ++ f.payload)) 4 := by
  have whole : padTo 240 f.payload = f.payload := by rw [padTo, List.take_left' payload]
  simp only [flitBytes, whole, flitCrc]

theorem flitNumber_lt (fits : FlitFits f) : flitNumber f < 256 ^ 12 := by
  obtain ⟨type, seq, ack, data, notice, pass, len, -⟩ := fits
  have first := boolNat_lt_two f.first
  have rsvd := boolNat_lt_two f.rsvd
  unfold flitNumber
  omega

theorem flitBytes_length (fits : FlitFits f) : (flitBytes f).length = 256 := by
  simp [flitBytes_eq fits.payload, flitHeader_length, fits.payload]

/-- A flit reads back from its bytes. -/
theorem parseFlit_flitBytes (fits : FlitFits f) : parseFlit (flitBytes f) = f := by
  have length := flitBytes_length fits
  have number := leAll_toLe _ _ (flitNumber_lt fits)
  have front : (flitHeader f ++ f.payload).length = 252 := by simp [flitHeader_length, fits.payload]
  have body : (flitBytes f).take 0xFC = flitHeader f ++ f.payload := by rw [flitBytes_eq fits.payload, List.take_left' front]
  have crc : le (flitBytes f) 0xFC 4 = flitCrc f.ok (flitHeader f ++ f.payload) := by
    rw [le, flitBytes_eq fits.payload, List.drop_left' front, List.take_of_length_le (by simp), leAll_toLe _ _ (flitCrc_lt _ _)]
  have header : leAll ((flitBytes f).take 12).reverse = flitNumber f := by
    rw [flitBytes_eq fits.payload, List.append_assoc, List.take_left' (flitHeader_length f), flitHeader_eq, List.reverse_reverse, number]
  have payload : ((flitBytes f).drop 12).take 240 = f.payload := by
    rw [flitBytes_eq fits.payload, List.append_assoc, List.drop_left' (flitHeader_length f), List.take_left' fits.payload]
  obtain ⟨type, seq, ack, data, notice, pass, len, -⟩ := fits
  have first := boolNat_lt_two f.first
  have rsvdBit := boolNat_lt_two f.rsvd
  have rsvdRead : flitNumber f % 2 ^ 35 = boolNat f.rsvd := by unfold flitNumber; omega
  have rsvd : decide (boolNat f.rsvd ≠ 0) = f.rsvd := by cases f.rsvd <;> rfl
  have firstRead : bit (flitNumber f) 35 = f.first := bit_of_bits (by unfold bits flitNumber; omega)
  have ok : (decide ((flitBytes f).length = 256) && decide (flitCrc f.ok (flitHeader f ++ f.payload) = crc32 (flitHeader f ++ f.payload))) = f.ok := by
    simp only [length, flitCrc_eq_iff]
    simp
  simp only [parseFlit, body, crc, header, payload, ok, rsvdRead, rsvd, firstRead]
  have fields : bits (flitNumber f) 92 4 = f.type ∧ bits (flitNumber f) 80 12 = f.seq ∧ bits (flitNumber f) 68 12 = f.ack ∧ bits (flitNumber f) 58 10 = f.crData ∧ bits (flitNumber f) 52 6 = f.crNotice
      ∧ bits (flitNumber f) 44 8 = f.crPass ∧ bits (flitNumber f) 36 8 = f.len := by
    unfold bits flitNumber
    omega
  obtain ⟨t, q, a, d, n, p, l⟩ := fields
  simp only [t, q, a, d, n, p, l]

end

end Sys2Proof.Machine

namespace Sys2Proof.Proofs
open Sys2Proof Sys2Proof.Machine

/-- Settles O46: word by word the descrambler undoes the scrambler, section by section the CRC tells a good one, and field by field the places of the tables read back. -/
theorem wiresCarryWhatIsSent : Obligations.WiresCarryWhatIsSent := by
  unfold Obligations.WiresCarryWhatIsSent
  exact ⟨fun lap2 r f fits => ⟨frameSymbols_length fits lap2 r, frameLap2_frameSymbols lap2 r f, parseFrame_frameSymbols fits lap2 r⟩,
    fun f fits => ⟨flitBytes_length fits, parseFlit_flitBytes fits⟩⟩

end Sys2Proof.Proofs
end

section
/-!
Lemmas on the commands of video sessions (R306, R307, R311, R315, R317, R319, R322, R326, Tables 11.5 and 11.6): what each of them answers and changes once it is admitted.
-/
namespace Sys2Proof.Machine

variable {s : State} {c : CmdSlot}

/-! ## Sessions and engines -/

@[simp] theorem State.vsession_setSession_same (s : State) (k : Nat) (x : Session) : (s.setSession k x).vsession k = x := by simp [State.vsession, State.setSession]

theorem State.vsession_setSession_other (s : State) {j k : Nat} (x : Session) (other : j ≠ k) : (s.setSession k x).vsession j = s.vsession j := by
  simp [State.vsession, State.setSession, aget_aset_other j k x _ other]

@[simp] theorem State.vsession_setEngine (s : State) (e k : Nat) (x : Engine) : (s.setEngine e x).vsession k = s.vsession k := rfl

@[simp] theorem State.engine_setSession (s : State) (e k : Nat) (x : Session) : (s.setSession k x).engine e = s.engine e := rfl

@[simp] theorem State.engine_setEngine_same (s : State) (e : Nat) (x : Engine) : (s.setEngine e x).engine e = x := by simp [State.engine, State.setEngine]

theorem State.engine_setEngine_other (s : State) {d e : Nat} (x : Engine) (other : d ≠ e) : (s.setEngine e x).engine d = s.engine d := by
  simp [State.engine, State.setEngine, aget_aset_other d e x _ other]

@[simp] theorem State.setSession_setSession (s : State) (k : Nat) (x y : Session) : (s.setSession k x).setSession k y = s.setSession k y := by simp [State.setSession]

/-- Sessions and engines are read from the video part of the state alone. -/
theorem State.vsession_congr {t : State} (same : t.video = s.video) (k : Nat) : t.vsession k = s.vsession k := by rw [State.vsession, State.vsession, same]

theorem State.engine_congr {t : State} (same : t.video = s.video) (e : Nat) : t.engine e = s.engine e := by rw [State.engine, State.engine, same]

/-- A session's number and its engine's are read from its key. -/
theorem vkey_div {n : Nat} (e : Nat) (session : n < 64) : vkey e n / 64 = e := by unfold vkey; omega

theorem vkey_inj {e m n : Nat} (same : vkey e m = vkey e n) : m = n := by unfold vkey at same; omega

/-! ## What taking the command leaves for its own checks -/

@[simp] theorem State.vsession_cmdTaken (s : State) (c : CmdSlot) (k : Nat) : (s.cmdTaken c).vsession k = s.vsession k := rfl

@[simp] theorem State.engine_cmdTaken (s : State) (c : CmdSlot) (e : Nat) : (s.cmdTaken c).engine e = s.engine e := rfl

@[simp] theorem State.poolMeets_cmdTaken (s : State) (c : CmdSlot) (e k : Nat) (d : SessDesc) : (s.cmdTaken c).poolMeets e k d = s.poolMeets e k d := rfl

/-- Completing the command just taken after it wrote a session, or its engine, or both. -/
theorem complete_setSession (s : State) (op : Nat) (c : CmdSlot) (status k : Nat) (x : Session) :
    ((s.cmdTaken c).setSession k x).complete (ticketOf s op c) status = (s.setSession k x).cmdDone op c status 0 := complete_after s _ op c status rfl

theorem complete_setEngine (s : State) (op : Nat) (c : CmdSlot) (status e : Nat) (x : Engine) :
    ((s.cmdTaken c).setEngine e x).complete (ticketOf s op c) status = (s.setEngine e x).cmdDone op c status 0 := complete_after s _ op c status rfl

theorem complete_openedSession (s : State) (op : Nat) (c : CmdSlot) (status k e : Nat) (x : Session) (y : Engine) :
    (((s.cmdTaken c).setSession k x).setEngine e y).complete (ticketOf s op c) status = ((s.setSession k x).setEngine e y).cmdDone op c status 0 :=
  complete_after s _ op c status rfl

/-- A VIDEO command whose session allows it reaches its own effect. -/
theorem videoCommand_admitted {ok : Session → Bool} (h : VideoAdmitted s c ok) (k : State → Ticket → Session → State) :
    s.videoCommand c ok k = k (s.cmdTaken c) (ticketOf s 0x50 c) (s.vsession (vKeyOf c)) := by
  rw [State.videoCommand, hostCommand_admitted _ _ _ _ _ _ h.admitted]
  simp [h.args, h.arg2, h.allowed, h.mine]

/-- A VIDEO command on a session in another state answers BAD_STATE. -/
theorem videoCommand_badState {ok : Session → Bool} (admitted : Admitted s c false none) (args : vArgBad c = false) (arg2 : c.arg2 = 0)
    (other : ok (s.vsession (vKeyOf c)) = false) (k : State → Ticket → Session → State) : s.videoCommand c ok k = s.cmdDone 0x50 c 0x02 0 := by
  rw [State.videoCommand, hostCommand_admitted _ _ _ _ _ _ admitted]
  simp [args, arg2, other, complete_taken]

/-! ## OPEN -/

/-- What OPEN asks of its slot before it looks at the descriptor. -/
structure OpenAdmitted (s : State) (c : CmdSlot) : Prop where
  admitted : Admitted s c false none
  args : vArgBad c = false
  arg1 : c.arg1 = 0
  arg2 : c.arg2 = 0

/-- The session of OPEN's descriptor as it opens. -/
def openedSession (s : State) (c : CmdSlot) : Session :=
  { state := 1, account := (parseDesc c.payload).2.1, frames := (parseDesc c.payload).2.2.1, frameStride := (parseDesc c.payload).2.2.2, desc := (parseDesc c.payload).1
    vec := (s.vsession (vKeyOf c)).vec }

/-- The descriptor, the session's state, the level, the pool and the account all allow OPEN. -/
structure Openable (s : State) (c : CmdSlot) (d : SessDesc) (account frames stride : Nat) : Prop where
  legal : descOut d frames stride = false
  closed : (s.vsession (vKeyOf c)).state = 0
  picture : d.width * d.height ≤ maxPicture d
  buffers : hevc d = true → d.poolCount ≤ maxDpb d
  apart : s.poolMeets (vEngine c) (vKeyOf c) d = false
  mine : s.acts c.fn account = true
  large : ∀ i < d.poolCount, poolBytes d ≤ ((aget (d.poolFirst + i) (s.engine (vEngine c)).pool).getD {}).bytes

/-- OPEN of an open session: its checks from the state of the session on, as one branch. -/
theorem execOpenSession_eq (h : OpenAdmitted s c) :
    execOpenSession c s = .next (
      let p := parseDesc c.payload
      let d := p.1
      if descOut d p.2.2.1 p.2.2.2 then s.cmdDone 0x50 c 0x01 0
      else if (s.vsession (vKeyOf c)).state ≠ 0 then s.cmdDone 0x50 c 0x02 0
      else if maxPicture d < d.width * d.height || (hevc d && decide (maxDpb d < d.poolCount)) then s.cmdDone 0x50 c 0x03 0
      else if s.poolMeets (vEngine c) (vKeyOf c) d then s.cmdDone 0x50 c 0x04 0
      else if !s.acts c.fn p.2.1 then s.cmdDone 0x50 c 0x05 0
      else if (List.range d.poolCount).any (fun i => decide (((aget (d.poolFirst + i) (s.engine (vEngine c)).pool).getD {}).bytes < poolBytes d)) then s.cmdDone 0x50 c 0x06 0
      else if (s.engine (vEngine c)).disabled || (s.engine (vEngine c)).resetting then s.cmdDone 0x50 c 0x07 0
      else ((s.setSession (vKeyOf c) (openedSession s c)).setEngine (vEngine c) ((s.engine (vEngine c)).freeRange d.poolFirst d.poolCount (vSession c))).cmdDone 0x50 c 0 0) := by
  rw [execOpenSession, hostCommand_admitted _ _ _ _ _ _ h.admitted, if_neg (by simp [h.args, h.arg1, h.arg2])]
  simp only [State.vsession_cmdTaken, State.engine_cmdTaken, State.poolMeets_cmdTaken, State.acts_cmdTaken, complete_taken, complete_openedSession, openedSession]
  rfl

/-- What is left of an OPEN that all but the engine allows: the engine's own state (Table 11.5, log entry 80). -/
theorem execOpenSession_openable (h : OpenAdmitted s c) (o : Openable s c (parseDesc c.payload).1 (parseDesc c.payload).2.1 (parseDesc c.payload).2.2.1 (parseDesc c.payload).2.2.2) :
    execOpenSession c s = .next (
      if (s.engine (vEngine c)).disabled || (s.engine (vEngine c)).resetting then s.cmdDone 0x50 c 0x07 0
      else ((s.setSession (vKeyOf c) (openedSession s c)).setEngine (vEngine c)
        ((s.engine (vEngine c)).freeRange (parseDesc c.payload).1.poolFirst (parseDesc c.payload).1.poolCount (vSession c))).cmdDone 0x50 c 0 0) := by
  have level : ¬(maxPicture (parseDesc c.payload).1 < (parseDesc c.payload).1.width * (parseDesc c.payload).1.height
      || (hevc (parseDesc c.payload).1 && decide (maxDpb (parseDesc c.payload).1 < (parseDesc c.payload).1.poolCount))) = true := by
    simpa [Nat.not_lt.mpr o.picture] using o.buffers
  have large : ¬(List.range (parseDesc c.payload).1.poolCount).any
      (fun i => decide (((aget ((parseDesc c.payload).1.poolFirst + i) (s.engine (vEngine c)).pool).getD {}).bytes < poolBytes (parseDesc c.payload).1)) = true := by
    simpa using o.large
  rw [execOpenSession_eq h]
  dsimp only
  rw [if_neg (by simp [o.legal]), if_neg (by simp [o.closed]), if_neg level, if_neg (by simp [o.apart]), if_neg (by simp [o.mine]), if_neg large]

/-! ## CLOSE and ABANDON -/

/-- CLOSE of an OPEN or FAULTED session makes it DRAINING, and waits. -/
theorem execCloseSession_drains (h : VideoAdmitted s c (fun x => x.state = 1 || x.state = 3)) :
    execCloseSession c s = .next ((s.cmdTaken c).setSession (vKeyOf c)
      { s.vsession (vKeyOf c) with state := 2, closing := (s.vsession (vKeyOf c)).closing ++ [ticketOf s 0x50 c] }) := by
  rw [execCloseSession, videoCommand_admitted h]

/-- A session of which nothing is queued: closed, its commands completed. -/
theorem State.shutSession_idle {k : Nat} (decodes : (s.vsession k).decodes = []) :
    s.shutSession k = (s.vsession k).closing.foldl (fun s t => s.complete t 0)
      ((s.setSession k { vec := (s.vsession k).vec }).setEngine (k / 64) ((s.engine (k / 64)).freeRange (s.vsession k).desc.poolFirst (s.vsession k).desc.poolCount 0)) := by
  simp [State.shutSession, decodes]

/-- Completions touch the host interface alone. -/
theorem completes_keep {α : Type} (view : State → α) (keeps : ∀ s t, view (State.complete s t 0) = view s) (l : List Ticket) (s : State) :
    view (l.foldl (fun s t => s.complete t 0) s) = view s := foldl_keeps view keeps l s

/-- SESSION_DRAINED closes a DRAINING session of which nothing is queued. -/
theorem execSessionDrained_closes {e n : Nat} {k : Ticket} (draining : (s.vsession (vkey e n)).state = 2) (handoffs : (s.vsession (vkey e n)).handoffs = [])
    (decodes : (s.vsession (vkey e n)).decodes = []) (closing : (s.vsession (vkey e n)).closing = [k]) (session : n < 64) :
    execSessionDrained e n s = .next (State.complete ((s.setSession (vkey e n) { vec := (s.vsession (vkey e n)).vec }).setEngine e
      ((s.engine e).freeRange (s.vsession (vkey e n)).desc.poolFirst (s.vsession (vkey e n)).desc.poolCount 0)) k 0) := by
  have idle : (s.vsession (vkey e n)).busy = false := by simp [Session.busy, handoffs, decodes]
  simp only [execSessionDrained, draining, idle, State.shutSession_idle decodes, closing, vkey_div e session]
  simp

/-- The session with one more ABANDON that waits for it. -/
def Session.abandoned (x : Session) (t : Ticket) : Session := { x with abandon := true, closing := x.closing ++ [t] }

theorem execAbandon_eq (h : VideoAdmitted s c (fun x => x.state ≠ 0)) :
    execAbandon c s = .next (
      let x := s.vsession (vKeyOf c)
      let u := (s.cmdTaken c).setSession (vKeyOf c) (x.abandoned (ticketOf s 0x50 c))
      if x.state ≠ 3 && x.busy && !x.full then u else u.shutSession (vKeyOf c)) := by
  rw [execAbandon, videoCommand_admitted h]
  rfl

/-- ABANDON of a session with a slice in service waits for the boundary (R326). -/
theorem execAbandon_waits (h : VideoAdmitted s c (fun x => x.state ≠ 0)) (sound : (s.vsession (vKeyOf c)).state ≠ 3) (serves : (s.vsession (vKeyOf c)).handoffs ≠ [])
    (room : (s.vsession (vKeyOf c)).full = false) :
    execAbandon c s = .next ((s.cmdTaken c).setSession (vKeyOf c) ((s.vsession (vKeyOf c)).abandoned (ticketOf s 0x50 c))) := by
  rw [execAbandon_eq h]
  dsimp only
  rw [if_pos (by simp [sound, Session.busy, serves, room])]

/-- ABANDON of a session with nothing queued closes it. -/
theorem execAbandon_closes (h : VideoAdmitted s c (fun x => x.state ≠ 0)) (handoffs : (s.vsession (vKeyOf c)).handoffs = []) (decodes : (s.vsession (vKeyOf c)).decodes = []) :
    ∃ t, execAbandon c s = .next t ∧ t.vsession (vKeyOf c) = { vec := (s.vsession (vKeyOf c)).vec } ∧ t.seats = s.seats ∧ t.mem = s.mem := by
  have idle : (s.vsession (vKeyOf c)).busy = false := by simp [Session.busy, handoffs, decodes]
  rw [execAbandon_eq h]
  dsimp only
  rw [if_neg (by simp [idle]), State.shutSession_idle (by simpa [Session.abandoned] using decodes)]
  refine ⟨_, rfl, ?_, ?_, ?_⟩
  · rw [completes_keep (fun s => s.vsession (vKeyOf c)) (fun u t => State.vsession_congr (by simp) _)]
    simp [Session.abandoned]
  · rw [completes_keep State.seats (by simp)]
    simp [State.cmdTaken]
  · rw [completes_keep State.mem (by simp)]
    simp [State.cmdTaken]

/-! ## FORCE_KEY, RATE and MARK -/

section
variable (h : VideoAdmitted s c (fun x => x.state = 1 && encodes x.desc))
include h

theorem execForceKey_waits : execForceKey c s = .next ((s.setSession (vKeyOf c) { s.vsession (vKeyOf c) with forceKey := true }).cmdDone 0x50 c 0 0) := by
  rw [execForceKey, videoCommand_admitted h, complete_setSession]

/-- A constant rate within Table 11.4 waits for the next frame. -/
theorem execRate_waits (clean : argHigh c.arg1 52 = false) (constant : (s.vsession (vKeyOf c)).desc.rc = 0) (rate : bits c.arg1.toNat 0 22 ≤ 4000000) (qp : bits c.arg1.toNat 44 8 ≤ 51) :
    execRate c s = .next ((s.setSession (vKeyOf c) { s.vsession (vKeyOf c) with
      rate := some (bits c.arg1.toNat 0 22, bits c.arg1.toNat 22 22, bits c.arg1.toNat 44 8) }).cmdDone 0x50 c 0 0) := by
  have quality : ¬ (if hevc (s.vsession (vKeyOf c)).desc then 51 else 255) < bits c.arg1.toNat 44 8 := by split <;> omega
  rw [execRate, videoCommand_admitted h]
  dsimp only
  rw [if_neg (by simp [clean]), if_neg (by simp [constant, rate, quality]), complete_setSession]

/-- A rate above 4,000,000 kbit/s is BAD_DESC. -/
theorem execRate_badDesc (clean : argHigh c.arg1 52 = false) (rate : 4000000 < bits c.arg1.toNat 0 22) : execRate c s = .next (s.cmdDone 0x50 c 0x01 0) := by
  rw [execRate, videoCommand_admitted h, if_neg (by simp [clean]), if_pos (by simp [rate]), complete_taken]

end

section
variable (h : VideoAdmitted s c (fun x => x.state = 1 && x.desc.hostMark)) (high : argHigh c.arg1 10 = false) (gap : bits c.arg1.toNat 6 2 = 0)
include h high gap

/-- MARK to UNUSED or SHORT of a buffer of the range, not under reconstruction, marks it (R319). -/
theorem execPoolMark_marks (mark : bits c.arg1.toNat 8 2 < 2) (inRange : bits c.arg1.toNat 0 6 ∈ poolRange (s.vsession (vKeyOf c)).desc)
    (whole : (s.vsession (vKeyOf c)).recon ≠ some (bits c.arg1.toNat 0 6)) :
    execPoolMark c s = .next ((s.setEngine (vEngine c) ((s.engine (vEngine c)).setMark (bits c.arg1.toNat 0 6) (bits c.arg1.toNat 8 2))).cmdDone 0x50 c 0 0) := by
  rw [execPoolMark, videoCommand_admitted h]
  dsimp only
  rw [if_neg (by simp [high, gap]), if_neg (by simp [inRange]; omega), if_neg (by simp; omega), if_neg whole, State.engine_cmdTaken, complete_setEngine]

/-- MARK of a buffer outside the range is BAD_DESC. -/
theorem execPoolMark_badDesc (outside : bits c.arg1.toNat 0 6 ∉ poolRange (s.vsession (vKeyOf c)).desc) : execPoolMark c s = .next (s.cmdDone 0x50 c 0x01 0) := by
  rw [execPoolMark, videoCommand_admitted h]
  dsimp only
  rw [if_neg (by simp [high, gap]), if_pos (by simp [outside]), complete_taken]

end

/-! ## DECODE -/

section
variable (h : VideoAdmitted s c (fun x => x.state = 1 && !encodes x.desc)) (arg1 : c.arg1 = 0) (input : le c.payload 0 8 < 2 ^ 48) (output : le c.payload 0x10 8 < 2 ^ 48)
include h arg1 input output

theorem execDecodeCmd_joins (bytes : le c.payload 8 8 ≠ 0) (room : le c.payload 0x18 8 ≠ 0) :
    execDecodeCmd c s = .next ((s.cmdTaken c).setSession (vKeyOf c) { s.vsession (vKeyOf c) with
      decodes := (s.vsession (vKeyOf c)).decodes ++ [{ va := le c.payload 0 8, len := le c.payload 8 8, outVa := le c.payload 0x10 8, frames := le c.payload 0x18 8, tag := c.tag.toNat
                                                       ticket := ticketOf s 0x50 c, consumed := 0, written := 0 }] }) := by
  have narrow : ¬(le c.payload 0 8 / 2 ^ 48 ≠ 0 || le c.payload 0x10 8 / 2 ^ 48 ≠ 0) = true := by rw [Nat.div_eq_of_lt input, Nat.div_eq_of_lt output]; simp
  rw [execDecodeCmd, videoCommand_admitted h]
  dsimp only
  rw [if_neg (by simp [arg1]), if_neg narrow, if_neg bytes, if_neg room]

theorem execDecodeCmd_empty (bytes : le c.payload 8 8 = 0) : execDecodeCmd c s = .next (s.cmdDone 0x50 c 0 0) := by
  have narrow : ¬(le c.payload 0 8 / 2 ^ 48 ≠ 0 || le c.payload 0x10 8 / 2 ^ 48 ≠ 0) = true := by rw [Nat.div_eq_of_lt input, Nat.div_eq_of_lt output]; simp
  rw [execDecodeCmd, videoCommand_admitted h]
  dsimp only
  rw [if_neg (by simp [arg1]), if_neg narrow, if_pos bytes, complete_taken]

end

/-! ## BS_READ (R315, R551) -/

section
variable {fn e n off : Nat} (opened : (s.vsession (vkey e n)).state ≠ 0) (codes : encodes (s.vsession (vkey e n)).desc = true) (mine : s.acts fn (s.vsession (vkey e n)).account = true)
  (inRing : off < 2 ^ (s.vsession (vkey e n)).desc.bsLog)

/-- Bytes that a read offset written by the host frees. -/
def Session.freedBy (x : Session) (off : Nat) : Nat := (off + 2 ^ x.desc.bsLog - x.hostRead % 2 ^ x.desc.bsLog) % 2 ^ x.desc.bsLog

include opened codes mine inRing

theorem execBsRead_eq : execBsRead fn e n off s = .next (
    let x := s.vsession (vkey e n)
    if x.written - x.hostRead < x.freedBy off then s
    else s.setSession (vkey e n) { x with hostRead := x.hostRead + x.freedBy off, full := x.stillFull (x.hostRead + x.freedBy off) }) := by
  simp only [execBsRead, opened, codes, mine, Nat.not_le.mpr inRing, decide_false, Bool.not_true, Bool.false_or, decide_eq_true_eq]
  rfl

end

end Sys2Proof.Machine

namespace Sys2Proof.Proofs
open Sys2Proof Sys2Proof.Machine

/-- Settles O13: once admitted, OPEN answers by the first of its checks that fails, and the session it opens is the descriptor's. -/
theorem videoOpens : Obligations.VideoOpens := by
  unfold Obligations.VideoOpens
  intro c s admitted args arg1 arg2
  have h : OpenAdmitted s c := ⟨admitted, args, arg1, arg2⟩
  refine ⟨fun bad => ?_, fun legal opened => ?_, fun legal closed picture buffers apart mine large => ?_⟩
  · exact (execOpenSession_eq h).trans (congrArg Host.Outcome.next (if_pos bad))
  · exact (execOpenSession_eq h).trans (congrArg Host.Outcome.next ((if_neg (by simp [legal])).trans (if_pos opened)))
  · have answer := execOpenSession_openable h ⟨legal, closed, picture, buffers, apart, mine, large⟩
    refine ⟨fun off => answer.trans (congrArg Host.Outcome.next (if_pos ?_)), fun enabled ready => answer.trans (congrArg Host.Outcome.next (if_neg ?_))⟩
    · simpa using off
    · simp [enabled, ready]

/-- Settles O14: each command by its session's state and by what of it is queued. -/
theorem videoCloses : Obligations.VideoCloses := by
  unfold Obligations.VideoCloses
  refine ⟨fun c s h => execCloseSession_drains h, fun e n k s draining handoffs decodes closing session => execSessionDrained_closes draining handoffs decodes closing session,
    fun c s h => ⟨fun sound serves room => execAbandon_waits h sound serves room, fun handoffs decodes => execAbandon_closes h handoffs decodes⟩, fun c s admitted args arg2 closed => ⟨?_, ?_⟩⟩
  · exact congrArg Host.Outcome.next (videoCommand_badState admitted args arg2 (by simp [closed]) _)
  · exact congrArg Host.Outcome.next (videoCommand_badState admitted args arg2 (by simp [closed]) _)

/-- Settles O15: each command by its checks; of a pool entry that is written, ConfigurationWrites gives the state. -/
theorem videoCommands : Obligations.VideoCommands := by
  unfold Obligations.VideoCommands
  refine ⟨⟨?encode, ?mark, ?decode⟩, ?read, ?pool⟩
  case encode =>
    exact fun c s h => ⟨execForceKey_waits h, fun clean constant rate qp => execRate_waits h clean constant rate qp, fun clean rate => execRate_badDesc h clean rate⟩
  case mark =>
    exact fun c s h high gap => ⟨fun mark inRange whole => execPoolMark_marks h high gap mark inRange whole, fun outside => execPoolMark_badDesc h high gap outside⟩
  case decode =>
    exact fun c s h arg1 input output => ⟨fun bytes room => execDecodeCmd_joins h arg1 input output bytes room, fun bytes => execDecodeCmd_empty h arg1 input output bytes⟩
  case read =>
    intro fn e n off s x opened codes mine inRing add
    have answer := execBsRead_eq (e := e) (n := n) opened codes mine inRing
    exact ⟨fun _ fits => answer.trans (congrArg Host.Outcome.next (if_neg (Nat.not_lt.mpr fits))), fun past => answer.trans (congrArg Host.Outcome.next (if_pos past))⟩
  case pool =>
    intro p e b v s opened engine entry length narrow aligned clean mark free
    refine ⟨_, configurationWrites.1 p e b v s opened engine entry length narrow aligned clean mark free, ?_⟩
    have pool : ∀ x : Engine, (State.wroteOk (s.setEngine e x)).engine e = x := fun x => State.engine_setEngine_same s e x
    refine ⟨?_, ?_, ?_, fun c other => ?_, fun f other => State.engine_setEngine_other s _ other, rfl, rfl, rfl, rfl⟩
    · simp [pool, Engine.entry]
    · simp [pool, Engine.entry]
    · simp [pool, Engine.entry]
    · simp [pool, Engine.entry, aget_aset_other c b _ _ other]

end Sys2Proof.Proofs
end

section
/-!
Lemmas on the work of the video engines (R304, R313 to R316, R322 to R324, R327, R328): what a fault of a session leaves, what an engine's reads and writes leave alone, and where a slice and a decoded frame go.
-/
namespace Sys2Proof.Machine

variable {s t u : State} {e k n : Nat}

/-! ## What an engine's reads and writes leave alone -/

/-- The state without memory and what an access to it meets on its way. -/
def State.aside (s : State) : State := { s with coh := {}, kitty := {}, mem := {} }

theorem State.aside_of_still (same : u.still = s.still) : u.aside = s.aside := (congrArg State.aside same :)

/-- What is kept beside memory, part by part. -/
theorem State.of_aside (same : u.aside = s.aside) : u.video = s.video ∧ u.seats = s.seats ∧ u.dealer = s.dealer ∧ u.log = s.log :=
  ⟨(congrArg State.video same :), (congrArg State.seats same :), (congrArg State.dealer same :), (congrArg State.log same :)⟩

theorem State.vRead_still (ctx : Nat) (l : List Nat) (s : State) : (State.vRead ctx l s).2.still = s.still := by
  induction l generalizing s with
  | nil => rfl
  | cons va l ih =>
    have walked := translateFor_still s ctx va false
    unfold State.vRead
    split <;> rename_i found <;> rw [found] at walked
    · exact walked
    · split
      · exact walked
      · have rest := ih (s := by assumption)
        split <;> rename_i read <;> rw [read] at rest
        · exact rest.trans walked
        · split <;> exact rest.trans walked

theorem State.vWrite_aside (ctx : Nat) (at' : Nat → Nat) (b : Bytes) : ∀ (i : Nat) (s : State), (State.vWrite ctx at' i b s).2.aside = s.aside := by
  induction b with
  | nil => exact fun i s => rfl
  | cons x b ih =>
    intro i s
    have walked := State.aside_of_still (translateFor_still s ctx (at' i) true)
    unfold State.vWrite
    split <;> rename_i found <;> rw [found] at walked
    · exact walked
    · split
      · exact (ih _ _).trans walked
      · exact walked

theorem State.stateTouched_still (s : State) (x : Session) : (s.stateTouched x).2.still = s.still := by
  have read := State.vRead_still x.account [x.desc.stateVa] s
  unfold State.stateTouched
  split <;> rename_i found <;> rw [found] at read
  · exact read
  · have walked := translateFor_still (by assumption) x.account x.desc.stateVa true
    split <;> rename_i reached <;> rw [reached] at walked <;> exact walked.trans read

/-- The same of what each of them was found to answer. -/
theorem State.vRead_from {ctx : Nat} {l : List Nat} {x : Except Nat (Bytes × Bool)} (found : State.vRead ctx l s = (x, u)) : u.still = s.still := by
  simpa [found] using State.vRead_still ctx l s

theorem State.vWrite_from {ctx i : Nat} {at' : Nat → Nat} {b : Bytes} {x : Option Nat} (found : State.vWrite ctx at' i b s = (x, u)) : u.aside = s.aside := by
  simpa [found] using State.vWrite_aside ctx at' b i s

theorem State.stateTouched_from {y : Session} {x : Option Nat} (found : s.stateTouched y = (x, u)) : u.still = s.still := by
  simpa [found] using s.stateTouched_still y

theorem State.vsession_of_touched {y : Session} {x : Option Nat} (found : s.stateTouched y = (x, u)) (k : Nat) : u.vsession k = s.vsession k :=
  State.vsession_congr (congrArg State.video (State.stateTouched_from found) :) k

/-! ## A session's fault (R327) -/

/-- What a fault of a session is told by: the video part, seats, memory and the deal clock. -/
structure Engines where
  video : Video
  seats : List (Nat × Seat)
  mem : Memory
  cad : Cad

def State.engines (s : State) : Engines := { video := s.video, seats := s.seats, mem := s.mem, cad := s.cad }

@[simp] theorem State.complete_engines (s : State) (t : Ticket) (a : Nat) : (s.complete t a).engines = s.engines := by simp [State.engines]

@[simp] theorem State.completeWith_engines (s : State) (t : Ticket) (a b : Nat) : (s.completeWith t a b).engines = s.engines := by simp [State.engines]

@[simp] theorem State.videoEvent_engines (s : State) (k detail frame tag : Nat) : (s.videoEvent k detail frame tag).engines = s.engines := by simp [State.videoEvent, State.engines]

@[simp] theorem State.securityFor_engines (s : State) (acct : Option Nat) (d subject place w2 w3 : Nat) : (s.securityFor acct d subject place w2 w3).engines = s.engines := by
  simp [State.securityFor, State.engines]

theorem State.vsession_of_engines (same : t.engines = s.engines) (k : Nat) : t.vsession k = s.vsession k := s.vsession_congr (congrArg Engines.video same) k

theorem State.engine_of_engines (same : t.engines = s.engines) (e : Nat) : t.engine e = s.engine e := s.engine_congr (congrArg Engines.video same) e

/-- A session written in two states that agree leaves them agreeing; so does an engine. -/
theorem State.setSession_engines (same : t.engines = s.engines) (k : Nat) (x : Session) : (t.setSession k x).engines = (s.setSession k x).engines := by
  simp only [State.engines, State.setSession, Engines.mk.injEq] at same ⊢
  obtain ⟨video, seats, mem, cad⟩ := same
  exact ⟨by rw [video], seats, mem, cad⟩

theorem State.setEngine_engines (same : t.engines = s.engines) (e : Nat) (x : Engine) : (t.setEngine e x).engines = (s.setEngine e x).engines := by
  simp only [State.engines, State.setEngine, Engines.mk.injEq] at same ⊢
  obtain ⟨video, seats, mem, cad⟩ := same
  exact ⟨by rw [video], seats, mem, cad⟩

/-- A closed session keeps its vector alone, and its pool buffers are UNUSED. -/
def State.shut (s : State) (k : Nat) : State :=
  (s.setSession k { vec := (s.vsession k).vec }).setEngine (k / 64) ((s.engine (k / 64)).freeRange (s.vsession k).desc.poolFirst (s.vsession k).desc.poolCount 0)

theorem State.shutSession_engines (s : State) (k : Nat) : (s.shutSession k).engines = (s.shut k).engines := by
  have told := foldl_keeps State.engines (fun s (r : DecodeRun) => s.completeWith_engines r.ticket 0x02 r.consumed) (s.vsession k).decodes s
  unfold State.shutSession
  refine (foldl_keeps State.engines (fun s t => s.complete_engines t 0) _ _).trans ?_
  rw [State.shut, ← State.engine_of_engines told (k / 64), State.setEngine_engines (State.setSession_engines told _ _)]

/-- A session that faults: its hand-offs released, its DECODEs ended, the code kept. -/
def Session.faulted (x : Session) (detail : Nat) : Session :=
  { x with state := if x.state = 2 then 2 else 3, handoffs := [], decodes := [], recon := none, waiting := none, full := false, fault := detail }

/-- A fault writes its session; one that an ABANDON waits for is closed as well. -/
theorem State.faultSession_engines (s : State) (k detail tag : Nat) :
    (s.faultSession k detail tag).engines = (if (s.vsession k).abandon then (s.setSession k ((s.vsession k).faulted detail)).shut k else s.setSession k ((s.vsession k).faulted detail)).engines := by
  unfold State.faultSession
  dsimp only
  generalize told : List.foldl (fun (s : State) (r : DecodeRun) => s.completeWith r.ticket 0x02 r.consumed) _ (s.vsession k).decodes = v
  have kept : v.engines = s.engines := by
    rw [← told, foldl_keeps State.engines fun s (r : DecodeRun) => s.completeWith_engines r.ticket 0x02 r.consumed]
    split <;> simp
  have written := State.setSession_engines kept k ((s.vsession k).faulted detail)
  rw [State.vsession_of_engines kept]
  split
  · rw [State.shutSession_engines, State.shut, State.shut, ← Session.faulted, State.vsession_setSession_same, State.vsession_setSession_same, State.engine_setSession, State.engine_setSession,
      State.engine_of_engines kept]
    exact State.setEngine_engines (State.setSession_engines written _ _) _ _
  · exact written

theorem State.vsession_shut_other (s : State) {j k : Nat} (other : j ≠ k) : (s.shut k).vsession j = s.vsession j := State.vsession_setSession_other s _ other

/-- A fault of one session leaves every other session as it was. -/
theorem State.vsession_faultSession_other (s : State) {j k : Nat} (detail tag : Nat) (other : j ≠ k) : (s.faultSession k detail tag).vsession j = s.vsession j := by
  rw [State.vsession_of_engines (s.faultSession_engines k detail tag)]
  split
  · rw [State.vsession_shut_other _ other, State.vsession_setSession_other _ _ other]
  · exact State.vsession_setSession_other _ _ other

theorem State.vsession_faultSession_same (s : State) (k detail tag : Nat) (kept : (s.vsession k).abandon = false) :
    (s.faultSession k detail tag).vsession k = (s.vsession k).faulted detail := by
  rw [State.vsession_of_engines (s.faultSession_engines k detail tag), kept]
  simp

/-- A fault changes no seat, no memory and nothing of the deal clock. -/
theorem State.faultSession_frame (s : State) (k detail tag : Nat) :
    (s.faultSession k detail tag).seats = s.seats ∧ (s.faultSession k detail tag).mem = s.mem ∧ (s.faultSession k detail tag).cad = s.cad := by
  have same := s.faultSession_engines k detail tag
  refine ⟨(congrArg Engines.seats same).trans ?_, (congrArg Engines.mem same).trans ?_, (congrArg Engines.cad same).trans ?_⟩ <;> split <;> rfl

/-! ## Engine defects (R328) -/

/-- An engine but for the marks of its pool. -/
def Engine.unmarked (x : Engine) : Engine := { x with pool := [] }

/-- A fault of a session may free pool buffers of its engine, and touches no other engine. -/
theorem State.engine_faultSession (s : State) (k detail tag : Nat) :
    ((s.faultSession k detail tag).engine (k / 64)).unmarked = (s.engine (k / 64)).unmarked ∧ ∀ d, d ≠ k / 64 → (s.faultSession k detail tag).engine d = s.engine d := by
  have same := s.faultSession_engines k detail tag
  constructor
  · rw [State.engine_of_engines same]
    split
    · rw [State.shut, State.engine_setEngine_same]; rfl
    · rfl
  · intro d other
    rw [State.engine_of_engines same]
    split
    · exact State.engine_setEngine_other _ _ other
    · rfl

/-- The sessions of an engine fault, one after the other. -/
def State.faultAll (s : State) (e : Nat) (l : List Nat) : State := l.foldl (fun s n => s.faultSession (vkey e n) 0x69 0) s

theorem State.faultAll_frame (e : Nat) (l : List Nat) (s : State) :
    (s.faultAll e l).seats = s.seats ∧ (s.faultAll e l).mem = s.mem ∧ (s.faultAll e l).cad = s.cad :=
  ⟨foldl_keeps State.seats (fun s _ => (s.faultSession_frame _ _ _).1) l s, foldl_keeps State.mem (fun s _ => (s.faultSession_frame _ _ _).2.1) l s,
    foldl_keeps State.cad (fun s _ => (s.faultSession_frame _ _ _).2.2) l s⟩

theorem State.engine_faultAll (e : Nat) {l : List Nat} (numbers : ∀ n ∈ l, n < 64) (s : State) :
    ((s.faultAll e l).engine e).unmarked = (s.engine e).unmarked ∧ ∀ d, d ≠ e → (s.faultAll e l).engine d = s.engine d := by
  induction l generalizing s with
  | nil => exact ⟨rfl, fun d other => rfl⟩
  | cons n l ih =>
    obtain ⟨one, others⟩ := s.engine_faultSession (vkey e n) 0x69 0
    rw [vkey_div e (numbers n (by simp))] at one others
    obtain ⟨all, rest⟩ := ih (fun m inTail => numbers m (by simp [inTail])) (s.faultSession (vkey e n) 0x69 0)
    exact ⟨all.trans one, fun d other => (rest d other).trans (others d other)⟩

theorem State.vsession_faultAll_other (e : Nat) {l : List Nat} {n : Nat} (apart : n ∉ l) (s : State) : (s.faultAll e l).vsession (vkey e n) = s.vsession (vkey e n) := by
  induction l generalizing s with
  | nil => rfl
  | cons m l ih =>
    simp only [List.mem_cons, not_or] at apart
    exact (ih apart.2 _).trans (State.vsession_faultSession_other _ _ _ fun same => apart.1 (vkey_inj same))

/-- A session of the list that no ABANDON waits for ends FAULTED. -/
theorem State.vsession_faultAll_same (e : Nat) {l : List Nat} (distinct : l.Nodup) {n : Nat} (listed : n ∈ l) (s : State) (kept : (s.vsession (vkey e n)).abandon = false) :
    (s.faultAll e l).vsession (vkey e n) = (s.vsession (vkey e n)).faulted 0x69 := by
  induction l generalizing s with
  | nil => simp at listed
  | cons m l ih =>
    obtain ⟨fresh, distinct⟩ := List.nodup_cons.mp distinct
    obtain rfl | inTail := List.mem_cons.mp listed
    · exact (State.vsession_faultAll_other e fresh _).trans (State.vsession_faultSession_same s _ _ _ kept)
    · have other : vkey e n ≠ vkey e m := fun same => fresh (vkey_inj same ▸ inTail)
      have before := s.vsession_faultSession_other 0x69 0 other
      rw [State.faultAll, List.foldl_cons, ← State.faultAll, ih distinct inTail _ (by rw [before, kept]), before]

/-- The sessions of an engine that a defect faults. -/
def State.liveSessions (s : State) (e : Nat) : List Nat := (List.range 64).filter (fun n => (s.vsession (vkey e n)).state = 1 || (s.vsession (vkey e n)).state = 2)

theorem execEngineDefect_eq (s : State) (e : Nat) :
    execEngineDefect e s = .next ((s.faultAll e (s.liveSessions e)).setEngine e
      { (s.faultAll e (s.liveSessions e)).engine e with
        defects := ((s.faultAll e (s.liveSessions e)).engine e).defects + 1, resetting := true
        disabled := ((s.faultAll e (s.liveSessions e)).engine e).disabled || 4 ≤ ((s.faultAll e (s.liveSessions e)).engine e).defects + 1 }) := rfl

theorem execEngineResetDone_ready (resets : (s.engine e).resetting = true) : execEngineResetDone e s = .next (s.setEngine e { s.engine e with resetting := false }) := by
  rw [execEngineResetDone, if_pos resets]

/-! ## The reads and the record of an engine's work -/

/-- A record is written where its bytes are, and only then is SEQ moved on; a raised vector is the host interface's. -/
theorem State.writeRecord_cases (s : State) (k deal frame slice flags offset n tag : Nat) :
    (∃ c v, s.writeRecord k deal frame slice flags offset n tag = (some c, v) ∧ v.aside = s.aside)
    ∨ (∃ w, s.writeRecord k deal frame slice flags offset n tag = (none, w) ∧ w.seats = s.seats ∧ w.dealer = s.dealer
        ∧ w.video = (s.setSession k { s.vsession k with seq := ((s.vsession k).seq + 1) % 2 ^ 32 }).video) := by
  unfold State.writeRecord
  dsimp only
  split
  next c v found =>
    exact .inl ⟨c, v, rfl, State.vWrite_from found⟩
  next v found =>
    obtain ⟨video, seats, dealer, -⟩ := State.of_aside (State.vWrite_from found)
    have same : v.vsession k = s.vsession k := s.vsession_congr video k
    have written : (v.setSession k { v.vsession k with seq := ((s.vsession k).seq + 1) % 2 ^ 32 }).video = (s.setSession k { s.vsession k with seq := ((s.vsession k).seq + 1) % 2 ^ 32 }).video := by
      rw [same, State.setSession, State.setSession, video]
    refine .inr ⟨_, rfl, ?_⟩
    split
    · exact ⟨seats, dealer, written⟩
    · exact ⟨seats, dealer, written⟩

/-- A session that no ABANDON waits for goes on after its slice or frame. -/
theorem State.afterSlice_kept (kept : (s.vsession k).abandon = false) : s.afterSlice k = s := by simp [State.afterSlice, kept]

/-- A fault at the end of a slice or frame of a session that no ABANDON waits for. -/
theorem State.afterSlice_faultSession (detail tag : Nat) (kept : (s.vsession k).abandon = false) : (s.faultSession k detail tag).afterSlice k = s.faultSession k detail tag :=
  State.afterSlice_kept (by rw [s.vsession_faultSession_same k detail tag kept]; exact kept)

/-! ## Slices (R304, R313 to R316) -/

/-- The part of the state that a slice of session `k` starts from: the session, and the seats, the Dealer, the bytes of HBM and the log of `s`. -/
structure SliceFrom (s u : State) (k : Nat) (y : Session) : Prop where
  session : u.vsession k = y
  kept : y.abandon = false
  seats : u.seats = s.seats
  dealer : u.dealer = s.dealer
  bytes : u.mem.bytes = s.mem.bytes
  log : u.log = s.log

section
variable {h : Handoff} {rest : List Handoff} {out : SliceOut} {b : Bytes}

/-- A slice that waited for room is emitted as it was coded (R315). -/
theorem execSliceDone_waiting (served : SliceServed s e n h rest) (waits : (s.vsession (vkey e n)).waiting = some b) :
    execSliceDone e out s = .next (((s.serving e n).emitSlice e n h rest b).afterSlice (vkey e n)) := by
  obtain ⟨ready, next, head, -⟩ := served
  unfold execSliceDone
  rw [if_neg (by simp [ready]), next]
  dsimp only
  rw [State.vsession_setEngine, head]
  dsimp only
  rw [waits]
  rfl

/-- A slice of the frame under way is coded. -/
theorem execSliceDone_codes (served : SliceServed s e n h rest) (fresh : (s.vsession (vkey e n)).waiting = none) (underWay : (s.vsession (vkey e n)).recon.isSome = true) :
    execSliceDone e out s = .next (((s.serving e n).codeSlice e n h rest out.refs).afterSlice (vkey e n)) := by
  obtain ⟨ready, next, head, -⟩ := served
  have begun : (s.serving e n).beginFrame e n = some (s.serving e n) := by
    rw [State.beginFrame, State.serving, State.vsession_setEngine, if_pos underWay]
  unfold execSliceDone
  rw [if_neg (by simp [ready]), next]
  dsimp only
  rw [State.vsession_setEngine, head]
  dsimp only
  rw [fresh]
  dsimp only
  rw [← State.serving, begun]

/-- A slice read without fault or poison is emitted as the bytes R313 gives. -/
theorem State.codeSlice_emits {src : Bytes} {v : State} (read : SliceRead s e n h out src v) :
    (s.serving e n).codeSlice e n h rest out.refs = State.emitSlice (v.setSession (vkey e n) ((s.vsession (vkey e n)).addSlice (getSamples (s.vsession (vkey e n)).desc src)))
      e n h rest ((s.vsession (vkey e n)).addSlice (getSamples (s.vsession (vkey e n)).desc src)).sliceBits := by
  obtain ⟨-, -, a, b, ref, touched, rows, refs⟩ := read
  unfold State.codeSlice
  dsimp only
  rw [State.serving, State.vsession_setEngine, ← State.serving, touched]
  dsimp only
  rw [rows]
  dsimp only
  rw [if_neg Bool.false_ne_true, refs]

theorem SliceRead.still {src : Bytes} {v : State} (read : SliceRead s e n h out src v) : v.still = (s.serving e n).still := by
  obtain ⟨-, -, a, b, ref, touched, rows, refs⟩ := read
  exact (State.vRead_from refs).trans ((State.vRead_from rows).trans (State.stateTouched_from touched))

theorem State.writeRecord_from {deal frame slice flags offset n tag c : Nat} (failed : s.writeRecord k deal frame slice flags offset n tag = (some c, u)) : u.aside = s.aside := by
  obtain ⟨d, v, found, kept⟩ | ⟨v, found, -⟩ := s.writeRecord_cases k deal frame slice flags offset n tag
  · cases found.symm.trans failed
    exact kept
  · cases found.symm.trans failed

/-- What an engine answers for a slice is what it emits, the slice coded now or waiting since. -/
theorem execSliceDone_emits {y : Session} (served : SliceServed s e n h rest)
    (slice : (s.vsession (vkey e n)).waiting = some b ∧ y = s.vsession (vkey e n) ∧ u = s.serving e n
      ∨ ∃ src v, SliceRead s e n h out src v ∧ y = (s.vsession (vkey e n)).addSlice (getSamples (s.vsession (vkey e n)).desc src) ∧ b = y.sliceBits ∧ u = v.setSession (vkey e n) y) :
    execSliceDone e out s = .next ((u.emitSlice e n h rest b).afterSlice (vkey e n)) ∧ SliceFrom s u (vkey e n) y := by
  obtain ⟨waits, rfl, rfl⟩ | ⟨src, v, read, rfl, rfl, rfl⟩ := slice
  · exact ⟨execSliceDone_waiting served waits, s.vsession_setEngine e _ _, served.kept, rfl, rfl, rfl, rfl⟩
  · obtain ⟨bytes, seats, dealer, -⟩ := State.of_still read.still
    have log : v.log = s.log := (congrArg State.log read.still :)
    refine ⟨by rw [execSliceDone_codes served read.fresh read.underWay, State.codeSlice_emits read], State.vsession_setSession_same _ _ _, ?_, seats, dealer, bytes, log⟩
    have kept := served.kept
    unfold Session.addSlice
    split <;> exact kept

end

section
variable {h : Handoff} {rest : List Handoff} {y : Session} {b : Bytes} (start : SliceFrom s u (vkey e n) y)
include start

/-- A fault met while a slice is emitted takes the session to FAULTED with its code. -/
theorem SliceFrom.faults {v : State} (c : Nat) (kept : v.aside = u.aside) :
    (((v.faultSession (vkey e n) c h.tag).afterSlice (vkey e n)).vsession (vkey e n)) = y.faulted c
      ∧ ((v.faultSession (vkey e n) c h.tag).afterSlice (vkey e n)).seats = s.seats := by
  obtain ⟨video, seats, -, -⟩ := State.of_aside kept
  have session : v.vsession (vkey e n) = y := (State.vsession_congr video _).trans start.session
  rw [State.afterSlice_faultSession _ _ (by rw [session]; exact start.kept), State.vsession_faultSession_same _ _ _ _ (by rw [session]; exact start.kept), session]
  exact ⟨rfl, (v.faultSession_frame _ _ _).1.trans (seats.trans start.seats)⟩

/-- A slice that does not fit the free space makes the session wait with it, with one event (R315). -/
theorem SliceFrom.waits (whole : b.length ≤ 2 ^ y.desc.bsLog) (full : 2 ^ y.desc.bsLog < (y.written - y.hostRead) + b.length) :
    ((u.emitSlice e n h rest b).afterSlice (vkey e n)).vsession (vkey e n) = { y with full := true, waiting := some b }
      ∧ ((u.emitSlice e n h rest b).afterSlice (vkey e n)).mem.bytes = s.mem.bytes ∧ ((u.emitSlice e n h rest b).afterSlice (vkey e n)).log.seq ≠ s.log.seq := by
  have emits : u.emitSlice e n h rest b = (u.videoEvent (vkey e n) 0x60 y.frame h.tag).setSession (vkey e n) { y with full := true, waiting := some b } := by
    simp only [State.emitSlice, start.session, if_neg (Nat.not_lt.mpr whole), if_pos full]
  rw [emits, State.afterSlice_kept (by rw [State.vsession_setSession_same]; exact start.kept)]
  refine ⟨State.vsession_setSession_same _ _ _, ?_, ?_⟩
  · rw [← start.bytes]
    simp [State.videoEvent]
  · rw [← start.log]
    simp only [State.setSession_frame, State.videoEvent, State.post_log, State.logAppend_seq]
    split
    next last => rw [last]; decide
    next => simp

section
variable (whole : b.length ≤ 2 ^ y.desc.bsLog) (fits : (y.written - y.hostRead) + b.length ≤ 2 ^ y.desc.bsLog)
include whole fits

/-- A fault of the ring's bytes. -/
theorem SliceFrom.ringFaults {v : State} {c : Nat} (ring : State.vWrite y.account (fun i => y.desc.bsBase + (y.written + i) % 2 ^ y.desc.bsLog) 0 b u = (some c, v)) :
    u.emitSlice e n h rest b = v.faultSession (vkey e n) c h.tag := by
  simp only [State.emitSlice, start.session, if_neg (Nat.not_lt.mpr whole), if_neg (Nat.not_lt.mpr fits), ring]

variable (notLast : y.slice + 1 ≠ frameSlices y.desc) {v : State}
  (ring : State.vWrite y.account (fun i => y.desc.bsBase + (y.written + i) % 2 ^ y.desc.bsLog) 0 b u = (none, v))
include notLast ring

/-- A fault of the slice's record. -/
theorem SliceFrom.recordFaults {w : State} {c : Nat}
    (told : v.writeRecord (vkey e n) h.deal y.frame y.slice (boolNat (y.slice = 0) + 4 * boolNat y.key + 16 * boolNat y.restarted) (y.written % 2 ^ y.desc.bsLog) b.length h.tag = (some c, w)) :
    u.emitSlice e n h rest b = w.faultSession (vkey e n) c h.tag := by
  have flags : boolNat (y.slice = 0) + 2 * boolNat (y.slice + 1 = frameSlices y.desc) + 4 * boolNat y.key + 8 * boolNat (y.slice + 1 = frameSlices y.desc && h.read + 1 = y.frames)
      + 16 * boolNat y.restarted = boolNat (y.slice = 0) + 4 * boolNat y.key + 16 * boolNat y.restarted := by simp [notLast, boolNat]
  simp only [State.emitSlice, start.session, if_neg (Nat.not_lt.mpr whole), if_neg (Nat.not_lt.mpr fits), ring, flags, told]

/-- A slice that fits and is not its frame's last, where its bytes and its record are written: SEQ, the write offset and the slice number move on (R315, R316). -/
theorem SliceFrom.written {w : State}
    (told : v.writeRecord (vkey e n) h.deal y.frame y.slice (boolNat (y.slice = 0) + 4 * boolNat y.key + 16 * boolNat y.restarted) (y.written % 2 ^ y.desc.bsLog) b.length h.tag = (none, w)) :
    ∃ t, (u.emitSlice e n h rest b).afterSlice (vkey e n) = t
      ∧ t.vsession (vkey e n) = { y with seq := (y.seq + 1) % 2 ^ 32, written := y.written + b.length, slice := y.slice + 1, waiting := none }
      ∧ t.mem.bytes = w.mem.bytes ∧ t.seats = s.seats ∧ t.dealer = s.dealer := by
  have flags : boolNat (y.slice = 0) + 2 * boolNat (y.slice + 1 = frameSlices y.desc) + 4 * boolNat y.key + 8 * boolNat (y.slice + 1 = frameSlices y.desc && h.read + 1 = y.frames)
      + 16 * boolNat y.restarted = boolNat (y.slice = 0) + 4 * boolNat y.key + 16 * boolNat y.restarted := by simp [notLast, boolNat]
  obtain ⟨video, seats, dealer, -⟩ := State.of_aside (State.vWrite_from ring)
  have before : v.vsession (vkey e n) = y := (State.vsession_congr video _).trans start.session
  obtain ⟨c, x, failed, -⟩ | ⟨x, done, wSeats, wDealer, wVideo⟩ := v.writeRecord_cases (vkey e n) h.deal y.frame y.slice
      (boolNat (y.slice = 0) + 4 * boolNat y.key + 16 * boolNat y.restarted) (y.written % 2 ^ y.desc.bsLog) b.length h.tag
  · cases failed.symm.trans told
  cases done.symm.trans told
  have session : w.vsession (vkey e n) = { y with seq := (y.seq + 1) % 2 ^ 32 } := by
    rw [State.vsession_congr wVideo, State.vsession_setSession_same, before]
  refine ⟨_, rfl, ?_⟩
  simp only [State.emitSlice, start.session, if_neg (Nat.not_lt.mpr whole), if_neg (Nat.not_lt.mpr fits), ring, flags, told, if_neg notLast, session]
  rw [State.afterSlice_kept]
  · split
    · exact ⟨State.vsession_setSession_same _ _ _, rfl, wSeats.trans (seats.trans start.seats), wDealer.trans (dealer.trans start.dealer)⟩
    · exact ⟨State.vsession_setSession_same _ _ _, rfl, wSeats.trans (seats.trans start.seats), wDealer.trans (dealer.trans start.dealer)⟩
  · split <;> exact (congrArg Session.abandon (State.vsession_setSession_same _ _ _)).trans start.kept

end

end

/-! ## Decoded frames (R304, R322 to R324) -/

section
variable {r : DecodeRun} {rest : List DecodeRun} {p : Picture}

/-- The head command of an OPEN session has a frame that Table 11.3 does not refuse and that is not skipped. -/
structure FrameServed (s : State) (e k : Nat) (r : DecodeRun) (rest : List DecodeRun) (p : Picture) : Prop where
  head : (s.vsession k).decodes = r :: rest
  opened : (s.vsession k).state = 1
  kept : (s.vsession k).abandon = false
  ready : (s.engine e).resetting = false
  awake : s.power.phase = 0
  legal : picRefused (s.vsession k).desc p = false
  shown : (s.vsession k).skipping = false ∨ p.key = true

/-- The frame's place in the output area. -/
def State.frameVa (s : State) (k : Nat) (r : DecodeRun) : Nat := r.outVa + r.written * (s.vsession k).frameStride

theorem FrameServed.shows (served : FrameServed s e k r rest p) : (!(s.vsession k).skipping || p.key) = true := by
  obtain shown | key := served.shown <;> simp [*]

/-- A frame for a guarded page waits, and is counted once (R324). -/
theorem execDecodeFrameDone_guarded (served : FrameServed s e (vkey e n) r rest p)
    (guarded : s.outGuarded (s.vsession (vkey e n)).account (s.frameVa (vkey e n) r) (frameSize (s.vsession (vkey e n)).desc) = true) :
    execDecodeFrameDone e n (.frame p) s = .next (if r.waiting then s
      else State.setSession { s with video := { s.video with held := s.video.held + 1 } } (vkey e n) { s.vsession (vkey e n) with decodes := { r with waiting := true } :: rest }) := by
  have guardedHere : ((!(s.vsession (vkey e n)).skipping || p.key)
      && s.outGuarded (s.vsession (vkey e n)).account (r.outVa + r.written * (s.vsession (vkey e n)).frameStride) (frameSize (s.vsession (vkey e n)).desc)) = true := by
    rw [served.shows]; exact guarded
  unfold execDecodeFrameDone
  dsimp only
  rw [served.head]
  dsimp only
  rw [if_neg (by simp [served.opened, served.ready, served.awake]), if_neg (by simp [served.legal]), if_pos guardedHere]

/-- A frame for a page that is not guarded, whose state and stream are read without fault, is decoded. -/
theorem execDecodeFrameDone_decodes {a b : State} (served : FrameServed s e (vkey e n) r rest p)
    (free : s.outGuarded (s.vsession (vkey e n)).account (s.frameVa (vkey e n) r) (frameSize (s.vsession (vkey e n)).desc) = false)
    (touched : s.stateTouched (s.vsession (vkey e n)) = (none, a)) (read : a.takeStream (vkey e n) r p.consumed = (none, b)) :
    execDecodeFrameDone e n (.frame p) s = .next (b.decodeFrame e (vkey e n) r rest p) := by
  have freeHere : ¬((!(s.vsession (vkey e n)).skipping || p.key)
      && s.outGuarded (s.vsession (vkey e n)).account (r.outVa + r.written * (s.vsession (vkey e n)).frameStride) (frameSize (s.vsession (vkey e n)).desc)) = true := by
    rw [← State.frameVa, free]; simp
  unfold execDecodeFrameDone
  dsimp only
  rw [served.head]
  dsimp only
  rw [if_neg (by simp [served.opened, served.ready, served.awake]), if_neg (by simp [served.legal]), if_neg freeHere, touched]
  dsimp only
  rw [read]

/-- What is read of the bitstream joins the decoder's stream, and nothing else of the session changes. -/
theorem State.takeStream_from {n : Nat} (read : s.takeStream k r n = (none, u)) :
    ∃ stream, u.vsession k = { s.vsession k with stream } ∧ u.seats = s.seats ∧ ∀ e, u.engine e = s.engine e := by
  unfold State.takeStream at read
  dsimp only at read
  split at read
  next => cases read
  next l _ v found =>
    cases read
    have still := State.vRead_from found
    have video : v.video = s.video := (congrArg State.video still :)
    refine ⟨(s.vsession k).stream ++ l, ?_, (congrArg State.seats still :), fun e => State.engine_congr video e⟩
    rw [State.vsession_setSession_same, State.vsession_congr video]

/-- The head command after its frame: gone at its end or its capacity, else going on (R322). -/
theorem State.decodeOn_frame (u : State) (k : Nat) (r : DecodeRun) (rest : List DecodeRun) (last : Bool) :
    (u.decodeOn k r rest last).vsession k = { u.vsession k with decodes := if last = true ∨ r.len ≤ r.consumed ∨ r.frames ≤ r.written then rest else r :: rest }
      ∧ (u.decodeOn k r rest last).mem = u.mem ∧ (u.decodeOn k r rest last).seats = u.seats ∧ ∀ e, (u.decodeOn k r rest last).engine e = u.engine e := by
  have ended : ∀ status, (u.endDecode k r rest status).vsession k = { u.vsession k with decodes := rest } ∧ (u.endDecode k r rest status).mem = u.mem ∧ (u.endDecode k r rest status).seats = u.seats
      ∧ ∀ e, (u.endDecode k r rest status).engine e = u.engine e := fun status => by
    have same := State.completeWith_engines (u.setSession k { u.vsession k with decodes := rest }) r.ticket status r.consumed
    exact ⟨(State.vsession_of_engines same k).trans (State.vsession_setSession_same _ _ _), congrArg Engines.mem same, congrArg Engines.seats same, fun e => State.engine_of_engines same e⟩
  unfold State.decodeOn
  by_cases done : last = true ∨ r.len ≤ r.consumed
  · rw [if_pos (by simpa using done), if_pos (by tauto)]
    exact ended 0x00
  · rw [if_neg (by simpa using done)]
    by_cases full : r.frames ≤ r.written
    · rw [if_pos full, if_pos (by tauto)]
      exact ended 0x08
    · rw [if_neg full, if_neg (by tauto)]
      exact ⟨State.vsession_setSession_same _ _ _, rfl, rfl, fun e => rfl⟩

/-- A frame whose references are read without fault or poison is put at its place. -/
theorem State.decodeFrame_puts {c : State} {ref : Bytes} (refs : State.vRead (s.vsession k).account ((s.engine e).refAddresses (poolRange (s.vsession k).desc) p.refs) s = (.ok (ref, false), c))
    (shown : (!(s.vsession k).skipping || p.key) = true) : s.decodeFrame e k r rest p = c.putFrame e k r rest p := by
  have video : c.video = s.video := (congrArg State.video (State.vRead_from refs) :)
  unfold State.decodeFrame
  dsimp only
  rw [refs]
  dsimp only
  rw [if_neg Bool.false_ne_true, if_neg]
  cases skipping : (s.vsession k).skipping <;> cases key : p.key <;> simp_all

/-- What a decoded frame of session `k` starts from: the session but for its stream, and the seats and engines of `s`. -/
structure FrameFrom (s c : State) (e k : Nat) : Prop where
  session : ∃ stream, c.vsession k = { s.vsession k with stream }
  kept : (s.vsession k).abandon = false
  opened : (s.vsession k).state = 1
  seats : c.seats = s.seats
  engine : c.engine e = s.engine e

theorem FrameServed.starts {a b c : State} {x : Except Nat (Bytes × Bool)} {l : List Nat} (served : FrameServed s e k r rest p) (touched : s.stateTouched (s.vsession k) = (none, a))
    (read : a.takeStream k r p.consumed = (none, b)) (refs : State.vRead (s.vsession k).account l b = (x, c)) : FrameFrom s c e k := by
  have before := State.stateTouched_from touched
  have after := State.vRead_from refs
  obtain ⟨stream, session, seats, engines⟩ := State.takeStream_from read
  have videoA : a.video = s.video := (congrArg State.video before :)
  have videoC : c.video = b.video := (congrArg State.video after :)
  refine ⟨⟨stream, ?_⟩, served.kept, served.opened, ?_, ?_⟩
  · rw [State.vsession_congr videoC, session, State.vsession_congr videoA]
  · exact (congrArg State.seats after :).trans (seats.trans (congrArg State.seats before :))
  · rw [State.engine_congr videoC, engines, State.engine_congr videoA]

/-- The bytes of a decoded frame written at its place, and its record. -/
def State.frameWritten (c : State) (k : Nat) (r : DecodeRun) (p : Picture) : Option Nat × State :=
  State.vWrite (c.vsession k).account (fun i => c.frameVa k r + (frameOffsets (c.vsession k).desc p.width p.height).getD i 0) 0
    (pictureBytes (c.vsession k).desc p (Config.decodedSample (c.vsession k).desc.codec (c.vsession k).stream (c.vsession k).outFrame)) c

def State.frameRecorded (u c : State) (k : Nat) (r : DecodeRun) (p : Picture) : Option Nat × State :=
  u.writeRecord k 0 (c.vsession k).outFrame 0 (4 * boolNat p.key + 32 * boolNat p.grain + 3) (r.written * (c.vsession k).frameStride) (frameSize (c.vsession k).desc) r.tag

section
variable {c : State} (start : FrameFrom s c e k)

theorem State.putFrame_writeFaults {f : Nat} {u : State} (written : c.frameWritten k r p = (some f, u)) : c.putFrame e k r rest p = u.faultSession k f r.tag := by
  unfold State.frameWritten State.frameVa at written
  unfold State.putFrame
  dsimp only
  rw [written]

theorem State.putFrame_recordFaults {f : Nat} {u w : State} (written : c.frameWritten k r p = (none, u)) (told : u.frameRecorded c k r p = (some f, w)) :
    c.putFrame e k r rest p = w.faultSession k f r.tag := by
  unfold State.frameWritten State.frameVa at written
  unfold State.frameRecorded at told
  unfold State.putFrame
  dsimp only
  rw [written]
  dsimp only
  rw [told]

theorem State.putFrame_counts {u w : State} (written : c.frameWritten k r p = (none, u)) (told : u.frameRecorded c k r p = (none, w)) :
    c.putFrame e k r rest p = (((w.setSession k { w.vsession k with outFrame := ((w.vsession k).outFrame + 1) % 2 ^ 32, skipping := false }).countDecoded e).decodeOn k (r.next p.consumed) rest p.last).afterSlice k := by
  unfold State.frameWritten State.frameVa at written
  unfold State.frameRecorded at told
  unfold State.putFrame
  dsimp only
  rw [written]
  dsimp only
  rw [told]

include start

/-- A fault met while a frame is put takes the session to FAULTED with its code. -/
theorem FrameFrom.faults {v : State} (f tag : Nat) (kept : v.aside = c.aside) :
    ((v.faultSession k f tag).vsession k).fault = f ∧ ((v.faultSession k f tag).vsession k).state = 3 ∧ ((v.faultSession k f tag).vsession k).decodes = []
      ∧ (v.faultSession k f tag).seats = s.seats := by
  obtain ⟨video, seats, -, -⟩ := State.of_aside kept
  obtain ⟨stream, session⟩ := start.session
  have here : v.vsession k = { s.vsession k with stream } := (State.vsession_congr video _).trans session
  rw [State.vsession_faultSession_same _ _ _ _ (by rw [here]; exact start.kept), here]
  refine ⟨rfl, ?_, rfl, (v.faultSession_frame _ _ _).1.trans (seats.trans start.seats)⟩
  simp [Session.faulted, start.opened]

/-- A frame that is written and recorded is counted, and the command goes on or ends (R322, R323). -/
theorem FrameFrom.counted {u w : State} (written : c.frameWritten k r p = (none, u)) (told : u.frameRecorded c k r p = (none, w)) :
    ((c.putFrame e k r rest p).vsession k).outFrame = ((s.vsession k).outFrame + 1) % 2 ^ 32 ∧ ((c.putFrame e k r rest p).vsession k).skipping = false
      ∧ ((c.putFrame e k r rest p).engine e).decoded = (s.engine e).decoded + 1
      ∧ ((c.putFrame e k r rest p).vsession k).decodes = (if p.last = true ∨ r.len ≤ (r.next p.consumed).consumed ∨ r.frames ≤ r.written + 1 then rest else r.next p.consumed :: rest)
      ∧ (c.putFrame e k r rest p).mem = w.mem ∧ (c.putFrame e k r rest p).seats = s.seats := by
  obtain ⟨video, seats, -, -⟩ := State.of_aside (State.vWrite_from written)
  obtain ⟨stream, session⟩ := start.session
  obtain ⟨d, x, failed, -⟩ | ⟨x, done, wSeats, -, wVideo⟩ := u.writeRecord_cases k 0 (c.vsession k).outFrame 0 (4 * boolNat p.key + 32 * boolNat p.grain + 3) (r.written * (c.vsession k).frameStride)
      (frameSize (c.vsession k).desc) r.tag
  · cases failed.symm.trans told
  cases done.symm.trans told
  have engine : w.engine e = s.engine e := (State.engine_congr wVideo e).trans ((State.engine_congr video e).trans start.engine)
  have here : w.vsession k = { s.vsession k with stream, seq := ((s.vsession k).seq + 1) % 2 ^ 32 } := by
    rw [State.vsession_congr wVideo, State.vsession_setSession_same, State.vsession_congr video, session]
  obtain ⟨kept, mem, kSeats, engines⟩ := State.decodeOn_frame ((w.setSession k { w.vsession k with outFrame := ((w.vsession k).outFrame + 1) % 2 ^ 32, skipping := false }).countDecoded e) k
    (r.next p.consumed) rest p.last
  have onward : ((w.setSession k { w.vsession k with outFrame := ((w.vsession k).outFrame + 1) % 2 ^ 32, skipping := false }).countDecoded e).vsession k
      = { s.vsession k with stream, seq := ((s.vsession k).seq + 1) % 2 ^ 32, outFrame := ((s.vsession k).outFrame + 1) % 2 ^ 32, skipping := false } := by
    rw [State.countDecoded, State.vsession_setEngine, State.vsession_setSession_same, here]
  rw [onward] at kept
  rw [State.putFrame_counts written told, State.afterSlice_kept (by rw [kept]; exact start.kept), kept, engines, mem, kSeats]
  refine ⟨rfl, rfl, ?_, rfl, rfl, wSeats.trans (seats.trans start.seats)⟩
  rw [State.countDecoded, State.engine_setEngine_same, State.engine_setSession, engine]

end

end

end Sys2Proof.Machine

namespace Sys2Proof.Proofs
open Sys2Proof Sys2Proof.Machine

/-- Settles O16: what is emitted starts from the slice's session; its write, its record and the room it needs part the cases. -/
theorem sliceWritten : Obligations.SliceWritten := by
  unfold Obligations.SliceWritten
  intro e n h rest out s u y b served slice size faulted
  obtain ⟨emits, start⟩ := execSliceDone_emits (out := out) served slice
  have faults : ∀ {v : State} (c : Nat), u.emitSlice e n h rest b = v.faultSession (vkey e n) c h.tag → v.aside = u.aside → faulted c := fun c failed kept => by
    obtain ⟨session, seats⟩ := start.faults (h := h) c kept
    exact ⟨_, emits, by rw [failed, session]; exact ⟨rfl, rfl, rfl, seats⟩⟩
  refine ⟨fun whole fits notLast => ?_, fun whole full => ⟨_, emits, start.waits whole full⟩⟩
  split
  next c v ring => exact faults c (start.ringFaults whole fits ring) (State.vWrite_from ring)
  next v ring =>
    split
    next c w told => exact faults c (start.recordFaults whole fits notLast ring told) ((State.writeRecord_from told).trans (State.vWrite_from ring))
    next w told =>
      obtain ⟨t, ends, rest⟩ := start.written (rest := rest) whole fits notLast ring told
      exact ⟨t, emits.trans (congrArg Host.Outcome.next ends), rest⟩

/-- Settles O17: a frame for a guarded page waits; any other is read, and its write and its record part the cases. -/
theorem frameDecoded : Obligations.FrameDecoded := by
  unfold Obligations.FrameDecoded
  intro e n r rest p s x head opened kept ready awake legal shown va faulted
  have served : FrameServed s e (vkey e n) r rest p := ⟨head, opened, kept, ready, awake, legal, shown⟩
  refine ⟨fun guarded => ?_, fun free a b c ref touched read refs => ?_⟩
  · have answer := execDecodeFrameDone_guarded served guarded
    exact ⟨fun first => answer.trans (congrArg Host.Outcome.next (if_neg (by simp [first]))), fun again => answer.trans (congrArg Host.Outcome.next (if_pos again))⟩
  have start := served.starts touched read refs
  obtain ⟨stream, session⟩ := start.session
  have puts : execDecodeFrameDone e n (.frame p) s = .next (c.putFrame e (vkey e n) r rest p) := by
    obtain ⟨stream', session', -, -⟩ := State.takeStream_from read
    rw [State.vsession_of_touched touched] at session'
    rw [execDecodeFrameDone_decodes served free touched read]
    refine congrArg Host.Outcome.next (State.decodeFrame_puts (ref := ref) ?_ ?_) <;> rw [session']
    · exact refs
    · exact served.shows
  have faults : ∀ {v : State} (f : Nat), c.putFrame e (vkey e n) r rest p = v.faultSession (vkey e n) f r.tag → v.aside = c.aside → faulted f := fun f failed same =>
    ⟨_, puts.trans (congrArg Host.Outcome.next failed), start.faults f r.tag same⟩
  have writes : c.frameWritten (vkey e n) r p = State.vWrite x.account (fun i => va + (frameOffsets x.desc p.width p.height).getD i 0) 0
      (pictureBytes x.desc p (Config.decodedSample x.desc.codec (c.vsession (vkey e n)).stream x.outFrame)) c := by
    simp only [State.frameWritten, State.frameVa, session]
    rfl
  have records : ∀ u : State, u.frameRecorded c (vkey e n) r p = u.writeRecord (vkey e n) 0 x.outFrame 0 (4 * boolNat p.key + 32 * boolNat p.grain + 3) (r.written * x.frameStride) (frameSize x.desc) r.tag := fun u => by
    simp only [State.frameRecorded, session]
    rfl
  split
  next f u found => exact faults f (State.putFrame_writeFaults (writes.trans found)) (State.vWrite_from found)
  next u found =>
    split
    next f w told => exact faults f (State.putFrame_recordFaults (writes.trans found) ((records u).trans told)) ((State.writeRecord_from told).trans (State.vWrite_from found))
    next w told => exact ⟨_, puts, start.counted (writes.trans found) ((records u).trans told)⟩

/-- Settles O18: the faults of its sessions leave the engine's own counts, which the defect then moves. -/
theorem engineDefects : Obligations.EngineDefects := by
  unfold Obligations.EngineDefects
  refine ⟨fun e s => ?_, fun e s resets => execEngineResetDone_ready resets⟩
  obtain ⟨own, others⟩ := State.engine_faultAll e (l := s.liveSessions e) (fun n listed => List.mem_range.mp (List.mem_filter.mp listed).1) s
  obtain ⟨seats, mem, cad⟩ := State.faultAll_frame e (s.liveSessions e) s
  have defects := congrArg Engine.defects own
  have disabled := congrArg Engine.disabled own
  simp only [Engine.unmarked] at defects disabled
  refine ⟨_, execEngineDefect_eq s e, ?_, ?_, ?_, ?_, fun d other => ?_, seats, mem, cad⟩
  · rw [State.engine_setEngine_same, defects]
  · rw [State.engine_setEngine_same]
  · rw [State.engine_setEngine_same, defects, disabled]
    simp
  · intro n session opened kept
    have listed : n ∈ s.liveSessions e := by simp [State.liveSessions, session, opened]
    have distinct : (s.liveSessions e).Nodup := List.nodup_range.filter _
    have faulted := State.vsession_faultAll_same e distinct listed s kept
    rw [State.vsession_setEngine, faulted]
    exact ⟨by simp [Session.faulted, opened], rfl, rfl, rfl⟩
  · exact (State.engine_setEngine_other _ _ other).trans (others d other)

end Sys2Proof.Proofs
end

section
/-!
Lemmas on the host's side of the device and on its resets (R498, R520, R539 to R544, R551 to R553, R557, R566, R567): doorbells, registers, ring heads, vectors, Function Level Reset and what a reset keeps; and the queue of commands that wait.
-/
namespace Sys2Proof.Machine

variable {s : State} {f h n buf : Nat}

/-! ## The queue of commands -/

theorem step_cons {c : Instr} {rest : List Instr} : step { s with pending := c :: rest } = exec c { s with pending := rest } := rfl

theorem step_nil (idle : s.pending = []) : step s = .next s := by
  unfold step
  rw [idle]

/-! ## The sheet doorbell (R547) -/

theorem execSheetDb_fills {image : Bytes} (ready : s.start.stage = 2) (buffer : buf < 16) (idle : buf ∉ s.host.sheetBusy) :
    execSheetDb 0 buf image s = .next { s with host := { s.host with sheetBuf := aset buf image s.host.sheetBuf, sheetBusy := sins buf s.host.sheetBusy } } := by
  rw [execSheetDb, if_neg (by simp [State.devStage, ready]), if_neg (by simp [idle, buffer])]

theorem execSheetDb_early {image : Bytes} (early : s.start.stage ≠ 2) : execSheetDb f buf image s = .next (s.setFn f { s.fn f with err := (s.fn f).err ||| 8 }) := by
  rw [execSheetDb, State.devStage, if_pos early, State.doorbellEarly]

theorem execSheetDb_ignored {image : Bytes} (ready : s.start.stage = 2) (turned : f ≠ 0 ∨ 16 ≤ buf ∨ buf ∈ s.host.sheetBusy) : execSheetDb f buf image s = .next s := by
  have away : (f ≠ 0 || 16 ≤ buf || s.host.sheetBusy.contains buf) = true := by simpa [or_assoc] using turned
  rw [execSheetDb, if_neg (by simp [State.devStage, ready]), if_pos away]

/-! ## Ring heads (R542, R553, R557) -/

section
variable (ring : h < 2048) (reached : ringCount 2048 h (s.fn f).evHead ≤ ringCount 2048 (s.fn f).evTail (s.fn f).evHead) (whole : (s.fn f).lostRun = 0)
include ring reached whole

theorem execEvHead_moves (none : (s.fn f).evHeld = []) : execEvHead f h s = .next (s.setFn f { s.fn f with evHead := h }) := by
  rw [execEvHead, if_neg (Nat.not_lt.mpr reached)]
  simp [Fn.refillEvents, drainEvents, whole, none, Nat.mod_eq_of_lt ring]

/-- One held event goes into the room that a moved head leaves, and calls vector 0. -/
theorem execEvHead_refills {e : EvRec} (held : (s.fn f).evHeld = [e]) (room : ringCount 2048 (s.fn f).evTail h < 2047) :
    execEvHead f h s = .next (s.setFn f (Fn.putEvent { s.fn f with evHead := h, evHeld := [] } f e)) := by
  rw [execEvHead, if_neg (Nat.not_lt.mpr reached)]
  simp [Fn.refillEvents, drainEvents, whole, held, room, Nat.mod_eq_of_lt ring]

end

/-- Vector 0 is in every function's table. -/
theorem Fn.putEvent_eq (x : Fn) (f : Nat) (e : EvRec) :
    x.putEvent f e = { x with evRing := aset x.evTail e x.evRing, evTail := (x.evTail + 1) % 2048, msixDue := sins 0 x.msixDue } := by
  have vector : 0 < msixSize f := by unfold msixSize; split <;> decide
  rw [Fn.putEvent, Fn.callVector, if_pos vector]

section
variable (ring : h < 1024) (reached : ringCount 1024 h (s.fn f).cplHead ≤ ringCount 1024 (s.fn f).cplTail (s.fn f).cplHead)
include ring reached

theorem execCplHead_moves (none : (s.fn f).cplHeld = []) : execCplHead f h s = .next (s.setFn f { s.fn f with cplHead := h }) := by
  rw [execCplHead, if_neg (Nat.not_lt.mpr reached)]
  simp [drainCpls, none, Nat.mod_eq_of_lt ring]

/-- One held completion goes into the room that a moved head leaves. -/
theorem execCplHead_refills {r : CplRec} (held : (s.fn f).cplHeld = [(r, false)]) (room : ringCount 1024 (s.fn f).cplTail h < 1023) :
    execCplHead f h s = .next (s.setFn f (Fn.putCpl { s.fn f with cplHead := h, cplHeld := [] } f r false)) := by
  rw [execCplHead, if_neg (Nat.not_lt.mpr reached)]
  simp [drainCpls, held, room, Nat.mod_eq_of_lt ring]

end

/-! ## Registers (Table 19.3) -/

section
variable {v : Word64}

/-- The branches of a register write that lie apart by their offsets: past ERR, the aperture's two words and CMD_DB. -/
theorem execRegisterWrite_table {o : Nat} (first : 0x8000 ≤ o) (last : o < 0x8000 + 16 * msixSize f) (aligned : o % 8 = 0) :
    execRegisterWrite f o v s = .next (s.setFn f { s.fn f with msixTable := aset ((o - 0x8000) / 8) v (s.fn f).msixTable }) := by
  have inTable : (0x8000 ≤ o && o < 0x8000 + 16 * msixSize f && o % 8 = 0) = true := by simp [first, last, aligned]
  unfold execRegisterWrite
  dsimp only
  rw [if_neg (by omega), if_neg (by omega), if_neg (by omega), if_neg (by omega), if_pos inTable]

theorem msixTable_end (f : Nat) : 0x8000 + 16 * msixSize f ≤ 0xA000 := by
  unfold msixSize
  split <;> decide

theorem execRegisterWrite_queueVector {q : Nat} (queue : q < 64) (sees : s.seesQueue f q = true) :
    execRegisterWrite f (0x180024 + 64 * q) v s = .next (s.setQueue q { s.queue q with vec := v.toNat % 2 ^ 32 }) := by
  have table := msixTable_end f
  have pastTable : ¬(0x8000 ≤ 0x180024 + 64 * q && 0x180024 + 64 * q < 0x8000 + 16 * msixSize f && (0x180024 + 64 * q) % 8 = 0) = true := by
    simp only [Bool.and_eq_true, decide_eq_true_eq]; omega
  have inQueues : (0x180000 ≤ 0x180024 + 64 * q && 0x180024 + 64 * q < 0x181000 && (0x180024 + 64 * q) % 64 = 0x24) = true := by
    simp only [Bool.and_eq_true, decide_eq_true_eq]; omega
  have number : (0x180024 + 64 * q - 0x180000) / 64 = q := by omega
  unfold execRegisterWrite
  dsimp only
  rw [if_neg (by omega), if_neg (by omega), if_neg (by omega), if_neg (by omega), if_neg pastTable, if_pos inQueues, number, if_pos sees]

theorem execRegisterWrite_sessionVector {k : Nat} {x : Session} (session : k < 256) (found : aget k s.video.sessions = some x) (mine : s.acts f x.account = true) :
    execRegisterWrite f (0x200004 + 64 * k) v s = .next { s with video := { s.video with sessions := aset k { x with vec := v.toNat % 2 ^ 32 } s.video.sessions } } := by
  have table := msixTable_end f
  have pastTable : ¬(0x8000 ≤ 0x200004 + 64 * k && 0x200004 + 64 * k < 0x8000 + 16 * msixSize f && (0x200004 + 64 * k) % 8 = 0) = true := by
    simp only [Bool.and_eq_true, decide_eq_true_eq]; omega
  have pastQueues : ¬(0x180000 ≤ 0x200004 + 64 * k && 0x200004 + 64 * k < 0x181000 && (0x200004 + 64 * k) % 64 = 0x24) = true := by
    simp only [Bool.and_eq_true, decide_eq_true_eq]; omega
  have inSessions : (0x200000 ≤ 0x200004 + 64 * k && 0x200004 + 64 * k < 0x204000 && (0x200004 + 64 * k) % 64 = 4) = true := by
    simp only [Bool.and_eq_true, decide_eq_true_eq]; omega
  have number : (0x200004 + 64 * k - 0x200000) / 64 = k := by omega
  unfold execRegisterWrite
  dsimp only
  rw [if_neg (by omega), if_neg (by omega), if_neg (by omega), if_neg (by omega), if_neg pastTable, if_neg pastQueues, if_pos inSessions, number, State.setSessionVec, found]
  dsimp only
  rw [if_pos mine]

/-- A read-only register keeps its value (R2). -/
theorem execRegisterWrite_readOnly : execRegisterWrite f 0x020 v s = .next s := by simp [execRegisterWrite]

theorem execRegisterWrite_doorbell : execRegisterWrite f 0x1000 v s = .next (s.cmdDoorbell f (v.toNat % 2 ^ 32)) := by simp [execRegisterWrite]

/-- CMD_DB within the ring moves the tail (R542). -/
theorem State.cmdDoorbell_moves {v : Nat} (ready : s.start.stage = 2) (slot : v < 64) (room : ringCount 64 (s.fn f).cmdTail (s.fn f).cmdHead + ringCount 64 v (s.fn f).cmdTail ≤ 63) :
    s.cmdDoorbell f v = s.setFn f { s.fn f with cmdTail := v } := by
  have fits : ¬(63 < v || 63 < ringCount 64 (s.fn f).cmdTail (s.fn f).cmdHead + ringCount 64 v (s.fn f).cmdTail) = true := by
    simp only [Bool.or_eq_true, decide_eq_true_eq]; omega
  rw [State.cmdDoorbell, if_neg (by simp [State.devStage, ready]), if_neg fits]

theorem State.cmdDoorbell_badTail {v : Nat} (ready : s.start.stage = 2) (past : 64 ≤ v) : s.cmdDoorbell f v = s.setFn f { s.fn f with err := (s.fn f).err ||| 1 } := by
  have bad : (63 < v || 63 < ringCount 64 (s.fn f).cmdTail (s.fn f).cmdHead + ringCount 64 v (s.fn f).cmdTail) = true := by
    simp only [Bool.or_eq_true, decide_eq_true_eq]; omega
  rw [State.cmdDoorbell, if_neg (by simp [State.devStage, ready]), if_pos bad]

theorem State.cmdDoorbell_early {v : Nat} (early : s.start.stage ≠ 2) : s.cmdDoorbell f v = s.setFn f { s.fn f with err := (s.fn f).err ||| 8 } := by
  rw [State.cmdDoorbell, State.devStage, if_pos early, State.doorbellEarly]

end

/-! ## Vectors (R544) -/

/-- When a due vector is raised: now, or 2 µs after its last. -/
def State.raiseAt (s : State) (f n : Nat) : Nat :=
  match aget n (s.fn f).msixLast with
  | some p => max s.now (p + 2000000)
  | none => s.now

theorem execMsiXRaise_raises (due : (s.fn f).msixDue.contains n = true) :
    execMsiXRaise f n s = .next (State.setFn { s with now := s.raiseAt f n } f { s.fn f with
      msixDue := sdel n (s.fn f).msixDue, msixLast := aset n (s.raiseAt f n) (s.fn f).msixLast, msixRaised := (s.fn f).msixRaised + 1 }) := by
  rw [execMsiXRaise, due, if_neg (by simp)]
  cases last : aget n (s.fn f).msixLast with
  | none =>
    have now : s.raiseAt f n = s.now := by rw [State.raiseAt, last]
    rw [now]
  | some p =>
    have later : s.raiseAt f n = max s.now (p + 2000000) := by rw [State.raiseAt, last]
    rw [later]
    rfl

theorem execMsiXRaise_notDue (quiet : (s.fn f).msixDue.contains n = false) : execMsiXRaise f n s = .next s := by
  rw [execMsiXRaise, quiet, if_pos (by simp)]

/-! ## Function Level Reset (R539) -/

theorem Fn.callVector_epoch (x : Fn) (f v : Nat) : (x.callVector f v).epoch = x.epoch := by
  unfold Fn.callVector
  split <;> rfl

theorem Fn.putCpl_epoch (x : Fn) (f : Nat) (r : CplRec) (raise : Bool) : (x.putCpl f r raise).epoch = x.epoch := by
  unfold Fn.putCpl
  dsimp only
  split
  · exact Fn.callVector_epoch _ _ _
  · rfl

/-- A completion posted leaves the epoch of its function. -/
theorem Fn.postCpl_epoch (x : Fn) (f : Nat) (r : CplRec) (raise : Bool) : (x.postCpl f r raise).epoch = x.epoch := by
  unfold Fn.postCpl
  split
  · exact Fn.putCpl_epoch _ _ _ _
  · split <;> rfl

/-- A function written with the epoch it has leaves every epoch. -/
theorem State.setFn_epoch (s : State) (f g : Nat) {v : Fn} (same : v.epoch = (s.fn f).epoch) : ((s.setFn f v).fn g).epoch = (s.fn g).epoch := by
  by_cases own : g = f
  · rw [own, State.fn_setFn_same, same]
  · rw [State.fn_setFn_other _ _ _ _ own]

theorem State.ldmaCpl_epoch (s : State) (q : Nat) (x : LdmaQueue) (status bytes addr g : Nat) : ((s.ldmaCpl q x status bytes addr).fn g).epoch = (s.fn g).epoch :=
  (State.setFn_epoch _ _ g (Fn.callVector_epoch _ _ _)).trans (s.setFn_epoch _ g (Fn.postCpl_epoch _ _ _ _))

/-- The function's registers and rings as new, in its next epoch. -/
def State.fnCleared (s : State) (f : Nat) : State := s.setFn f { epoch := (s.fn f).epoch + 1 }

theorem execFlr_noQueues (none : s.queuesOf f = []) : execFlr f s = .next (if f = 0 then (s.fnCleared f).muteSheets else s.fnCleared f) := by
  unfold execFlr
  rw [none]
  rfl

theorem execFlr_oneQueue {q : Nat} (one : s.queuesOf f = [q]) (runs : (s.queue q).stopped = false) :
    execFlr f s = .next (if f = 0 then ((s.stopQueue q 0x09 0).fnCleared f).muteSheets else (s.stopQueue q 0x09 0).fnCleared f) := by
  unfold execFlr
  rw [one]
  simp [runs, State.fnCleared]

/-- A muted sheet is the sheet but for its completions. -/
theorem State.muteSheets_sheets (s : State) : (∀ x ∈ s.muteSheets.dealer.sheets, x.mute = true) ∧ s.muteSheets.dealer.sheets.map (fun x => x.tag) = s.dealer.sheets.map (fun x => x.tag) := by
  simp [State.muteSheets, Function.comp_def]

/-! ## Resets (R498, R520, R540, R566, R567) -/

/-- What a reset leaves where no store is cut short. -/
theorem State.reboot_idle (idle : s.dict.storing = none) (reason : Nat) :
    s.reboot reason = { State.reset with pending := s.pending, fresh := s.fresh + 1, factory := s.factory, nv := s.nv, start := { reason } } := by
  rw [State.reboot, State.cutStore, idle]

end Sys2Proof.Machine

namespace Sys2Proof.Proofs
open Sys2Proof Sys2Proof.Machine

/-- Settles O1: a step is `exec` of the front command, by its definition. -/
theorem stepRunsFrontCommand : Obligations.StepRunsFrontCommand := by
  unfold Obligations.StepRunsFrontCommand
  exact ⟨fun c rest s => step_cons, fun s idle => step_nil idle⟩

/-- Settles O6: the doorbell's three cases. -/
theorem sheetDoorbell : Obligations.SheetDoorbell := by
  unfold Obligations.SheetDoorbell
  exact ⟨fun buf image s ready buffer idle => execSheetDb_fills ready buffer idle, fun fn buf image s early => execSheetDb_early early,
    fun fn buf image s ready turned => execSheetDb_ignored ready turned⟩

/-- Settles O55: a reset with no store under way keeps the hub store as it is; FLR clears its function after its queue has stopped. -/
theorem resetsKeepTheHubStore : Obligations.ResetsKeepTheHubStore := by
  unfold Obligations.ResetsKeepTheHubStore
  refine ⟨?resets, ?store, ?short, ?noQueues, ?oneQueue⟩
  case resets =>
    intro s idle fresh
    have leaves : ∀ reason, s.reboot reason = fresh reason := fun reason => State.reboot_idle idle reason
    refine ⟨fun us long => congrArg Host.Outcome.next ((if_neg (Nat.not_lt.mpr long)).trans (leaves 1)), congrArg Host.Outcome.next (leaves 0), congrArg Host.Outcome.next (leaves 2),
      fun up => congrArg Host.Outcome.next ((if_pos up).trans (leaves 3)), fun down => congrArg Host.Outcome.next (if_neg (by simp [down]))⟩
  case store =>
    intro c s running
    obtain ⟨t, ends, stored⟩ := execStoreComplete_kept running
    have dict := congrArg Stored.dict stored
    have idle : t.dict.storing = none := congrArg Dict.storing dict
    refine ⟨t, t.reboot 2, ends, idle, congrArg Dict.storeState dict, congrArg Stored.userA stored, congrArg Stored.userB stored, congrArg Stored.seats stored, congrArg Stored.mem stored, rfl, ?_, ?_⟩
    · rw [State.reboot_idle idle]
    · rw [State.reboot_idle idle]; rfl
  case short => exact fun us s short => congrArg Host.Outcome.next (if_pos short)
  case noQueues =>
    intro f s none
    refine ⟨fun other => (execFlr_noQueues none).trans (congrArg Host.Outcome.next (if_neg other)), fun same => ?_⟩
    subst same
    obtain ⟨mute, tags⟩ := (s.fnCleared 0).muteSheets_sheets
    exact ⟨_, execFlr_noQueues none, s.fn_setFn_same 0 _, fun g other => s.fn_setFn_other 0 g _ other, rfl, mute, tags, rfl, rfl, rfl⟩
  case oneQueue =>
    intro f q s one runs
    refine ⟨_, execFlr_oneQueue one runs, ?_⟩
    have stopped := State.queue_setQueue_same (s.ldmaCpl q (s.queue q) 0x09 (s.queue q).bytesDone 0) q
      { s.queue q with stopped := true, hit := none, hand := none, status := 0x09, stopIndex := (s.queue q).head, faultAddr := 0 }
    have epoch : ((s.stopQueue q 0x09 0).fn f).epoch = (s.fn f).epoch := s.ldmaCpl_epoch q _ _ _ _ f
    have cleared : ((s.stopQueue q 0x09 0).fnCleared f).fn f = { epoch := (s.fn f).epoch + 1 } := by rw [State.fnCleared, State.fn_setFn_same, epoch]
    have status : ((s.stopQueue q 0x09 0).queue q).stopped = true ∧ ((s.stopQueue q 0x09 0).queue q).status = 0x09 := by rw [State.stopQueue_halted, stopped]; exact ⟨rfl, rfl⟩
    have kept : (s.stopQueue q 0x09 0).seats = s.seats ∧ (s.stopQueue q 0x09 0).mem = s.mem := by rw [State.stopQueue_halted]; simp [State.ldmaCpl]
    split <;> exact ⟨status.1, status.2, cleared, kept.1, kept.2⟩

/-- Settles O56: heads, registers and vectors, each by the branch of its offset or of its room. -/
theorem hostRegistersAndHeads : Obligations.HostRegistersAndHeads := by
  unfold Obligations.HostRegistersAndHeads
  refine ⟨?events, ?completions, ?registers, ?vectors⟩
  case events =>
    intro f h s ring reached whole
    refine ⟨fun none => execEvHead_moves ring reached whole none, fun e held room => ⟨_, execEvHead_refills ring reached whole held room, ?_⟩⟩
    rw [Fn.putEvent_eq, State.fn_setFn_same]
    exact ⟨rfl, rfl, aget_aset_same _ _ _, rfl, mem_sins _ _, fun g other => s.fn_setFn_other f g _ other, rfl, rfl, rfl⟩
  case completions =>
    intro f h s ring reached
    refine ⟨fun none => execCplHead_moves ring reached none, fun r held room => ⟨_, execCplHead_refills ring reached held room, ?_⟩⟩
    rw [State.fn_setFn_same]
    exact ⟨rfl, rfl, aget_aset_same _ _ _, rfl, fun g other => s.fn_setFn_other f g _ other, rfl, rfl, rfl⟩
  case registers =>
    intro f v s
    refine ⟨rfl, rfl, fun o first last aligned => execRegisterWrite_table first last aligned, fun q queue sees => execRegisterWrite_queueVector queue sees,
      fun k x session found mine => execRegisterWrite_sessionVector session found mine, execRegisterWrite_readOnly, fun ready slot room => ?_, fun ready past narrow => ?_, fun early => ?_⟩
    · have narrow : v.toNat % 2 ^ 32 = v.toNat := Nat.mod_eq_of_lt (by omega)
      exact execRegisterWrite_doorbell.trans (congrArg Host.Outcome.next (by rw [narrow, State.cmdDoorbell_moves ready slot room]))
    · exact execRegisterWrite_doorbell.trans (congrArg Host.Outcome.next (by rw [Nat.mod_eq_of_lt narrow, State.cmdDoorbell_badTail ready past]))
    · exact execRegisterWrite_doorbell.trans (congrArg Host.Outcome.next (State.cmdDoorbell_early early))
  case vectors => exact fun f n s => ⟨fun due => execMsiXRaise_raises due, fun quiet => execMsiXRaise_notDue quiet⟩

end Sys2Proof.Proofs
end

section
/-!
Lemmas on the kibitzer and the self-test (R336, R337, R341, R343, R347, R356, R357): a window and its comparisons where no core is suspect, and a BIST that finds nothing.
-/
namespace Sys2Proof.Machine

variable {s : State}

/-! ## Windows (R336, R337) -/

theorem execAuditWindowStart_begins (runs : DealRuns s) (multiple : s.cad.trick % 256 = 0) (none : s.repair.windows = []) :
    execAuditWindowStart s = .next { s with repair := { s.repair with
      rp := s.turn, windows := [{ deal := s.cad.deal, index := s.cad.trick / 256, rp := s.repair.rp, suspects := s.repair.suspects }] } } := by
  simp [execAuditWindowStart, runs.inDealTricks, multiple, none]

theorem execAuditWindowStart_between (between : s.cad.trick % 256 ≠ 0) : execAuditWindowStart s = .next s := by
  simp [execAuditWindowStart, between]

/-! ## Comparisons (R341, R343) -/

/-- The one window that waits is of the deal in progress, its comparison is due, and no core is suspect. -/
structure WindowDue (s : State) (w : AuditWin) : Prop where
  dealing : s.dealing = true
  waits : s.repair.windows = [w]
  deal : w.deal = s.cad.deal
  ended : s.windowEnd w.index ≤ s.cad.trick
  inTime : s.cad.trick ≤ s.windowEnd w.index + 64
  trusted : s.repair.suspects = []

/-- The window is closed and counted, with the mismatches it found. -/
def State.windowClosed (s : State) (bad : Nat) : State :=
  { s with repair := { s.repair with windows := [], compared := s.repair.compared + 1, mismatches := s.repair.mismatches + bad } }

/-- Where no core is suspect, no comparison is a double audit's: the mismatches are those of the pairs of the window, each a new suspicion. -/
theorem execAuditCompare_due {w : AuditWin} (due : WindowDue s w) (cmps : List AuditCmp) :
    execAuditCompare w.index cmps s = .next (
      let wrong := (cmps.filter (fun a => s.shadows w a)).filter (fun a => a.crcCore ≠ a.crcShadow)
      wrong.foldl (fun s a => s.mismatch w.index a) (s.windowClosed wrong.length)) := by
  obtain ⟨dealing, waits, deal, ended, inTime, trusted⟩ := due
  have double : cmps.filter (s.ofDouble w.index) = [] := by simp [State.ofDouble, trusted]
  have own : cmps.filter (fun a => !s.ofDouble w.index a && s.shadows w a) = cmps.filter (fun a => s.shadows w a) := by simp [State.ofDouble, trusted]
  have fresh : ∀ l : List AuditCmp, l.filter (fun a => !s.isSuspect a.die a.row a.col ((s.effCluster (clusterKey a.die a.row a.col)).physCore a.logical)) = l := by
    simp [State.isSuspect, trusted]
  have found : s.repair.windows.find? (fun x => x.deal = s.cad.deal && x.index = w.index) = some w := by simp [waits, deal]
  have running : ¬(!s.dealing || s.cad.trick < s.windowEnd w.index || s.windowEnd w.index + 64 < s.cad.trick) = true := by simp [dealing, ended, inTime]
  have gone : s.repair.windows.filter (fun x => x.index ≠ w.index) = [] := by simp [waits]
  have judged : ∀ u : State, u.repair.suspects = [] → u.doubleAudits w.index [] = u := fun u none => by simp [State.doubleAudits, none]
  unfold execAuditCompare
  rw [found]
  dsimp only
  rw [if_neg running, double, own, fresh, List.filter_nil, List.nil_append, gone, judged]
  · rfl
  · exact trusted

/-- Equal CRCs close the window and count it. -/
theorem execAuditCompare_equal {w : AuditWin} (due : WindowDue s w) {cmps : List AuditCmp} (equal : ∀ a ∈ cmps, a.crcCore = a.crcShadow) :
    execAuditCompare w.index cmps s = .next { s with repair := { s.repair with windows := [], compared := s.repair.compared + 1 } } := by
  have none : (cmps.filter (fun a => s.shadows w a)).filter (fun a => a.crcCore ≠ a.crcShadow) = [] := by
    rw [List.filter_eq_nil_iff]
    intro a listed
    simpa using equal a (List.mem_filter.mp listed).1
  rw [execAuditCompare_due due, none]
  rfl

/-- A core that a window's comparison makes suspect. -/
def State.suspected (s : State) (w : Nat) (a : AuditCmp) : Suspect :=
  { die := a.die, row := a.row, col := a.col, core := (s.effCluster (clusterKey a.die a.row a.col)).physCore a.logical, shadowCol := a.shadowCol, shadow := a.shadow, logical := a.logical, window := w
    deal := s.cad.deal, single := false, awaitBist := false, anyWindow := !s.dealtIn a w, fresh := true, result := none }

/-- The cause of a mismatch (R343). -/
def State.mismatchCause (s : State) (a : AuditCmp) : Cause :=
  { deal := s.causeDeal, rank := 4, detail := 0x34, member := s.member, remote := false, slot := 0xFFF, die := a.die
    place := placeCore a.die a.row a.col ((s.effCluster (clusterKey a.die a.row a.col)).physCore a.logical), repair := repairRank 4 }

/-- A mismatch of a core that issued deal code: it is suspect, and the deal has a cause (R343). -/
theorem State.mismatch_dealt {w : Nat} {a : AuditCmp} (dealt : s.dealtIn a w = true) :
    s.mismatch w a = State.addCause { s with repair := { s.repair with suspects := s.repair.suspects ++ [s.suspected w a] } } 4 0x34 0xFFF a.die
      (placeCore a.die a.row a.col ((s.effCluster (clusterKey a.die a.row a.col)).physCore a.logical)) := by
  unfold State.mismatch
  dsimp only
  rw [if_pos dealt]
  rfl

theorem execAuditCompare_mismatch {w : AuditWin} {a : AuditCmp} (due : WindowDue s w) (pair : s.shadows w a = true) (differ : a.crcCore ≠ a.crcShadow) :
    execAuditCompare w.index [a] s = .next ((s.windowClosed 1).mismatch w.index a) := by
  rw [execAuditCompare_due due]
  simp [pair, differ]

/-! ## A BIST that finds nothing (R357) -/

/-- The repair maps and the stage of the start, which say what a BIST reports. -/
def State.maps (s : State) : RepairMap × RepairMap × Start := (s.repair.factory, s.nv.field, s.start)

theorem State.post_maps (s : State) (r : EvReq) : (s.post r).maps = s.maps := by
  have logged : (s.post r).nv = { s.nv with plog := (s.logAppend r).nv.plog } := (s.post_log r).2.trans (s.logAppend_nv r).1
  have field : (s.post r).nv.field = s.nv.field := by rw [logged]
  simp only [State.maps, State.post_frame, field]

theorem State.queuePost_maps (s : State) (r : EvReq) : (s.queuePost r).maps = s.maps := by
  unfold State.queuePost
  split
  · rfl
  split
  · rfl
  · exact s.post_maps r

theorem State.watch_maps (s : State) : s.watch.maps = s.maps := foldl_keeps State.maps (fun u _ => u.queuePost_maps _) _ _

theorem State.deck_of_maps {t : State} (same : t.maps = s.maps) (d : Nat) : t.deck d = s.deck d := by
  simp only [State.maps, Prod.mk.injEq] at same
  rw [State.deck, State.deck, State.effDie, State.effDie, same.1, same.2.1]

/-- No die changes, and no unit failed: the BIST passed. -/
def State.bistPassed (s : State) : State := { s.watch with repair := { s.watch.repair with bistResult := 0 } }

theorem State.bist_passes (trusted : s.repair.suspects = []) : s.bist [] = s.bistPassed := by
  have lost : s.watch.lostDies = s.lostDies := by simp only [State.lostDies, State.deck_of_maps s.watch_maps]
  have short : s.watch.shortDies = s.shortDies := by simp only [State.shortDies, State.deck_of_maps s.watch_maps]
  simp [State.bist, trusted, lost, short, State.bistPassed]

theorem State.bistPassed_start (s : State) : s.bistPassed.start = s.start := congrArg (·.2.2) s.watch_maps

/-- Of the Dealer a BIST that finds nothing touches the waiting events alone. -/
theorem State.bistPassed_reports (s : State) : s.Reports s.bistPassed := s.watch_reports.repair _

theorem State.bistPassed_dealer (s : State) : s.bistPassed.dealer.bistRunning = s.dealer.bistRunning ∧ s.bistPassed.dealer.auditTickets = s.dealer.auditTickets
    ∧ s.bistPassed.dealer.bistHold = s.dealer.bistHold := by
  obtain ⟨more, later, dealer⟩ := s.bistPassed_reports.dealer
  rw [dealer]
  exact ⟨rfl, rfl, rfl⟩

/-- The start's self-test passes (R357). -/
theorem execBistDone_start (stage : s.start.stage = 1) (waits : s.start.bist = false) (quiet : s.dealer.bistRunning = false) (noAudit : s.dealer.auditTickets = []) (trusted : s.repair.suspects = []) :
    execBistDone [] s = .next { s.bistPassed with start := { s.bistPassed.start with bist := true } } := by
  have active : s.bistActive = true := by simp [State.bistActive, stage, waits]
  obtain ⟨running, -, -⟩ := s.bistPassed_dealer
  unfold execBistDone
  dsimp only
  rw [if_neg (by simp [active]), State.bist_passes trusted, if_neg (by simp [noAudit])]
  simp only [s.bistPassed_start, stage, running, quiet, if_true, Bool.false_eq_true, if_false]

/-- The end of an audit run completes its commands (R357). -/
theorem execBistDone_audit {k : Ticket} (stage : s.start.stage = 2) (quiet : s.dealer.bistRunning = false) (audit : s.dealer.auditTickets = [k]) (ended : s.dealer.auditLeft = 0)
    (trusted : s.repair.suspects = []) :
    execBistDone [] s = .next (State.complete { s.bistPassed with dealer := { s.bistPassed.dealer with auditTickets := [] } } k 0) := by
  have active : s.bistActive = true := by simp [State.bistActive, audit, ended]
  obtain ⟨-, tickets, -⟩ := s.bistPassed_dealer
  unfold execBistDone
  dsimp only
  rw [if_neg (by simp [active]), State.bist_passes trusted, if_pos (by simp [audit, ended])]
  have running : ¬s.bistPassed.start.stage = 1 := by rw [s.bistPassed_start, stage]; decide
  simp only [running, quiet, s.bistPassed_dealer.1, if_false, Bool.false_eq_true, tickets, audit, List.foldl_cons, List.foldl_nil]

end Sys2Proof.Machine

namespace Sys2Proof.Proofs
open Sys2Proof Sys2Proof.Machine

/-- Settles O32: with no core suspect, a comparison closes its window and a mismatch is the only suspicion; a BIST that finds nothing only reports. -/
theorem auditsCompare : Obligations.AuditsCompare := by
  unfold Obligations.AuditsCompare
  refine ⟨fun s runs multiple none => execAuditWindowStart_begins runs multiple none, fun s between => execAuditWindowStart_between between, ?compared, ?start, ?audit⟩
  case compared =>
    intro w cmps s dealing waits deal ended inTime trusted
    have due : WindowDue s w := ⟨dealing, waits, deal, ended, inTime, trusted⟩
    refine ⟨fun equal => execAuditCompare_equal due equal, fun a one pair differ dealt => ?_⟩
    subst one
    refine ⟨_, s.suspected w.index a, s.mismatchCause a, execAuditCompare_mismatch due pair differ, ?_⟩
    rw [State.mismatch_dealt (s := s.windowClosed 1) dealt]
    simp only [State.addCause_frame]
    refine ⟨?_, rfl, rfl, rfl, rfl, rfl, rfl, rfl, ?_, rfl, rfl, rfl, rfl, rfl⟩
    · exact congrArg (· ++ _) trusted
    · rw [State.addCause_dealer]
      · exact List.mem_append_right _ (List.mem_singleton_self _)
      · exact dealing
  case start =>
    intro s stage waits quiet noAudit trusted
    exact ⟨_, execBistDone_start stage waits quiet noAudit trusted, rfl, rfl, s.bistPassed_reports.seats, s.bistPassed_reports.cad⟩
  case audit =>
    intro s k stage quiet audit ended trusted
    refine ⟨_, execBistDone_audit stage quiet audit ended trusted, ?_, ?_⟩
    · simp
    · simpa using s.bistPassed_dealer.2.2

end Sys2Proof.Proofs
end


section
/-! The requests of SPDM and IDE keying: what each phase of the negotiation and each state of a session answers. -/

namespace Sys2Proof.Machine

/-! ### The order of requests -/

theorem State.spdmIn_served {s : State} (up : s.spdmUp = true) {n : Nat} (reached : n ≤ s.sec.spdmPhase) (f : State → State) : s.spdmIn n f = f s := by
  rw [State.spdmIn, if_neg (by rw [up]; decide), if_neg (Nat.not_lt.mpr reached)]

theorem State.spdmIn_early {s : State} (up : s.spdmUp = true) {n : Nat} (early : s.sec.spdmPhase < n) (f : State → State) : s.spdmIn n f = s.respond 0x7F [4] := by
  rw [State.spdmIn, if_neg (by rw [up]; decide), if_pos early]; rfl

theorem State.inSession_established {s : State} (up : s.spdmUp = true) {n : Nat} {x : Spdm} (is : s.spdmSession n = some x) (established : x.state = 2)
    (f : State → State) : s.inSession n f = f s := by
  rw [State.inSession, if_neg (by rw [up]; decide), is]; exact if_pos established

theorem State.inSession_unknown {s : State} (up : s.spdmUp = true) {n : Nat} (unknown : s.spdmSession n = none) (f : State → State) :
    s.inSession n f = s.respond 0x7F [2] := by
  rw [State.inSession, if_neg (by rw [up]; decide), unknown]; rfl

/-! ### What the negotiated responder answers -/

theorem execGetCapabilities_answers {s : State} (up : s.spdmUp = true) (phase : s.sec.spdmPhase = 1) :
    execGetCapabilities s = .next ((s.setPhase 2).respondMsg 0x61) := by
  rw [execGetCapabilities, State.spdmIn_served up phase.ge, if_neg (not_not.mpr phase)]

theorem execNegotiateAlgorithms_answers {s : State} (up : s.spdmUp = true) (phase : s.sec.spdmPhase = 2) (sig hash dhe aead : Nat) :
    execNegotiateAlgorithms sig hash dhe aead s = .next ((s.setPhase 3).respond 0x63
      (toLe (if bit sig 7 then 0x80 else 0) 4 ++ toLe (if bit hash 1 then 2 else 0) 4 ++ toLe (if bit dhe 4 then 0x10 else 0) 2 ++ toLe (if bit aead 1 then 2 else 0) 2)) := by
  rw [execNegotiateAlgorithms, State.spdmIn_served up phase.ge, if_neg (not_not.mpr phase)]

theorem execGetCertificate_portion {s : State} (up : s.spdmUp = true) (done : 3 ≤ s.sec.spdmPhase) {o : Nat} (inside : o ≤ Config.certChain.length) (l : Nat) :
    execGetCertificate 0 o l s = .next (s.respond 0x02 ((Config.certChain.drop o).take l)) := by
  rw [execGetCertificate, State.spdmIn_served up done, if_neg (by simp [inside])]

theorem execGetMeasurements_digest {s : State} (up : s.spdmUp = true) (done : 3 ≤ s.sec.spdmPhase) {k : Nat} (one : 1 ≤ k) (four : k ≤ 4) :
    execGetMeasurements k s = .next (s.respond 0x60 (s.measure k)) := by
  rw [execGetMeasurements, State.spdmIn_served up done, if_neg (by omega), if_neg (by omega), if_pos (by omega), State.measureBlock, if_neg (by omega)]

theorem execKeyExchange_opens {s : State} (up : s.spdmUp = true) (done : 3 ≤ s.sec.spdmPhase) (room : s.sec.spdm.length < 4) :
    execKeyExchange 0 s = .next (State.respondMsg
      { s with sec := { s.sec with spdm := s.sec.spdm ++ [{ id := s.sec.nextSpdm, state := 1 }], nextSpdm := s.sec.nextSpdm + 1 } } 0x64) := by
  rw [execKeyExchange, State.spdmIn_served up done, if_neg (by decide), if_neg (Nat.not_le.mpr room)]

theorem execKeyExchange_full {s : State} (up : s.spdmUp = true) (done : 3 ≤ s.sec.spdmPhase) (full : 4 ≤ s.sec.spdm.length) :
    execKeyExchange 0 s = .next (s.respond 0x7F [0x0A]) := by
  rw [execKeyExchange, State.spdmIn_served up done, if_neg (by decide), if_pos full]; rfl

/-! ### A session's own requests -/

theorem execFinish_handshake {s : State} (up : s.spdmUp = true) {n : Nat} {x : Spdm} (is : s.spdmSession n = some x) (begun : x.state = 1) (ok : Bool) :
    execFinish n ok s = .next (if ok then
        State.respondMsg { s with sec := { s.sec with spdm := s.sec.spdm.map (fun y => if y.id = n then { y with state := 2 } else y) } } 0x65
      else State.spdmError { s with sec := { s.sec with spdm := s.sec.spdm.filter (·.id ≠ n) } } 6) := by
  rw [execFinish, if_neg (by rw [up]; decide), is]
  exact congrArg Host.Outcome.next (if_neg (not_not.mpr begun))

theorem execIdeKmRequest_keys {s : State} (up : s.spdmUp = true) {n : Nat} {x : Spdm} (is : s.spdmSession n = some x) (established : x.state = 2)
    {k : Nat} (stream : k ≤ 4) {start : Bool} (known : start = true → s.sec.ideStreams.contains k = true) :
    execIdeKmRequest n k start s = .next (State.respondMsg { s with sec := { s.sec with
      ideStreams := sins k s.sec.ideStreams, ideBad := if start then s.sec.ideBad else sdel k s.sec.ideBad
      ide := if start then 2 else max s.sec.ide 1 } } 0x7E) := by
  rw [execIdeKmRequest, State.inSession_established up is established, if_neg]
  cases start with
  | false => simpa using stream
  | true => simpa [stream] using known rfl

end Sys2Proof.Machine

namespace Sys2Proof.Proofs
open Sys2Proof Sys2Proof.Machine

/-- Settles O53: each request is taken once its phase, or its session's state, is reached. -/
theorem spdmAnswers : Obligations.SpdmAnswers := by
  intro s up
  refine ⟨?_, execGetCapabilities_answers up, ?_, ?_, ?_, ?_, ?_, ?_, ?_⟩
  · exact congrArg Host.Outcome.next (State.spdmIn_served up (Nat.zero_le _) _)
  · exact fun phase => execNegotiateAlgorithms_answers up phase 0x80 2 0x10 2
  · exact fun early n b => ⟨congrArg Host.Outcome.next (State.spdmIn_early up early _), congrArg Host.Outcome.next (State.spdmIn_early up early _),
      congrArg Host.Outcome.next (State.spdmIn_early up early _)⟩
  · intro done
    have served : ∀ f : State → State, (Host.Outcome.next (s.spdmIn 3 f) : Out) = .next (f s) := fun f => congrArg Host.Outcome.next (State.spdmIn_served up done f)
    exact ⟨served _, fun o l inside => execGetCertificate_portion up done inside l, fun b => served _, served _,
      fun k one four => execGetMeasurements_digest up done one four, served _, execKeyExchange_opens up done, execKeyExchange_full up done⟩
  · intro n x is
    refine ⟨fun begun => execFinish_handshake up is begun true, fun begun => execFinish_handshake up is begun false, fun established => ?_⟩
    have served : ∀ f : State → State, (Host.Outcome.next (s.inSession n f) : Out) = .next (f s) :=
      fun f => congrArg Host.Outcome.next (State.inSession_established up is established f)
    exact ⟨served _, served _, served _, fun k stream => execIdeKmRequest_keys up is established stream (by simp),
      fun k stream known => execIdeKmRequest_keys up is established stream (fun _ => known)⟩
  · exact fun n unknown => congrArg Host.Outcome.next (State.inSession_unknown up unknown _)
  · exact fun k known => congrArg Host.Outcome.next (if_pos known)
  · exact fun k unknown => congrArg Host.Outcome.next (if_neg (by rw [unknown]; decide))

end Sys2Proof.Proofs
end


section
/-! The scrub over a memory whose bytes are listed out of order: the model's reads rest on their order (log entry 3), which no statement here asks for. -/

namespace Sys2Proof.Machine

/-- Bytes of HBM listed out of order: one in use at the start of die 1 stands before the reserved byte at the top of die 0, and hides it. -/
def hiddenReserve : Memory := { bytes := [(dieStride, 1#8), (dieUsable, 1#8)] }

/-- A Blank device whose accepted PROVISION waits, over that memory. -/
def provisionOverHiddenReserve : State := { mem := hiddenReserve, sec := { command := some 1 } }

/-- A Deployed device whose preparation for an Open grant is under way, over that memory. -/
def preparedOverHiddenReserve : State := { mem := hiddenReserve, sec := { lifeCycle := 2, openWait := some (0, 0), preparing := true } }

theorem hiddenReserve_reserved : usableHbm dieUsable 1 = false := by decide

/-- A state over other reserved bytes is no scrub of this one. -/
theorem Scrubbed.keeps_reserve {s t : State} (scrubbed : Scrubbed s t) : t.hbmByte dieUsable = s.hbmByte dieUsable :=
  scrubbed.rest _ hiddenReserve_reserved

end Sys2Proof.Machine

namespace Sys2Proof.Proofs
open Sys2Proof Sys2Proof.Machine

/-- Refutes O51: OPEN_PREPARATION_DONE in Deployed over a memory that is not in canonical form; the scrub drops the byte that hid a reserved one, which then reads otherwise. -/
theorem not_debugSessionsOpenAndEnd : ¬ Obligations.DebugSessionsOpenAndEnd := by
  intro ⟨_, _, done, _⟩
  obtain ⟨t, step, _, _, _, _, _, _, _, scrubbed⟩ := done 0 0 preparedOverHiddenReserve rfl rfl (.inr rfl)
  cases step
  exact absurd (Scrubbed.keeps_reserve (if_pos rfl ▸ scrubbed)) (by decide)

/-- Refutes O52: PROVISION over a memory that is not in canonical form; the scrub drops the byte that hid a reserved one, which then reads otherwise. -/
theorem not_lifeCycleMoves : ¬ Obligations.LifeCycleMoves := by
  intro moves
  obtain ⟨provision, -⟩ := moves provisionOverHiddenReserve
  obtain ⟨t, step, _, _, _, _, _, _, scrubbed, _⟩ := provision (by decide)
  cases step
  exact absurd scrubbed.keeps_reserve (by decide)

end Sys2Proof.Proofs
end


section
/-! Deck links, flits, notices and bindings, and who is the Banker: what each command leaves. -/

namespace Sys2Proof.Machine

/-! ### Links -/

@[simp] theorem State.deckLink_setLink_same (s : State) (k : Nat) (l : DeckLink) : (s.setLink k l).deckLink k = l := by
  simp [State.deckLink, State.setLink]

@[simp] theorem State.setLink_setLink_same (s : State) (k : Nat) (l m : DeckLink) : (s.setLink k l).setLink k m = s.setLink k m := by
  simp [State.setLink]

/-- What is lost with a link outside the group concerns no deal. -/
theorem State.boundLost_unbound {s : State} {k : Nat} (unbound : s.boundLinks.contains k = false) : s.boundLost k = s := by
  rw [State.boundLost, unbound]; exact if_neg (by simp)

theorem State.dropLink_unbound {s : State} {k : Nat} (unbound : s.boundLinks.contains k = false) :
    s.dropLink k = s.setLink k { st := 0, replayed := (s.deckLink k).replayed, losses := (s.deckLink k).losses + 1 } := by
  rw [State.dropLink, State.boundLost_unbound unbound]; rfl

theorem execLinkTrained_up {s : State} {k : Nat} (run : s.start.stage = 2) (awake : s.power.phase = 0) (trains : (s.deckLink k).st = 0 ∨ (s.deckLink k).st = 1) :
    execLinkTrained k s = .next (s.setLink k { st := 2, replayed := (s.deckLink k).replayed, losses := (s.deckLink k).losses }) :=
  congrArg Host.Outcome.next (if_pos (by simp [run, awake, trains]))

theorem execLinkDown_unbound {s : State} {k : Nat} (up : (s.deckLink k).st = 2) (unbound : s.boundLinks.contains k = false) :
    execLinkDown k s = .next (s.setLink k { st := 0, replayed := (s.deckLink k).replayed, losses := (s.deckLink k).losses + 1 }) := by
  rw [execLinkDown, if_pos up, State.dropLink_unbound unbound]

theorem execDeckIdent_far {s : State} {k : Nat} (up : (s.deckLink k).st = 2) (n : Word64) (addr far : Nat) :
    execDeckIdent k n addr far true s = .next (s.setLink k { s.deckLink k with farValid := true, farAddr := addr % 256, farLink := far % 8 }) := by
  rw [execDeckIdent, if_neg (not_not.mpr up), if_neg (by decide)]

theorem execDeckIdent_otherRing {s : State} {k : Nat} (up : (s.deckLink k).st = 2) (unbound : s.boundLinks.contains k = false) (n : Word64) (addr far : Nat) :
    execDeckIdent k n addr far false s = .next (s.setLink k { st := 3, replayed := (s.deckLink k).replayed, losses := (s.deckLink k).losses }) := by
  rw [execDeckIdent, if_neg (not_not.mpr up), if_pos (by decide), State.boundLost_unbound unbound]; rfl

/-! ### NAKs -/

theorem State.nak_progress {s : State} {k a : Nat} (progress : ((s.deckLink k).acked a).length < (s.deckLink k).sent.length) :
    s.nak k a = s.setLink k { s.deckLink k with
      sent := (s.deckLink k).acked a, replayed := (s.deckLink k).replayed + ((s.deckLink k).acked a).length, nakRun := 0 } := if_pos progress

theorem State.nak_again {s : State} {k a : Nat} (still : ¬((s.deckLink k).acked a).length < (s.deckLink k).sent.length) (early : (s.deckLink k).nakRun ≠ 31) :
    s.nak k a = s.setLink k { s.deckLink k with
      replayed := (s.deckLink k).replayed + ((s.deckLink k).acked a).length, nakRun := (s.deckLink k).nakRun + 1 } := by
  rw [State.nak, if_neg still, if_neg early]

theorem State.nak_last {s : State} {k a : Nat} (still : ¬((s.deckLink k).acked a).length < (s.deckLink k).sent.length) (last : (s.deckLink k).nakRun = 31) :
    s.nak k a = s.dropLink k := by
  rw [State.nak, if_neg still, if_pos last]

theorem execDeckNak_up {s : State} {k : Nat} (up : (s.deckLink k).st = 2) (a : Nat) : execDeckNak k a s = .next (s.nak k a) :=
  congrArg Host.Outcome.next (if_pos up)

/-! ### Flits -/

/-- The link once a flit of a sequenced type has been taken in order: its ACK and credits, the next SEQ, the credit it owes (R362 to R364). -/
def DeckLink.taking (l : DeckLink) (f : Flit) : DeckLink :=
  let l := l.credit f.ack f.crData f.crNotice f.crPass
  { l with rxNext := (l.rxNext + 1) % 4096, discarding := false, owed := owedFor f.type }

theorem execDeckDataFlit_bad {s : State} {k : Nat} {f : Flit} (up : (s.deckLink k).st = 2) (bad : flitBad (s.deckLink k) f = true) :
    execDeckDataFlit k f s = .next (s.setLink k { s.deckLink k with discarding := true }) := by
  rw [execDeckDataFlit, if_neg (not_not.mpr up), if_pos bad]

section
variable {s : State} {k : Nat} {f : Flit} (up : (s.deckLink k).st = 2) (good : ¬flitBad (s.deckLink k) f = true)
include up good

theorem execDeckDataFlit_notice (type : f.type = 2) : execDeckDataFlit k f s = .next (s.setLink k ((s.deckLink k).taking f)) := by
  rw [execDeckDataFlit, if_neg (not_not.mpr up), if_neg good]
  simp [type, DeckLink.taking]

theorem execDeckDataFlit_pass (type : f.type = 3) : execDeckDataFlit k f s =
    .next { s.setLink k ((s.deckLink k).taking f) with vault := { s.vault with passFrom := some k, passHeld := s.vault.passHeld + 1 } } := by
  rw [execDeckDataFlit, if_neg (not_not.mpr up), if_neg good]
  simp [type, DeckLink.taking]

theorem execDeckDataFlit_data (type : f.type = 1) : execDeckDataFlit k f s =
    .next ((s.setLink k ((s.deckLink k).taking f)).dataPayload k f.first (f.payload.take f.len)) := by
  rw [execDeckDataFlit, if_neg (not_not.mpr up), if_neg good]
  simp [type, DeckLink.taking]

end

section
variable {s : State} {k : Nat} {first : Bool} {b : Bytes} {x : DeckXfer}

theorem State.dataPayload_more (gathers : (if first then some (parseXfer b) else (s.deckLink k).xfer.map (fun x => { x with data := x.data ++ b })) = some x)
    (more : x.data.length < 64 * x.count) : s.dataPayload k first b = s.setLink k { s.deckLink k with xfer := some x } := by
  rw [State.dataPayload, gathers]; exact if_neg (Nat.not_le.mpr more)

theorem State.dataPayload_whole (gathers : (if first then some (parseXfer b) else (s.deckLink k).xfer.map (fun x => { x with data := x.data ++ b })) = some x)
    (whole : 64 * x.count ≤ x.data.length) : s.dataPayload k first b = (s.setLink k { s.deckLink k with xfer := none }).landXfer x := by
  rw [State.dataPayload, gathers]; exact if_pos whole

theorem State.dataPayload_stray (later : first = false) (none : (s.deckLink k).xfer = none) : s.dataPayload k first b = s := by
  simp [State.dataPayload, later, none]

/-- A transfer with a rsvd bit, or of another deal, lands nothing (log entry 37). -/
theorem State.landXfer_foreign (foreign : x.rsvd = true ∨ x.deal ≠ s.cad.deal % 65536) : s.landXfer x = s := by
  rw [State.landXfer]; exact if_pos (by rcases foreign with h | h <;> simp [h])
end

/-! ### Notices -/

/-- The state once a record is held and forwarded on every other bound link (R386). -/
def State.forwarding (s : State) (k kind : Nat) (n : Notice) : State :=
  (s.boundLinks.filter (fun j => decide (j ≠ k))).foldl (fun s j => s.deckSend j 2 (noticeBytes { kind, note := n }))
    { s with group := { s.group with records := s.group.records ++ [{ kind, note := n }] } }

theorem State.hear_heard {s : State} {k : Nat} {n : Notice} (hears : s.hears k n = true) (new : ∀ r ∈ s.group.records, r.note ≠ n) (kind : Nat) (effect : State → State) :
    s.hear k kind n effect = effect (s.forwarding k kind n) := by
  have absent : s.group.records.contains { kind, note := n } = false := by
    rw [List.contains_eq_mem, decide_eq_false_iff_not]
    exact fun held => new _ held rfl
  rw [State.hear]
  exact if_neg (by rw [hears, absent]; decide)

theorem State.hear_deaf {s : State} {k : Nat} {n : Notice} (deaf : s.hears k n = false) (kind : Nat) (effect : State → State) : s.hear k kind n effect = s := by
  rw [State.hear]; exact if_pos (by rw [deaf]; rfl)

@[simp] theorem State.forwarding_frame (s : State) (k kind : Nat) (n : Notice) : (s.forwarding k kind n).dealer = s.dealer ∧ (s.forwarding k kind n).cad = s.cad :=
  ⟨foldl_keeps State.dealer (fun _ _ => by simp) _ _, foldl_keeps State.cad (fun _ _ => by simp) _ _⟩

theorem State.forwarding_dealing (s : State) (k kind : Nat) (n : Notice) : (s.forwarding k kind n).dealing = s.dealing := by
  rw [State.dealing, (s.forwarding_frame k kind n).2]; rfl

/-- Dropping the held re-deal leaves none, and the group as it is. -/
theorem State.dropRedeal_none (s : State) (status : Nat) : (s.dropRedeal status).dealer.redeal = none ∧ (s.dropRedeal status).group = s.group := by
  unfold State.dropRedeal
  split
  · next none => exact ⟨none, rfl⟩
  · next p held =>
    have sheet : ∀ u : State, (u.finishSheet p status).dealer = u.dealer ∧ (u.finishSheet p status).group = u.group := fun u => by
      unfold State.finishSheet; split <;> simp
    dsimp only
    rw [foldl_keeps State.dealer (fun u h => by simp [State.holdSeat]), foldl_keeps State.group (fun u h => by simp [State.holdSeat])]
    simp [State.suspectsToBist, sheet]

theorem State.diverge_diverged (s : State) : s.diverge.group.diverged = true ∧ s.diverge.dealer.redeal = none := by
  obtain ⟨redeal, group⟩ := State.dropRedeal_none { s with group := { s.group with diverged := true } } 0x0D
  exact ⟨congrArg Group.diverged group, redeal⟩

section
variable {s : State} {k : Nat} {n : Notice} (hears : s.hears k n = true) (new : ∀ r ∈ s.group.records, r.note ≠ n)
include hears new

theorem execCauseNotice_causes (dealing : s.dealing = true) (later : s.cad.deal ≤ n.deal) (kept : bits n.arg.toNat 8 8 ≠ 0x74) :
    execCauseNotice k n s = .next { s.forwarding k 2 n with dealer := { s.dealer with causes := s.dealer.causes ++ [
      { deal := n.deal, rank := bits n.arg.toNat 0 8, detail := bits n.arg.toNat 8 8, member := n.member, remote := true, slot := 0xFFF, die := 0, place := 0
        repair := bit n.arg.toNat 16 }] } } := by
  rw [execCauseNotice, State.hear_heard hears new]
  dsimp only
  rw [if_neg kept, if_pos (by simp [State.forwarding_dealing, dealing, later]), (s.forwarding_frame k 2 n).1]

theorem execCauseNotice_diverges (diverges : bits n.arg.toNat 8 8 = 0x74) :
    ∃ t, execCauseNotice k n s = .next t ∧ t.group.diverged = true ∧ t.dealer.redeal = none := by
  rw [execCauseNotice, State.hear_heard hears new]
  dsimp only
  rw [if_pos diverges]
  exact ⟨_, rfl, State.diverge_diverged _⟩

theorem execNoRedealNotice_idle (none : s.dealer.redeal = none) : execNoRedealNotice k n s = .next (s.forwarding k 4 n) := by
  rw [execNoRedealNotice, State.hear_heard hears new]
  dsimp only
  rw [(s.forwarding_frame k 4 n).1, none]

theorem execNoRedealNotice_drops : ∃ t, execNoRedealNotice k n s = .next t ∧ t.dealer.redeal = none := by
  rw [execNoRedealNotice, State.hear_heard hears new]
  refine ⟨_, rfl, ?_⟩
  split
  · assumption
  · exact (State.dropRedeal_none _ 0x06).1
end

/-! ### Selections and bindings -/

theorem State.splitGroup_splits (s : State) : s.splitGroup.group.idleNext = true ∧ s.splitGroup.dealer = { s.dealer with selected := none } ∧ s.splitGroup.cad = s.cad
    ∧ s.splitGroup.seats = s.seats ∧ s.splitGroup.mem = s.mem := by
  have finished : ∀ p status, (s.finishSheet p status).dealer = s.dealer ∧ (s.finishSheet p status).cad = s.cad ∧ (s.finishSheet p status).seats = s.seats
      ∧ (s.finishSheet p status).mem = s.mem := fun p status => by unfold State.finishSheet; split <;> simp
  unfold State.splitGroup
  split
  · split <;> simp [finished]
  · simp

theorem execGroupCompare_judged {s : State} (grouped : s.inGroup = true) (first : s.cad.compared = false) (dealing : s.dealing = true) (due : s.atLeft 128 = true)
    (alike : outcomesDiffer (s.selects (s.cad.deal + 1)) = false) :
    execGroupCompare s = .next (if s.selectsAgree (s.cad.deal + 1) then { s with cad := { s.cad with compared := true } }
      else State.splitGroup { s with cad := { s.cad with compared := true } }) := by
  unfold execGroupCompare
  rw [if_neg (by simp [grouped, first, dealing, due])]
  dsimp only
  rw [if_neg (by rw [show State.selects { s with cad := { s.cad with compared := true } } (s.cad.deal + 1) = s.selects (s.cad.deal + 1) from rfl, alike]; decide)]
  rfl

theorem execBindingEffect_binds {s : State} {b : Option Binding} (stored : s.group.stored = some b) (running : s.groupedPlan s.dealer.running = false)
    (selected : s.groupedPlan s.dealer.selected = false) (redeal : s.groupedPlan s.dealer.redeal = false) :
    execBindingEffect s = .next { s with group := { s.group with binding := b, stored := none, records := [], diverged := false, idleNext := false } } := by
  rw [execBindingEffect, stored]
  exact congrArg Host.Outcome.next (if_neg (by simp [running, selected, redeal]))

theorem execBindingEffect_waits {s : State} (selected : s.groupedPlan s.dealer.selected = true) : execBindingEffect s = .next s := by
  unfold execBindingEffect
  split
  · rfl
  · exact congrArg Host.Outcome.next (if_pos (by simp [selected]))

/-! ### The Banker -/

/-- What a Hatband-ready start candidate that listens on has (R373). -/
structure State.Listens (s : State) : Prop where
  ready : s.start.stage ≠ 0
  undecided : s.cascade.elected = false
  follows : s.cascade.isBanker = false
  sound : s.sec.lifeCycle ≠ 4
  candidate : s.board.bankerEn = true ∨ s.dict.settings.candidate = 1

theorem State.Listens.elects {s : State} (l : s.Listens) : execBankerElectionTimeout s = .next (
    let u : State := { s.advanceTo (s.start.readyPs + 100000000) with cascade := { s.cascade with elected := true } }
    if s.hb.lastHdr.isSome then u.post (logItem 0 0x72 0 0)
    else
      let g := s.dict.settings
      let v := u.becomeBanker 0 g.lenPlan g.periodPlan g.lenPlan g.periodPlan false
      { v with cascade := { v.cascade with syncWait := bit g.refSync 0 && bit g.refSync 1 } }) := by
  have listens : ¬((s.start.stage = 0 || s.cascade.elected || s.cascade.isBanker || s.sec.lifeCycle = 4 || !(s.board.bankerEn || s.dict.settings.candidate = 1)) = true) := by
    rcases l.candidate with marked | chosen
    · simp [l.ready, l.undecided, l.follows, l.sound, marked]
    · simp [l.ready, l.undecided, l.follows, l.sound, chosen]
  unfold execBankerElectionTimeout
  rw [if_neg listens]
  rfl

theorem execBankerTakeover_takes {s : State} {h : HbHeader} (heard : s.hb.lastHdr = some h) (ready : s.start.stage ≠ 0) (follows : s.cascade.isBanker = false)
    (sound : s.sec.lifeCycle ≠ 4) (eligible : s.dict.settings.eligible ≠ 0) (alone : s.hb.dup = false) (handover : Bool) :
    execBankerTakeover handover s = .next ((s.advanceTo (s.hb.headerPs + (if handover then 0 else 24000000 + (s.bankerRank h.bankerId - 1) * 16000000))).becomeBanker
      (h.curDeal + 1) 2048 h.nextPeriod h.nextLen h.nextPeriod true) := by
  unfold execBankerTakeover
  rw [heard]
  exact congrArg Host.Outcome.next (if_neg (by simp [ready, follows, sound, eligible, alone]))

/-- The first edge after `now`, of edges a period `p` apart, one of them at `start` (R393). -/
theorem next_edge {start now p : Nat} (periodic : 0 < p) :
    now < start + ((now - start) / p + 1) * p ∧ (start ≤ now → start + ((now - start) / p + 1) * p ≤ now + p) := by
  have split := Nat.div_add_mod (now - start) p
  have below := Nat.mod_lt (now - start) periodic
  rw [Nat.add_mul, Nat.one_mul, Nat.mul_comm]
  constructor
  · omega
  · intro; omega

end Sys2Proof.Machine

namespace Sys2Proof.Proofs
open Sys2Proof Sys2Proof.Machine

/-- Settles O47: each command by what the link shows. -/
theorem deckLinksCarryFlits : Obligations.DeckLinksCarryFlits := by
  refine ⟨fun k s => execLinkTrained_up, fun k s => execLinkDown_unbound, fun k addr far n s up => ⟨execDeckIdent_far up n addr far, fun unbound =>
    execDeckIdent_otherRing up unbound n addr far⟩, fun k a s up => ⟨fun progress => ?_, fun still early => ?_, fun still last unbound => ?_⟩, fun k f s up => ?_⟩
  · exact (execDeckNak_up up a).trans (congrArg _ (State.nak_progress progress))
  · exact (execDeckNak_up up a).trans (congrArg _ (State.nak_again still early))
  · exact (execDeckNak_up up a).trans (congrArg _ ((State.nak_last still last).trans (State.dropLink_unbound unbound)))
  · refine ⟨execDeckDataFlit_bad up, fun good => execDeckDataFlit_notice up (by simp [good]), fun good type => ⟨execDeckDataFlit_pass up (by simp [good]) type, ?_⟩,
      fun x good type gathers => ?_, fun good type later stray => ?_⟩
    · simp [owedFor, type, boolNat]
    · have data := execDeckDataFlit_data up (by simp [good]) type
      have gathers' : (if f.first then some (parseXfer (f.payload.take f.len)) else
          ((s.setLink k ((s.deckLink k).taking f)).deckLink k).xfer.map (fun y => { y with data := y.data ++ f.payload.take f.len })) = some x := by
        rw [State.deckLink_setLink_same]; exact gathers
      refine ⟨fun more => data.trans ?_, fun whole foreign => data.trans ?_⟩
      · rw [State.dataPayload_more gathers' more]; simp; rfl
      · rw [State.dataPayload_whole gathers' whole, State.landXfer_foreign (by simpa using foreign)]; simp; rfl
    · refine (execDeckDataFlit_data up (by simp [good]) type).trans (congrArg _ (State.dataPayload_stray later ?_))
      rw [State.deckLink_setLink_same]; exact stray

/-- Settles O48: a record by whether it is heard, a comparison by whether the selections agree, a binding by the plans that stand. -/
theorem groupNoticesAndBindings : Obligations.GroupNoticesAndBindings := by
  refine ⟨fun k n s => ⟨fun hears new => ?_, fun deaf => ?_⟩, fun s grouped first dealing due alike => ?_, fun b s => execBindingEffect_binds, fun s => execBindingEffect_waits⟩
  · have held : ∀ kind, (Host.Outcome.next (s.hear k kind n (fun s => s)) : Out) = .next (s.forwarding k kind n) := fun kind =>
      congrArg _ (State.hear_heard hears new kind _)
    exact ⟨held 1, held 3, held 5, execCauseNotice_causes hears new, execCauseNotice_diverges hears new, execNoRedealNotice_idle hears new, execNoRedealNotice_drops hears new⟩
  · have same : ∀ kind effect, (Host.Outcome.next (s.hear k kind n effect) : Out) = .next s := fun kind effect => congrArg _ (State.hear_deaf deaf kind effect)
    exact ⟨same .., same .., same .., same .., same ..⟩
  · have judged := execGroupCompare_judged grouped first dealing due alike
    refine ⟨fun agree => judged.trans (congrArg _ (if_pos agree)), fun differ => ?_⟩
    obtain ⟨idle, dealer, cad, seats, mem⟩ := State.splitGroup_splits { s with cad := { s.cad with compared := true } }
    refine ⟨_, judged.trans (congrArg _ (if_neg (by simp [differ]))), by rw [cad], idle, ?_, ?_, ?_, seats, congrArg Memory.bytes mem⟩ <;> rw [dealer]

/-- Settles O49: the candidate's and the successor's conditions, and the first edge after SYNC_IN. -/
theorem bankersComeAndGo : Obligations.BankersComeAndGo := by
  refine ⟨fun s ready undecided follows sound candidate => ?_, fun h handover s heard ready follows sound eligible alone => ?_, fun s banker locks => ?_,
    fun s banker waits periodic => ?_⟩
  · have elects := State.Listens.elects ⟨ready, undecided, follows, sound, candidate⟩
    refine ⟨fun quiet => ?_, fun heard => ?_⟩
    · refine ⟨_, elects.trans (congrArg _ (if_neg (by simp [quiet]))), ?_⟩
      and_intros <;> rfl
    · refine ⟨_, elects.trans (congrArg _ (if_pos heard)), ?_⟩
      simp [follows]
  · refine ⟨_, execBankerTakeover_takes heard ready follows sound eligible alone handover, ?_⟩
    and_intros <;> rfl
  · exact ⟨fun locked => congrArg Host.Outcome.next (if_pos (by simp [banker, locks, locked])), fun held => congrArg Host.Outcome.next (if_neg (by simp [held])),
      congrArg Host.Outcome.next (if_pos (by simp [banker, locks]))⟩
  · obtain ⟨after, near⟩ := next_edge (start := s.cascade.genPs) (now := s.now) (Nat.mul_pos (by decide : 0 < 1000) periodic)
    exact ⟨_, congrArg Host.Outcome.next (if_pos (by simp [banker, waits])), rfl, after, near, rfl⟩

end Sys2Proof.Proofs
end


section
/-! Calls on the Hatband: the answer a node gives in its slot (R411, R412, R414, R416). -/

namespace Sys2Proof.Machine

variable {s : State} {n : Nat} {c : HbCall}

/-- A used call of another node, in a good slot, meets a node on the ring. -/
structure State.Meets (s : State) (c : HbCall) : Prop where
  alive : s.board.hbAlive = true
  ok : c.ok = true
  used : c.used = true
  others : c.caller ≠ s.hb.addr

/-- The call is unicast to this node, whose address no other has, and is not yet answered. -/
structure State.Asked (s : State) (c : HbCall) : Prop extends s.Meets c where
  unicast : c.kind ≠ 2
  mine : c.target = s.hb.addr
  alone : s.hb.dup = false
  fresh : c.status = 0

/-- The answer is kept in its slot. -/
def State.keepAnswer (s : State) (n : Nat) (c : HbCall) : State := { s with hb := { s.hb with answers := aset n c s.hb.answers } }

theorem State.Asked.met (asks : s.Asked c) : s.meetCall n c = (s.answerUnicast n c).2.keepAnswer n (s.answerUnicast n c).1 := by
  have answers : s.answerCall n c = ((s.answerUnicast n c).1, false, (s.answerUnicast n c).2) := by
    rw [State.answerCall, if_neg (by simp [asks.ok, asks.used, asks.others]), if_neg asks.unicast, if_neg (by simp [asks.mine, asks.alone]),
      if_neg (not_not.mpr asks.fresh)]
  rw [State.meetCall, if_neg (by simp [asks.alive]), answers]
  rfl

theorem State.Meets.met (meets : s.Meets c) (broadcast : c.kind = 2) : s.meetCall n c = s.keepAnswer n (s.answerBroadcast n c) := by
  have answers : s.answerCall n c = (s.answerBroadcast n c, false, s) := by
    rw [State.answerCall, if_neg (by simp [meets.ok, meets.used, meets.others]), if_pos broadcast]
  rw [State.meetCall, if_neg (by simp [meets.alive]), answers]
  rfl

/-! ### Unicast calls -/

theorem State.answerUnicast_asleep (asleep : s.responder = true) : s.answerUnicast n c = (replied c 0x04 [], s) := if_pos asleep

section
variable (awake : s.responder = false) (sound : s.sec.lifeCycle ≠ 4)
include awake sound

theorem State.answerUnicast_barred (barred : s.callAllowed n c = false) : s.answerUnicast n c = (replied c 0x03 [], s.security 0xAD c.caller 0 0 0) := by
  rw [State.answerUnicast, if_neg (by simp [awake]), if_neg (by simp [sound]), if_pos (by simp [barred])]

variable (allowed : s.callAllowed n c = true) (formed : badCall c = false)
include allowed formed

theorem State.answerUnicast_read (read : c.kind ≠ 1) :
    s.answerUnicast n c = (replied c (s.callRead n c).1 (s.callRead n c).2.1, (s.callRead n c).2.2) := by
  rw [State.answerUnicast, if_neg (by simp [awake]), if_neg (by simp [sound]), if_neg (by simp [allowed]), if_neg (by simp [formed]), if_neg read]

theorem State.answerUnicast_write (write : c.kind = 1) :
    s.answerUnicast n c = (replied c (s.callWrite n c).1 (s.callWrite n c).2.1, (s.callWrite n c).2.2) := by
  rw [State.answerUnicast, if_neg (by simp [awake]), if_neg (by simp [sound]), if_neg (by simp [allowed]), if_neg (by simp [formed]), if_pos write]
end

/-- A call that is not bad asks for no more than its slot holds (Table 14.7). -/
theorem badCall_len (formed : badCall c = false) : c.len ≤ 32 := by
  simp [badCall] at formed
  omega

theorem State.callRead_fixed {e : OdEntry} (opened : s.gate (.ring n c.cls c.caller) c.index c.sub false = 0) (entry : odEntry c.index c.sub = some e)
    (fast : e.slow = false) (fixed : typeWidth e.type ≠ 0) (whole : c.offset = 0) (room : typeWidth e.type ≤ c.len) (slot : c.len ≤ 32) :
    s.callRead n c = (0x01, toLe (s.odNat c.index c.sub) (typeWidth e.type), s) := by
  have value : s.odValue e c.index c.sub = toLe (s.odNat c.index c.sub) (typeWidth e.type) := if_neg fixed
  simp only [State.callRead, opened, entry, fast, whole, State.access_read opened entry fixed room slot, value]
  rfl

theorem State.callWrite_repeat {w : LastWrite} (held : s.hb.lastWrites.find? (fun w => decide (w.caller = c.caller) && decide (w.tag = c.tag)) = some w) :
    s.callWrite n c = (w.status, w.data, s) := by
  rw [State.callWrite, held]

/-- The data of the access is what its length takes of the slot's. -/
theorem State.access_step_takes (s : State) (p : Path) (d : Bytes) :
    s.access { path := p, index := 0x1300, sub := 0x23, write := true, offset := 0, len := 1, data := d } = s.access (stepAccess p true (d.take 1)) := by
  cases d <;> rfl

theorem State.callWrite_step (new : s.hb.lastWrites.find? (fun w => decide (w.caller = c.caller) && decide (w.tag = c.tag)) = none)
    (opened : s.gate (.ring n c.cls c.caller) 0x1300 0x23 true = 0) (index : c.index = 0x1300) (sub : c.sub = 0x23) (whole : c.offset = 0) (len : c.len = 1)
    (least : 1 ≤ byteAt c.data 0) (most : byteAt c.data 0 ≤ 40) :
    s.callWrite n c = (0x01, [], { s.withStep (byteAt c.data 0) with
      hb := { s.hb with lastWrites := s.hb.lastWrites.filter (fun w => decide (w.caller ≠ c.caller)) ++ [{ caller := c.caller, tag := c.tag, status := 1, data := [] }] } }) := by
  obtain ⟨b, rest, data⟩ : ∃ b rest, c.data = b :: rest := List.exists_cons_of_ne_nil (by rintro none; simp [byteAt, none] at least)
  have first : byteAt (c.data.take 1) 0 = byteAt c.data 0 := by rw [data]; rfl
  have access := State.access_writes_step (v := c.data.take 1) opened (by rw [data]; rfl) (first ▸ least) (first ▸ most)
  simp only [State.callWrite, new, index, sub, whole, len, State.access_step_takes, access, first, refusedData]
  rfl

/-! ### What is kept of them -/

theorem State.Asked.asleep (asked : s.Asked c) (asleep : s.responder = true) : s.meetCall n c = s.keepAnswer n (replied c 0x04 []) := by
  rw [asked.met, State.answerUnicast_asleep asleep]

section
variable (asked : s.Asked c) (awake : s.responder = false) (sound : s.sec.lifeCycle ≠ 4)
include asked awake sound

theorem State.Asked.barred (barred : s.callAllowed n c = false) : s.meetCall n c = (s.security 0xAD c.caller 0 0 0).keepAnswer n (replied c 0x03 []) := by
  rw [asked.met, State.answerUnicast_barred awake sound barred]

variable (allowed : s.callAllowed n c = true) (formed : badCall c = false)
include allowed formed

theorem State.Asked.reads {e : OdEntry} (read : c.kind ≠ 1) (opened : s.gate (.ring n c.cls c.caller) c.index c.sub false = 0) (entry : odEntry c.index c.sub = some e)
    (fast : e.slow = false) (fixed : typeWidth e.type ≠ 0) (whole : c.offset = 0) (room : typeWidth e.type ≤ c.len) :
    s.meetCall n c = s.keepAnswer n (replied c 0x01 (toLe (s.odNat c.index c.sub) (typeWidth e.type))) := by
  rw [asked.met, State.answerUnicast_read awake sound allowed formed read, State.callRead_fixed opened entry fast fixed whole room (badCall_len formed)]

theorem State.Asked.writes (write : c.kind = 1) : s.meetCall n c = (s.callWrite n c).2.2.keepAnswer n (replied c (s.callWrite n c).1 (s.callWrite n c).2.1) := by
  rw [asked.met, State.answerUnicast_write awake sound allowed formed write]
end

/-! ### Broadcast reads -/

theorem State.answerBroadcast_adds {w : Nat} (formed : badCall c = false) (allowed : s.callAllowed n c = true) (length : c.len = 1 ∨ c.len = 2 ∨ c.len = 4 ∨ c.len = 8)
    (awake : s.responder = false) (adds : s.contribution (.ring n c.cls c.caller) c.index c.sub c.len = some w) :
    s.answerBroadcast n c = { c with
      data := toLe (combine c.op c.len (leAll (c.data.take c.len)) w) c.len ++ c.data.drop c.len, contrib := c.contrib + 1 } := by
  rw [State.answerBroadcast, if_neg (by simp [formed, allowed, awake, length]), adds]

theorem State.answerBroadcast_passes (none : s.contribution (.ring n c.cls c.caller) c.index c.sub c.len = none) : s.answerBroadcast n c = c := by
  rw [State.answerBroadcast, none]
  exact ite_self c

end Sys2Proof.Machine

namespace Sys2Proof.Proofs
open Sys2Proof Sys2Proof.Machine

/-- Settles O44: each call by the first check that turns it away, or by its access. -/
theorem ringCallsAreAnswered : Obligations.RingCallsAreAnswered := by
  refine ⟨fun n c e s alive ok used others mine alone fresh => ?_, fun n c s alive ok used others mine alone fresh awake sound allowed formed => ?_,
    fun n c s alive ok used others => ?_⟩
  · have asked : s.Asked { c with kind := 0 } := { alive, ok, used, others, mine, alone, fresh, unicast := by simp }
    refine ⟨fun asleep => congrArg _ (asked.asleep asleep), fun awake sound allowed formed opened entry fast fixed whole room _ =>
      congrArg _ (asked.reads awake sound allowed formed (by simp) opened entry fast fixed whole room), fun awake sound barred => ?_⟩
    refine congrArg Host.Outcome.next ((asked.barred awake sound barred).trans ?_)
    simp [State.keepAnswer]
  · have asked : s.Asked { c with kind := 1 } := { alive, ok, used, others, mine, alone, fresh, unicast := by simp }
    have writes := asked.writes awake sound allowed formed rfl
    refine ⟨fun w held => congrArg _ (writes.trans ?_), fun new opened index sub whole len least most => congrArg _ (writes.trans ?_)⟩
    · rw [State.callWrite_repeat (c := { c with kind := 1 }) held]; rfl
    · rw [State.callWrite_step (c := { c with kind := 1 }) new opened index sub whole len least most]; rfl
  · have meets : s.Meets { c with kind := 2 } := { alive, ok, used, others }
    exact ⟨fun w formed allowed length awake adds => congrArg _ ((meets.met rfl).trans (congrArg _ (State.answerBroadcast_adds formed allowed length awake adds))),
      fun none => congrArg _ ((meets.met rfl).trans (congrArg _ (State.answerBroadcast_passes none)))⟩

end Sys2Proof.Proofs
end


section
/-!
What deciding a deal, leaving the table, closing the open window and the self-test leave alone: the clock's time, the ring, the dictionary, the board, the power unit, the debug level with the grant that waits, and the open window.
-/

namespace Sys2Proof.Machine

/-- State `t` stands beside `s`: the units that neither deal nor repair nor compute are as they are in `s`. -/
@[simp] abbrev State.Beside (t s : State) : Prop :=
  t.now = s.now ∧ t.hb = s.hb ∧ t.dict = s.dict ∧ t.board = s.board ∧ t.power = s.power ∧ t.sec.level = s.sec.level ∧ t.sec.openWait = s.sec.openWait ∧ t.svis.openWin = s.svis.openWin

theorem State.Beside.trans {s t u : State} (h : u.Beside t) (g : t.Beside s) : u.Beside s := by
  obtain ⟨a, b, c, d, e, f, i, j⟩ := g
  simpa only [State.Beside, a, b, c, d, e, f, i, j] using h

theorem foldl_beside {α : Type} {f : State → α → State} (l : List α) (s : State) (keeps : ∀ s x, (f s x).Beside s) : (l.foldl f s).Beside s := by
  induction l generalizing s with
  | nil => simp
  | cons x l ih => exact (ih _).trans (keeps s x)

theorem foldl_snd_beside {α β : Type} {f : β × State → α → β × State} (l : List α) (acc : β × State) (keeps : ∀ acc x, (f acc x).2.Beside acc.2) :
    (l.foldl f acc).2.Beside acc.2 := by
  induction l generalizing acc with
  | nil => simp
  | cons x l ih => exact (ih _).trans (keeps acc x)

/-- Two states that differ in the caches alone stand beside each other. -/
theorem State.beside_of_still {s t : State} (same : t.still = s.still) : t.Beside s :=
  ⟨(congrArg State.now same :), (congrArg State.hb same :), (congrArg State.dict same :), (congrArg State.board same :), (congrArg State.power same :),
    (congrArg (fun u => u.sec.level) same :), (congrArg (fun u => u.sec.openWait) same :), (congrArg (fun u => u.svis.openWin) same :)⟩

variable (s : State)

/-! ### Items and programs -/

@[simp] theorem State.setCore_openWin (k : Nat) (c : Core) : (s.setCore k c).svis.openWin = s.svis.openWin := rfl
@[simp] theorem State.setCstore_openWin (k : Nat) (c : Cluster) : (s.setCstore k c).svis.openWin = s.svis.openWin := rfl

@[simp] theorem State.setStore_openWin (r : StoreRef) (cells : List Host.Cell) (marks : List Nat) : (s.setStore r cells marks).svis.openWin = s.svis.openWin := by
  unfold State.setStore; split <;> rfl

@[simp] theorem State.setRegions_openWin (r : StoreRef) (l : List StoreRegion) : (s.setRegions r l).svis.openWin = s.svis.openWin := by
  unfold State.setRegions; split <;> rfl

@[simp] theorem State.applyHbm_beside (l : List (Nat × Bytes)) : (s.applyHbm l).Beside s := foldl_beside l s fun _ _ => by simp
@[simp] theorem State.applyWrite_beside (w : StoreWrite) : (s.applyWrite w).Beside s := foldl_beside _ s fun _ _ => by simp
@[simp] theorem State.postChip_beside (k chip cycle : Nat) : (s.postChip k chip cycle).Beside s := by simp [State.postChip]
@[simp] theorem State.noteUndo_beside (h : List (Nat × Bytes)) : (s.noteUndo h).Beside s := by simp [State.noteUndo]

@[simp] theorem State.releaseRegions_beside (r : StoreRef) : (s.releaseRegions r).Beside s := by
  unfold State.releaseRegions; dsimp only; split <;> simp

@[simp] theorem State.orderLandings_beside (i : Item) : (s.orderLandings i).Beside s := by
  unfold State.orderLandings
  split
  · simp
  · split
    · simp
    · exact (foldl_beside _ _ fun _ _ => by simp).trans (by simp)

@[simp] theorem State.completeItem_beside (i : Item) : (s.completeItem i).Beside s := by
  unfold State.completeItem
  refine (foldl_beside i.refs _ fun _ _ => by simp).trans ((foldl_beside i.remote _ fun _ _ => by simp).trans ?_)
  have written : ∀ u : State, (i.writes.foldl State.applyWrite u).Beside u := fun u => foldl_beside _ u fun _ _ => by simp
  have landed : ∀ u : State, State.Beside (match i.owner with | .deal _ => u.noteUndo i.hbm | .program _ _ => u) u := fun u => by split <;> simp
  have registered : ∀ u : State, State.Beside (match i.reg with | some (r, v) => u.setCore i.core ((u.core i.core).writeReg r i.done v) | none => u) u :=
    fun u => by split <;> simp
  have posted : ∀ u : State, State.Beside (match i.post with | some p => u.postChip i.core p i.done | none => u) u := fun u => by split <;> simp
  exact (posted _).trans ((registered _).trans ((State.applyHbm_beside _ _).trans ((landed _).trans ((State.orderLandings_beside _ i).trans (written _)))))

@[simp] theorem State.finishOf_beside (id : Nat) : (s.finishOf id).Beside s := foldl_beside _ s fun _ _ => by simp

@[simp] theorem State.stopProgram_beside (id status word : Nat) : (s.stopProgram id status word).Beside s := by
  unfold State.stopProgram; split <;> simp [State.dropProgram]

@[simp] theorem State.stopAt_beside (id status : Nat) : (s.stopAt id status).Beside s := by simp [State.stopAt, State.takeFree]

@[simp] theorem State.loseStores_beside (info : NativeInfo) : (s.loseStores info).Beside s := by
  unfold State.loseStores
  exact (foldl_beside _ _ fun _ _ => by simp).trans (foldl_beside _ s fun _ _ => by simp)

@[simp] theorem State.closeWindow_beside : s.closeWindow.Beside { s with svis := { s.svis with openWin := none } } := by
  have closes : (s.svis.programs.filter (fun p => p.start.isSome)).foldl State.closeProgram s |>.Beside s := foldl_beside _ s fun u p => by
    unfold State.closeProgram
    cases p.fault <;> simp
  rw [s.closeWindow_eq]
  obtain ⟨now, hb, dict, board, power, level, openWait, -⟩ := closes
  exact ⟨now, hb, dict, board, power, level, openWait, rfl⟩

@[simp] theorem State.clearCompute_beside : s.clearCompute.Beside { s with svis := { s.svis with openWin := none } } := s.closeWindow_beside

/-! ### Repairs -/

@[simp] theorem State.queuePost_beside (r : EvReq) : (s.queuePost r).Beside s := by
  unfold State.queuePost
  split
  · simp
  · split <;> simp

@[simp] theorem State.repairEvent_beside (action rank detail place guard : Nat) : (s.repairEvent action rank detail place guard).Beside s := s.queuePost_beside _

@[simp] theorem State.setCluster_beside (key : Nat) (m : ClusterMap) : (s.setCluster key m).Beside s := by simp [State.setCluster]
@[simp] theorem State.setDie_beside (d : Nat) (f : DieMap → DieMap) : (s.setDie d f).Beside s := by simp [State.setDie]
@[simp] theorem State.shortDeck_beside (d before : Nat) : (s.shortDeck d before).Beside s := by unfold State.shortDeck; split <;> simp

@[simp] theorem State.retireColumn_beside (d col rank detail : Nat) : (s.retireColumn d col rank detail).Beside s := by
  unfold State.retireColumn; dsimp only; split <;> simp

@[simp] theorem State.loseDie_beside (d rank detail : Nat) : (s.loseDie d rank detail).Beside s := by
  unfold State.loseDie; dsimp only; split <;> simp

theorem State.substitute_beside {s t : State} {d row col c : Nat} {excl : Option Nat} (h : s.substitute d row col c excl = some t) : t.Beside s := by
  unfold State.substitute at h
  split at h
  · cases h
  · cases h; simp

@[simp] theorem State.setCondemned_beside (d row col p : Nat) : (s.setCondemned d row col p).Beside s := by simp [State.setCondemned]

@[simp] theorem State.condemn_beside (d row col p rank detail : Nat) : (s.condemn d row col p rank detail).Beside s := by
  unfold State.condemn
  dsimp only
  split
  · simp
  · split
    next taken => exact State.Beside.trans (by simp) ((State.substitute_beside taken).trans (by simp))
    next => simp

@[simp] theorem State.repairUnit_beside (u : UnitRef) (rank detail : Nat) : (s.repairUnit u rank detail).Beside s := by
  unfold State.repairUnit; split <;> simp

@[simp] theorem State.transient_beside : s.transient.Beside s := by simp [State.transient]

@[simp] theorem State.markUnit_beside (u : UnitRef) (rank detail : Nat) : (s.markUnit u rank detail).Beside s := by
  unfold State.markUnit; dsimp only; split <;> simp

@[simp] theorem State.watch_beside : s.watch.Beside s := (foldl_beside _ _ fun _ _ => by simp).trans (by simp)
@[simp] theorem State.clearSuspect_beside (x : Suspect) : (s.clearSuspect x).Beside s := by simp [State.clearSuspect]

@[simp] theorem State.substituteSuspect_beside (x : Suspect) : (s.substituteSuspect x).Beside s := by
  unfold State.substituteSuspect
  dsimp only
  split
  next taken => exact State.Beside.trans (by simp) ((State.substitute_beside taken).trans (by simp))
  next => split <;> simp

@[simp] theorem State.verdict_beside (x : Suspect) : (s.verdict x).Beside s := by
  unfold State.verdict
  dsimp only
  split
  · simp
  · split
    · split <;> simp
    · split
      · simp
      · split
        · simp
        · split
          · simp
          · split
            · split
              · simp
              · split
                next taken => exact State.Beside.trans (by simp) ((State.substitute_beside taken).trans (by simp))
                next => simp
            · simp

@[simp] theorem State.decisionRepairs_beside : s.decisionRepairs.Beside s := by
  unfold State.decisionRepairs
  extract_lets judged settled
  have judges : judged.Beside s := foldl_beside _ s fun u _ => u.verdict_beside _
  have settles : settled.Beside judged := foldl_beside _ judged fun u _ => u.substituteSuspect_beside _
  exact settled.watch_beside.trans (settles.trans judges)

@[simp] theorem State.suspectsToBist_beside : s.suspectsToBist.Beside s := by simp [State.suspectsToBist]

@[simp] theorem State.raiseGuard_beside (ns deal : Nat) : (s.raiseGuard ns deal).Beside s := by
  unfold State.raiseGuard
  split
  · simp
  · dsimp only; split <;> simp

@[simp] theorem State.agingAtDecision_beside : s.agingAtDecision.Beside s := (State.raiseGuard_beside _ _ _).trans (by simp)

@[simp] theorem State.bistSuspect_beside (failed : List UnitRef) (x : Suspect) : (s.bistSuspect failed x).Beside s := by
  unfold State.bistSuspect; dsimp only; split <;> simp

@[simp] theorem State.bist_beside (failed : List UnitRef) : (s.bist failed).Beside s := by
  have tested : ∀ l : List Suspect, (l.foldl (fun s x => s.bistSuspect failed x) s).Beside s := fun l => foldl_beside l s fun _ _ => by simp
  have repaired : ∀ u : State, (failed.foldl (fun s u => s.repairUnit u 3 0x30) u).Beside u := fun u => foldl_beside failed u fun _ _ => by simp
  simpa [State.bist] using (State.watch_beside _).trans ((repaired _).trans (tested (s.repair.suspects.filter (·.awaitBist))))

/-! ### The decision of a deal -/

@[simp] theorem State.foldFound_beside (p : Plan) (d seat c : Nat) : (s.foldFound p d seat c).2.Beside s := by simp [State.foldFound]

@[simp] theorem State.judgeOwner_beside (p : Plan) (d pa seatCause detail : Nat) : (s.judgeOwner p d pa seatCause detail).2.Beside s := by
  unfold State.judgeOwner
  split
  · simp
  · simp
  · split <;> simp
  · simp

@[simp] theorem State.judgeReads_beside (p : Plan) (d : Nat) : (s.judgeReads p d).2.Beside s := by
  unfold State.judgeReads
  exact (foldl_snd_beside _ _ fun acc _ => acc.2.judgeOwner_beside _ _ _ _ _).trans
    ((foldl_snd_beside _ _ fun acc _ => acc.2.judgeOwner_beside _ _ _ _ _).trans (by simp))

@[simp] theorem State.judgeWords_beside (p : Plan) : (s.judgeWords p).2.Beside s := by
  refine foldl_snd_beside _ (p, s) fun acc e => ?_
  split
  · simp
  · split
    · simp
    · split <;> simp

@[simp] theorem State.judgeRunning_beside : s.judgeRunning.Beside s := by
  unfold State.judgeRunning
  split
  · simp
  · exact State.judgeReads_beside _ _ _

@[simp] theorem State.gather_beside (p : Plan) : (s.gather p).2.Beside s := by
  unfold State.gather
  refine (State.judgeReads_beside _ _ _).trans ?_
  split <;> simp

@[simp] theorem State.queueMark_beside (r : EvReq) : (s.queueMark r).Beside s := by simp [State.queueMark]
@[simp] theorem State.chargeHouse_beside (c : List Nat) : (s.chargeHouse c).Beside s := by simp [State.chargeHouse]
@[simp] theorem State.applyClears_beside : s.applyClears.Beside s := by simp [State.applyClears]
@[simp] theorem State.applyPcie_beside : s.applyPcie.Beside s := by simp [State.applyPcie]

@[simp] theorem State.handOff_beside (p : Plan) (f : Form) (e : Entry) (before : Seat) : (s.handOff p f e before).Beside s := by
  unfold State.handOff
  extract_lets sl
  split <;> simp

@[simp] theorem State.commitEntry_beside (p : Plan) (f : Form) (committed : List Entry) (e : Entry) : (s.commitEntry p f committed e).Beside s := by
  unfold State.commitEntry
  dsimp only
  split <;> split <;> simp

@[simp] theorem State.foldEntry_beside (e : Entry) (c : Nat) : (s.foldEntry e c).Beside s := by simp [State.foldEntry]
@[simp] theorem State.reseat_beside (i : Nat) : (s.reseat i).Beside s := by unfold State.reseat; split <;> simp
@[simp] theorem State.holdSeat_beside (i cause : Nat) : (s.holdSeat i cause).Beside s := by simp [State.holdSeat]

@[simp] theorem State.settleHolds_beside (d : Nat) : (s.settleHolds d).Beside s := by
  unfold State.settleHolds
  refine (foldl_beside _ _ fun u h => ?_).trans (by simp)
  dsimp only
  split <;> simp

@[simp] theorem State.finishSheet_beside (p : Plan) (status : Nat) : (s.finishSheet p status).Beside s := by unfold State.finishSheet; split <;> simp

@[simp] theorem State.discardSelected_beside : s.discardSelected.Beside s := by
  unfold State.discardSelected
  dsimp only
  split
  · split <;> simp
  · simp

@[simp] theorem State.displace_beside (target : Nat) : (s.displace target).Beside s := (foldl_beside _ _ fun _ _ => by simp).trans (by simp)

@[simp] theorem State.dropRedeal_beside (status : Nat) : (s.dropRedeal status).Beside s := by
  unfold State.dropRedeal
  split
  · simp
  · exact (foldl_beside _ _ fun _ _ => by simp).trans (by simp)

@[simp] theorem State.judgeRedeal_beside : s.judgeRedeal.Beside s := by
  unfold State.judgeRedeal
  split
  · simp
  · split
    · simp
    · split
      · simp
      · split
        · simp
        · dsimp only; split <;> simp

@[simp] theorem State.judgeWhenDone_beside : s.judgeWhenDone.Beside s := by unfold State.judgeWhenDone; split <;> simp
@[simp] theorem State.startChecks_beside (d : Nat) : (s.startChecks d).Beside s := by simp [State.startChecks]

@[simp] theorem State.commitDeal_beside (p : Plan) : (s.commitDeal p).Beside s := by
  have folds : ∀ (l : List Entry) (u : State), (l.foldl (fun s e => s.foldEntry e (e.cause.getD 0)) u).Beside u := fun l u => foldl_beside l u fun _ _ => by simp
  have reseats : ∀ (l : List Entry) (u : State), (l.foldl (fun s e => s.reseat e.seat) u).Beside u := fun l u => foldl_beside l u fun _ _ => by simp
  have commits : ∀ (f : Form) (all l : List Entry) (u : State), (l.foldl (fun s e => s.commitEntry p f all e) u).Beside u :=
    fun f all l u => foldl_beside l u fun _ _ => by simp
  unfold State.commitDeal
  dsimp only
  split
  · simp
  next f _ =>
    have closing : ∀ u : State, State.Beside (match p.owed with | some target => u.sheetCpl 0x01 p.tag target (p.entries.length - (p.entries.filter (!·.void)).length) 0xFFFF | none => u) u :=
      fun u => by split <;> simp
    exact (closing _).trans ((State.applyClears_beside _).trans ((State.chargeHouse_beside _ _).trans ((State.applyPcie_beside _).trans ((commits f _ _ _).trans
      ((reseats _ _).trans ((foldl_beside p.slotFolds _ fun _ _ => by simp).trans ((reseats _ _).trans ((folds _ _).trans (State.queueMark_beside _ _)))))))))

@[simp] theorem State.rewriteDealerLines_beside (p : Plan) (pas : List Nat) : (s.rewriteDealerLines p pas).Beside s := foldl_beside _ s fun _ _ => by simp
@[simp] theorem State.undoWrites_beside : s.undoWrites.Beside s := by simp [State.undoWrites]

@[simp] theorem State.misdealDeal_beside (p : Plan) (d : Nat) (cs : List Cause) : (s.misdealDeal p d cs).Beside s := by
  unfold State.misdealDeal
  extract_lets pas fails _ told discarded reseated undone charged r repairIdle at1 _ held displaced repaired checked marked _ revoked _ tested last
  have before : charged.Beside s :=
    (State.chargeHouse_beside _ _).trans ((State.rewriteDealerLines_beside _ _ _).trans ((State.undoWrites_beside _).trans
      ((foldl_beside p.entries _ fun _ _ => by simp).trans ((State.discardSelected_beside _).trans (by simp [told])))))
  have idle : displaced.Beside charged := by unfold displaced; split <;> simp [held]
  have revokes : revoked.Beside displaced := by unfold revoked; split <;> simp [checked, repaired, marked]
  have tests : last.Beside revoked := by unfold last tested; split <;> split <;> simp
  split
  · exact State.Beside.trans (by simp) before
  · exact (State.judgeWhenDone_beside _).trans (tests.trans (revokes.trans (idle.trans before)))

/-! ### The Ante of one entry -/

section
variable {s}

theorem pagesOf_still (ctx : Nat) (wr rd sc : Bool) (n : Nat) (s : State) (va stop : Nat) : (pagesOf s ctx wr rd sc n va stop).2.still = s.still := by
  fun_induction pagesOf s ctx wr rd sc n va stop <;> grind [translate_still]

theorem kvMap_still (s : State) (t : Seat) : (kvMap s t).2.still = s.still := by
  fun_cases kvMap s t <;> grind [pagesOf_still]

theorem kvWindows_still (s : State) (f : Form) (fi slot pos seat : Nat) (t : Seat) (e : Foot) (ring : Bool) (l : List (Nat × Nat)) :
    (kvWindows s f fi slot pos seat t e ring l).2.still = s.still := by
  fun_induction kvWindows s f fi slot pos seat t e ring l <;> grind [pagesOf_still]

theorem kvFaults_still (ctx : Nat) (l : List Nat) (s : State) : (kvFaults ctx l s).2.still = s.still := by
  fun_induction kvFaults ctx l s <;> grind [translate_still]

theorem resolveFoot_still (s : State) (f : Form) (slot pos seat : Nat) (t : Seat) (kv : Option (List Nat × Bool)) (fi : Nat) (e : Foot) :
    (resolveFoot s f slot pos seat t kv fi e).2.still = s.still := by
  fun_cases resolveFoot s f slot pos seat t kv fi e <;> grind [kvWindows_still, pagesOf_still]

theorem resolveFoots_still (s : State) (f : Form) (slot pos seat : Nat) (t : Seat) (kv : Option (List Nat × Bool)) (l : List (Nat × Foot)) :
    (resolveFoots s f slot pos seat t kv l).2.still = s.still := by
  fun_induction resolveFoots s f slot pos seat t kv l <;> grind [resolveFoot_still]

theorem resolveSeat_still (s : State) (f : Form) (slot pos seat : Nat) (t : Seat) (foots : List (Nat × Foot)) : (resolveSeat s f slot pos seat t foots).2.still = s.still := by
  fun_cases resolveSeat s f slot pos seat t foots <;> grind [resolveFoots_still, kvMap_still, kvFaults_still]
end

@[simp] theorem anteEntry_beside (f : Form) (deal : Nat) (e : Entry) : (anteEntry s f deal e).2.2.Beside s := by
  have resolved := State.beside_of_still (resolveSeat_still s f e.slot e.pos e.seat (s.projected e.seat) (slotFoots f e.slot))
  have faulted : ∀ (b : Bool) (u : State), State.Beside (if b then u.security 0xAB (subjSeat e.seat) 0 0 0 else u) u := fun b u => by split <;> simp
  unfold anteEntry
  extract_lets t vid _ told fold
  have folded : ∀ c u, (fold c u).2.2.Beside u := fun c u => by simp [fold]
  split
  · refine State.Beside.trans (t := told) (by simp) ?_
    unfold told; split <;> simp
  · split
    · exact (folded _ _).trans (by simp)
    · dsimp only
      split
      · exact (folded _ _).trans ((faulted _ _).trans resolved)
      · split
        · exact (folded _ _).trans resolved
        · exact resolved

@[simp] theorem State.retestEntry_beside (f : Form) (d : Nat) (p : Plan) (e : Entry) : (s.retestEntry f d p e).2.Beside s := by
  unfold State.retestEntry
  extract_lets put
  split
  · simp
  · split
    · simp
    · split
      · simp
      · exact anteEntry_beside _ _ _ _

@[simp] theorem State.retest_beside : s.retest.Beside s := by
  unfold State.retest
  split
  · simp
  · split
    · simp
    · exact foldl_snd_beside _ (_, s) fun acc e => acc.2.retestEntry_beside _ _ _ _

@[simp] theorem State.decideDeal_beside : s.decideDeal.Beside s := by
  unfold State.decideDeal
  extract_lets d p
  have gathered := s.gather_beside p
  generalize s.gather p = g at gathered
  obtain ⟨q, u⟩ := g
  change State.Beside u s at gathered
  dsimp -zeta only
  extract_lets q' cs _ _ begun closed _ kept misdealt _ decided aged
  have commits : kept.Beside u := (begun.commitDeal_beside q').trans (by simp [begun])
  have misdeals : misdealt.Beside u := (begun.misdealDeal_beside q' d cs).trans (by simp [begun])
  have decides : decided.Beside u := by
    unfold decided
    split
    · exact State.Beside.trans (by simp) commits
    · exact misdeals
  have ages : aged.Beside decided := decided.agingAtDecision_beside
  exact ages.trans (decides.trans gathered)

/-! ### Off the table -/

@[simp] theorem State.departMisdeal_beside (rank detail : Nat) : (s.departMisdeal rank detail).Beside s := by
  unfold State.departMisdeal
  extract_lets d judged c told p _ decided told'
  split
  · exact (State.misdealDeal_beside _ _ _ _).trans (by simp [told, judged])
  · refine (State.misdealDeal_beside _ _ _ _).trans ((State.judgeReads_beside _ _ _).trans ?_)
    refine State.Beside.trans (t := decided) (by simp [told']) ?_
    unfold decided; split <;> simp

@[simp] theorem State.flushEvents_beside : s.flushEvents.Beside s := by simp [State.flushEvents]

/-- Off the table, the board drops its load hint and no window is open. -/
@[simp] theorem State.leaveTable_beside (rank detail : Nat) (next : CadState) :
    (s.leaveTable rank detail next).Beside { s with board := { s.board with loadHint := false }, svis := { s.svis with openWin := none } } := by
  have suspects : ∀ again : Bool, State.Beside (if again then s.departMisdeal rank detail else (s.departMisdeal rank detail).suspectsToBist) s :=
    fun again => by split <;> simp
  unfold State.leaveTable
  refine (State.flushEvents_beside _).trans ?_
  simp [suspects]

/-! ### Headers -/

@[simp] theorem State.reacquire_beside (st : CadState) : (s.reacquire st).Beside s := by simp [State.reacquire]
@[simp] theorem State.takeStamp_beside (h : HbHeader) (t : Nat) (clock : Option (Nat × Nat)) : (s.takeStamp h t clock).Beside s := by simp [State.takeStamp]
@[simp] theorem State.tryReady_beside : s.tryReady.Beside s := by unfold State.tryReady; split <;> simp

@[simp] theorem State.acquireHeader_beside (h : HbHeader) (t : Nat) : (s.acquireHeader h t).Beside s := by
  unfold State.acquireHeader
  split
  · split <;> simp
  · split
    · simp
    · dsimp only
      split
      · simp
      · split <;> simp

/-- A header's position and its latch leave the time, the ring and the dictionary alone. -/
@[simp] abbrev State.Timed (t s : State) : Prop := t.now = s.now ∧ t.hb = s.hb ∧ t.dict = s.dict

theorem State.Timed.trans {s t u : State} (h : u.Timed t) (g : t.Timed s) : u.Timed s := by
  obtain ⟨a, b, c⟩ := g
  simpa only [State.Timed, a, b, c] using h

@[simp] theorem State.positionFault_timed : s.positionFault.Timed s := by unfold State.positionFault; split <;> simp

@[simp] theorem State.latchHeader_timed (h : HbHeader) : (s.latchHeader h).Timed s := by
  fun_cases State.latchHeader s h <;> simp

@[simp] theorem State.newBanker_timed (old h : HbHeader) (t : Nat) : (s.newBanker old h t).Timed s := by
  have left : ∀ (u : State) (detail : Nat), State.Timed (if u.dealing then u.leaveTable 2 detail .acquiring else u.reacquire .acquiring) u :=
    fun u detail => by split <;> simp
  unfold State.newBanker
  dsimp only
  generalize (if s.now < s.cad.lastHdrPs + 24000000 then 0x71 else 0x70) = detail
  split
  · split <;> simp [left]
  · simp [left]

/-- Nothing but the deal clock takes a header's values. -/
theorem State.tryReady_timed (c : Cad) : (State.tryReady { s with cad := c }).Timed s := by
  obtain ⟨now, hb, dict, -⟩ := State.tryReady_beside { s with cad := c }
  exact ⟨now, hb, dict⟩

@[simp] theorem State.cadHeader_timed (h : HbHeader) (delayPs : Nat) : (s.cadHeader h delayPs).Timed s := by
  unfold State.cadHeader
  split
  · simp
  · refine (State.tryReady_timed _ _).trans ?_
    split
    · split
      · exact (State.latchHeader_timed _ _).trans (State.newBanker_timed _ _ _ _)
      · split
        · simp
        · exact (State.latchHeader_timed _ _).trans (by simp)
        · split <;> simp
    · simp

end Sys2Proof.Machine
end


section
/-! Frames on the Hatband's two laps, and the Banker's rounds (R402 to R415, R423, R424, R593). -/

namespace Sys2Proof.Machine

/-! ### Slots without calls, a device without requests -/

theorem State.postable_none {s : State} (quiet : s.dict.remote = []) (n : Nat) : s.postable n = none := by
  rw [State.postable, quiet]
  split <;> rfl

theorem State.remoteLate_quiet {s : State} (quiet : s.dict.remote = []) (round : Nat) : s.remoteLate round = s := by rw [State.remoteLate, quiet]

theorem State.readOwn_quiet {s : State} (quiet : s.dict.remote = []) (round : Nat) (slots : List HbCall) (void : Bool) : s.readOwn round slots void = s := by
  rw [State.readOwn, quiet]

theorem State.slotLap1_free {s : State} (quiet : s.dict.remote = []) {c : HbCall} (free : c.used = false) (round n : Nat) : s.slotLap1 round n c = (c, false, s) := by
  unfold State.slotLap1
  rw [State.postable_none quiet]
  cases c.ok <;> simp [free]

theorem State.answerCall_free {s : State} {c : HbCall} (free : c.used = false) (n : Nat) : s.answerCall n c = (c, false, s) := if_pos (by simp [free])

theorem State.slotLap2_free {s : State} {c : HbCall} (free : c.used = false) (round n : Nat) : s.slotLap2 round n c = (c, false, s) := by
  unfold State.slotLap2
  split
  · exact State.answerCall_free free n
  · exact if_neg (by simp [free])

/-- A pass over slots without calls forwards them as they are and changes nothing. -/
theorem passSlots_free {s : State} (lap2 : Bool) (quiet : lap2 = false → s.dict.remote = []) (round : Nat) {l : List HbCall} (free : ∀ c ∈ l, c.used = false) :
    ∀ n, passSlots lap2 round n l s = { slots := l, void := false, st := s } := by
  induction l with
  | nil => exact fun _ => rfl
  | cons c l ih =>
    intro n
    obtain ⟨first, rest⟩ := List.forall_mem_cons.mp free
    have slot : (if lap2 then s.slotLap2 round n c else s.slotLap1 round n c) = (c, false, s) := by
      cases lap2 with
      | false => exact State.slotLap1_free (quiet rfl) first round n
      | true => exact State.slotLap2_free first round n
    rw [passSlots, slot]
    dsimp only
    rw [ih rest]
    rfl

/-! ### Headers and standing blocks in passing -/

/-- A header in passing takes its place among the headers heard; time, dictionary and what else the ring holds stay. -/
theorem State.passHeader_keeps (s : State) (h : HbHeader) (delayNs : Nat) :
    (s.passHeader h delayNs).now = s.now ∧ (s.passHeader h delayNs).dict = s.dict
      ∧ (s.passHeader h delayNs).hb = { s.hb with voidHeaders := (s.passHeader h delayNs).hb.voidHeaders, lastHdr := (s.passHeader h delayNs).hb.lastHdr
                                                  headerPs := (s.passHeader h delayNs).hb.headerPs } := by
  unfold State.passHeader
  split
  · exact ⟨rfl, rfl, rfl⟩
  · split
    · simp [State.takeHeader]
    · exact ⟨rfl, rfl, rfl⟩

@[simp] theorem State.ringEvent_beside (s : State) (detail addr : Nat) : (s.ringEvent detail addr).Beside s := by simp [State.ringEvent]

/-- A standing block in passing changes nothing of the ring but whether its address is seen to be double (R419). -/
theorem State.passStanding_keeps (s : State) (b : HbStanding) :
    (s.passStanding b).2.dict = s.dict ∧ (s.passStanding b).2.hb = { s.hb with dup := (s.passStanding b).2.hb.dup } := by
  unfold State.passStanding
  split
  · exact ⟨rfl, rfl⟩
  · split
    · exact ⟨rfl, rfl⟩
    · split
      · simp
      · exact ⟨rfl, rfl⟩

theorem State.passStanding_bad {s : State} {b : HbStanding} (bad : b.ok = false) : s.passStanding b = (b, s) := if_pos (by simp [bad])

theorem State.passStanding_adds {s : State} {b : HbStanding} (good : b.ok = true) (alone : s.hb.dup = false) (new : ∀ e ∈ b.order, e.addr ≠ s.hb.addr) :
    s.passStanding b = (s.contribute b, s) := by
  rw [State.passStanding, if_neg (by simp [good]), if_neg (by simp [alone]), if_neg (by simpa using new)]

theorem State.passStanding_double {s : State} {b : HbStanding} (good : b.ok = true) (alone : s.hb.dup = false) (listed : ∃ e ∈ b.order, e.addr = s.hb.addr) :
    (s.passStanding b).2.hb.dup = true := by
  rw [State.passStanding, if_neg (by simp [good]), if_neg (by simp [alone]), if_pos (by simpa using listed)]
  simp

/-! ### A node's two laps -/

/-- The node as a first-lap header leaves it, the frame remembered. -/
def State.headed (s : State) (f : HbFrame) : State :=
  (s.noteSeen f.header.round f.header.bankerId).passHeader f.header (f.header.accDelay + s.dict.settings.seg)

theorem State.headed_keeps (s : State) (f : HbFrame) : (s.headed f).dict = s.dict ∧ (s.headed f).hb.dup = s.hb.dup ∧ (s.headed f).hb.addr = s.hb.addr
    ∧ (s.headed f).hb.symErrs = s.hb.symErrs ∧ (s.headed f).hb.seen = ((f.header.round, f.header.bankerId) :: s.hb.seen).take 8 := by
  obtain ⟨-, dict, hb⟩ := (s.noteSeen f.header.round f.header.bankerId).passHeader_keeps f.header (f.header.accDelay + s.dict.settings.seg)
  refine ⟨dict, ?_, ?_, ?_, ?_⟩ <;> (unfold State.headed; rw [hb]; rfl)

/-- The frame forwarded on the first lap, where no slot holds a call. -/
def State.firstOut (s : State) (f : HbFrame) : HbFrame :=
  { f with header := { f.header with accDelay := min 65535 (f.header.accDelay + s.dict.settings.seg + 320) }, standing := ((s.headed f).passStanding f.standing).1, symErrs := 0, dtPs := 0 }

theorem State.forwardFirst_free {s : State} {f : HbFrame} (quiet : s.dict.remote = []) (free : ∀ c ∈ f.slots, c.used = false) :
    s.forwardFirst f = { ((s.headed f).passStanding f.standing).2 with hb := { ((s.headed f).passStanding f.standing).2.hb with out := some (s.firstOut f) } } := by
  have dict : ((s.headed f).passStanding f.standing).2.dict.remote = [] := by
    rw [((s.headed f).passStanding_keeps f.standing).1, (s.headed_keeps f).1, quiet]
  have passed := passSlots_free false (fun _ => dict) f.header.round free 0
  have walk : s.forwardFirst f = (let r := (s.headed f).passStanding f.standing
      let p := passSlots false f.header.round 0 f.slots (r.2.remoteLate f.header.round)
      { p.st with hb := { p.st.hb with out := some { s.firstOut f with slots := p.slots, eofVoid := f.eofVoid || p.void } } }) := rfl
  rw [walk]
  dsimp only
  rw [State.remoteLate_quiet dict, passed]
  simp only [Bool.or_false]
  rfl

/-- The node as a frame's start and its symbols leave it. -/
def State.arrived (s : State) (f : HbFrame) : State := (s.advanceTo (s.now + f.dtPs)).countSymErrs f.symErrs

theorem execHbFirstLapFrame_forwards {f : HbFrame} {s : State} (alive : s.board.hbAlive = true) (node : s.cascade.isBanker = false)
    (new : s.hb.seen.contains (f.header.round, f.header.bankerId) = false) : execHbFirstLapFrame f s = .next ((s.arrived f).forwardFirst f) := by
  exact congrArg Host.Outcome.next ((if_neg (by simp [alive])).trans ((if_neg (by simp [State.countSymErrs, node])).trans
    (if_neg (by simpa [State.countSymErrs] using new))))

theorem execHbFirstLapFrame_seen {f : HbFrame} {s : State} (alive : s.board.hbAlive = true) (node : s.cascade.isBanker = false)
    (seen : s.hb.seen.contains (f.header.round, f.header.bankerId) = true) :
    execHbFirstLapFrame f s = .next { s with now := s.now + f.dtPs, hb := { s.hb with symErrs := s.hb.symErrs + BitVec.ofNat 32 f.symErrs, out := none } } := by
  have later : (s.advanceTo (s.now + f.dtPs)) = { s with now := s.now + f.dtPs } := by simp [State.advanceTo]
  unfold execHbFirstLapFrame
  rw [if_neg (by simp [alive]), later]
  dsimp only
  rw [if_neg (by simp [State.countSymErrs, node]), if_pos (by simpa [State.countSymErrs] using seen)]
  rfl

theorem execHbSecondLapFrame_free {f : HbFrame} {s : State} (alive : s.board.hbAlive = true) (node : s.cascade.isBanker = false) (free : ∀ c ∈ f.slots, c.used = false)
    (quiet : s.dict.remote = []) (good : f.standing.ok = true) : execHbSecondLapFrame f s = .next { s with hb := { s.hb with
      symErrs := s.hb.symErrs + BitVec.ofNat 32 f.symErrs, order := f.standing.order, present := f.standing.present, out := some { f with symErrs := 0, dtPs := 0 } } } := by
  unfold execHbSecondLapFrame
  rw [if_neg (by simp [alive])]
  dsimp only
  rw [if_neg (by simp [State.countSymErrs, node]), State.forwardSecond]
  dsimp only
  rw [if_pos good, passSlots_free true (by simp) f.header.round free 0]
  dsimp only
  rw [State.readOwn_quiet]
  · simp only [Bool.or_false]
    rfl
  · exact quiet

/-! ### The Banker's origin -/

theorem maskBit_own (a : Nat) : (maskBit a).getLsbD a = decide (a < 32) := by
  rw [maskBit, BitVec.getLsbD_ofNat, Nat.testBit_two_pow_self, Bool.and_true]

@[simp] theorem State.announce_keeps (s : State) : s.announce.now = s.now ∧ s.announce.hb = s.hb ∧ s.announce.dict = s.dict := by
  unfold State.announce
  dsimp only
  split <;> simp

@[simp] theorem State.admitSelf_keeps (s : State) : s.admitSelf.now = s.now ∧ s.admitSelf.dict = s.dict := by
  unfold State.admitSelf
  split <;> simp [State.joinWrite, wOk]

/-- Join marks placed in slots change nothing but the tags and the nodes admitted (R371). -/
theorem admitAll_keeps (d : Nat) (l : List Nat) : ∀ acc : List HbCall × State,
    (l.foldl (fun (acc : List HbCall × State) a => (acc.1 ++ [acc.2.joinCall a d],
      { acc.2 with hb := { acc.2.hb with nextTag := (acc.2.hb.nextTag + 1) % 256, admitted := acc.2.hb.admitted ++ [(a, d)] } })) acc).2.now = acc.2.now
    ∧ (l.foldl (fun (acc : List HbCall × State) a => (acc.1 ++ [acc.2.joinCall a d],
      { acc.2 with hb := { acc.2.hb with nextTag := (acc.2.hb.nextTag + 1) % 256, admitted := acc.2.hb.admitted ++ [(a, d)] } })) acc).2.dict = acc.2.dict := by
  induction l with
  | nil => exact fun _ => ⟨rfl, rfl⟩
  | cons a l ih => exact fun acc => ih _

theorem State.admitCalls_keeps (s : State) : s.admitCalls.2.now = s.now ∧ s.admitCalls.2.dict = s.dict := admitAll_keeps s.admitDeal _ ([], s)

/-- The moment of the next round: 8 µs after the last, or the first mark (R402). -/
def State.roundDue (s : State) : Nat := match s.hb.roundPs with | some t => t + 8000000 | none => s.cascade.genPs

/-- The block of a round sets its own bit in the mask of those present (R408). -/
theorem State.contribute_present (s : State) (b : HbStanding) : (s.contribute b).present = b.present ||| maskBit s.hb.addr := rfl

/-- A round has 18 slots, whatever calls it brings (R596). -/
theorem length_placed (l : List HbCall) (c : HbCall) : (((l ++ List.replicate 18 freeCall).take 18).set 12 c).length = 18 := by
  rw [List.length_set, List.length_take, List.length_append, List.length_replicate]
  omega

/-- What a round of a device without requests starts with, and when (R402, R408, R596). -/
theorem State.originate_quiet {s : State} (quiet : s.dict.remote = []) : ∃ f, s.originate.hb.out = some f
    ∧ f.header.round = s.hb.round ∧ f.header.bankerId = s.hb.addr ∧ f.header.accDelay < max 1 f.header.curPeriod
    ∧ f.standing.present.getLsbD s.hb.addr = decide (s.hb.addr < 32) ∧ f.slots.length = 18 ∧ s.originate.hb.round = (s.hb.round + 1) % 65536
    ∧ s.originate.hb.roundPs = some s.originate.now ∧ s.originate.now = max s.now s.roundDue := by
  unfold State.originate
  extract_lets timed generated announced hbA ready round header block admitted late slots own owned frame noted
  have now : ready.now = max s.now s.roundDue := by
    simp [ready, announced, generated, timed, State.advanceTo]
    rfl
  have same : round = s.hb.round ∧ ready.hb.addr = s.hb.addr ∧ ready.dict = s.dict := by simp [round, ready, announced, generated, timed, State.advanceTo, hbA]
  obtain ⟨sameRound, sameAddr, sameDict⟩ := same
  have stamp : header.accDelay < max 1 header.curPeriod := Nat.mod_lt _ (by omega)
  have named : header.round = round ∧ header.bankerId = ready.hb.addr := ⟨rfl, rfl⟩
  have bit : block.present = 0 ||| maskBit ready.hb.addr := rfl
  clear_value ready header block round
  obtain ⟨selfNow, selfDict⟩ := ready.admitSelf_keeps
  obtain ⟨callsNow, callsDict⟩ := ready.admitSelf.admitCalls_keeps
  have still : admitted.2.dict.remote = [] := by rw [callsDict, selfDict, sameDict, quiet]
  have lateIs : late = admitted.2 := State.remoteLate_quiet still round
  have ownIs : own = (freeCall, late) := by
    simp only [own, State.postable_none (lateIs ▸ still)]
  have clock : owned.now = ready.now := by
    simp only [owned, ownIs, lateIs]
    rw [callsNow, selfNow]
  clear_value owned
  refine ⟨frame, rfl, ?_, ?_, stamp, ?_, length_placed _ _, ?_, rfl, ?_⟩
  · exact named.1.trans sameRound
  · exact named.2.trans sameAddr
  · rw [← sameAddr]
    simp only [frame, bit]
    rw [show (0 : Word32) ||| maskBit ready.hb.addr = maskBit ready.hb.addr from BitVec.zero_or]
    exact maskBit_own _
  · simp only [sameRound]
  · simp only [noted, State.noteSeen, clock, now]

theorem execRoundOrigin_originates {s : State} (alive : s.board.hbAlive = true) (banker : s.cascade.isBanker = true) (marked : s.cascade.syncWait = false)
    (stays : s.cascade.handoverTo = none) : execRoundOrigin s = .next s.originate :=
  congrArg Host.Outcome.next ((if_neg (by simp [alive, banker, marked])).trans (if_neg (by simp [stays])))

theorem execRoundOrigin_handover {s : State} (alive : s.board.hbAlive = true) (banker : s.cascade.isBanker = true) (marked : s.cascade.syncWait = false)
    (leaves : s.cascade.handoverTo.isSome = true) : execRoundOrigin s = .next s.stopBanker :=
  congrArg Host.Outcome.next ((if_neg (by simp [alive, banker, marked])).trans (if_pos leaves))

/-! ### The Banker's return -/

/-- What a returned round tells the Banker: the time and the lap, and nothing of the dictionary (R402, R405). -/
@[simp] abbrev State.Told (t s : State) : Prop :=
  t.now = s.now ∧ t.dict = s.dict ∧ t.hb.dr = s.hb.dr ∧ t.hb.lag = s.hb.lag ∧ t.hb.sent = s.hb.sent

/-- The standing block last taken. -/
@[simp] abbrev State.BlockOf (t s : State) : Prop :=
  t.hb.order = s.hb.order ∧ t.hb.present = s.hb.present ∧ t.hb.stretch = s.hb.stretch ∧ t.hb.floor = s.hb.floor ∧ t.hb.join = s.hb.join

@[simp] theorem State.checkClosure_told (s : State) (h : HbHeader) (origin delayNs : Nat) : (s.checkClosure h origin delayNs).Told s := by
  unfold State.checkClosure
  dsimp only
  split <;> simp

@[simp] theorem State.passHeader_told (s : State) (h : HbHeader) (delayNs : Nat) : (s.passHeader h delayNs).Told s := by
  obtain ⟨now, dict, hb⟩ := s.passHeader_keeps h delayNs
  refine ⟨now, dict, ?_, ?_, ?_⟩ <;> rw [hb]

@[simp] theorem State.notePresent_told (s : State) (present : Word32) (a : Nat) : (s.notePresent present a).Told s ∧ (s.notePresent present a).BlockOf s := by
  unfold State.notePresent
  dsimp only
  split
  · split <;> simp
  · split <;> simp

theorem notePresent_foldl (present : Word32) (l : List Nat) (s : State) :
    (l.foldl (fun s a => s.notePresent present a) s).Told s ∧ (l.foldl (fun s a => s.notePresent present a) s).BlockOf s := by
  induction l generalizing s with
  | nil => simp
  | cons a l ih =>
    obtain ⟨told, block⟩ := ih (s.notePresent present a)
    simp_all

@[simp] theorem State.readStanding_told (s : State) (b : HbStanding) : (s.readStanding b).Told s := by
  unfold State.readStanding
  split
  · simp
  · exact (notePresent_foldl _ _ _).1

/-- A valid block is taken as it is (R408). -/
theorem State.readStanding_takes (s : State) {b : HbStanding} (good : b.ok = true) : (s.readStanding b).hb.order = b.order
    ∧ (s.readStanding b).hb.present = b.present ∧ (s.readStanding b).hb.stretch = b.stretch ∧ (s.readStanding b).hb.floor = b.floor ∧ (s.readStanding b).hb.join = b.join := by
  rw [State.readStanding, if_neg (by simp [good])]
  exact (notePresent_foldl _ _ _).2

/-- Slots without calls hold no join mark's answer. -/
theorem State.readAdmission_free {slots : List HbCall} (free : ∀ c ∈ slots, c.used = false) (s : State) (void : Bool) : s.readAdmission slots void = s := by
  have none : ∀ c ∈ slots.take 6, c.used = false := fun c h => free c (List.mem_of_mem_take h)
  unfold State.readAdmission
  generalize slots.take 6 = l at none
  induction l generalizing s with
  | nil => rfl
  | cons c l ih =>
    obtain ⟨first, rest⟩ := List.forall_mem_cons.mp none
    simp only [List.foldl_cons, first, Bool.false_and, Bool.false_eq_true, if_false]
    exact ih s rest

/-- What a frame that returned without calls leaves of the round (R403, R405, R408). -/
theorem State.returned_free {s : State} {f : HbFrame} (origin d : Nat) (quiet : s.dict.remote = []) (free : ∀ c ∈ f.slots, c.used = false) :
    (s.returned f origin d).now = s.now ∧ (s.returned f origin d).hb.dr = d ∧ (s.returned f origin d).hb.lag = max s.hb.lag (lagOf d)
      ∧ (s.returned f origin d).hb.sent = s.hb.sent ∧ (s.returned f origin d).hb.broken = false
      ∧ (f.standing.ok = true → (s.returned f origin d).hb.order = f.standing.order ∧ (s.returned f origin d).hb.present = f.standing.present
        ∧ (s.returned f origin d).hb.stretch = f.standing.stretch ∧ (s.returned f origin d).hb.floor = f.standing.floor ∧ (s.returned f origin d).hb.join = f.standing.join) := by
  unfold State.returned
  extract_lets h lag measured late closed headed stood ring mended told void passed answered lost taken out
  have measure : measured.now = s.now ∧ measured.dict = s.dict ∧ measured.hb.dr = d ∧ measured.hb.lag = max s.hb.lag (lagOf d) ∧ measured.hb.sent = s.hb.sent :=
    ⟨rfl, rfl, rfl, rfl, rfl⟩
  clear_value measured late
  have closure : closed.Told measured := by
    simp only [closed]
    split <;> simp
  clear_value closed
  have head : headed.Told closed := State.passHeader_told _ _ _
  clear_value headed
  have stand : stood.Told headed := State.readStanding_told _ _
  have block : f.standing.ok = true → stood.hb.order = f.standing.order ∧ stood.hb.present = f.standing.present ∧ stood.hb.stretch = f.standing.stretch
    ∧ stood.hb.floor = f.standing.floor ∧ stood.hb.join = f.standing.join := fun good => State.readStanding_takes _ good
  clear_value stood
  have event : told.Beside mended := by
    simp only [told]
    split <;> simp
  have mend : mended.now = stood.now ∧ mended.dict = stood.dict ∧ mended.hb = { stood.hb with broken := false } := ⟨rfl, rfl, rfl⟩
  clear_value mended told
  have pass : passed = { slots := f.slots, void := false, st := told } := by
    simp only [passed]
    split
    · rfl
    · exact passSlots_free true (by simp) _ free 0
  have kept : answered = told := by
    simp only [answered, pass, Bool.false_and]
    rfl
  have still : told.dict.remote = [] := by simp_all
  have takenIs : taken = told := by
    simp only [taken, kept]
    rw [State.readOwn_quiet still, State.readAdmission_free free]
  clear_value taken
  subst takenIs
  clear kept pass
  clear_value answered passed lost
  show taken.now = s.now ∧ taken.hb.dr = d ∧ taken.hb.lag = max s.hb.lag (lagOf d) ∧ taken.hb.sent = s.hb.sent ∧ taken.hb.broken = false
    ∧ (f.standing.ok = true → taken.hb.order = f.standing.order ∧ taken.hb.present = f.standing.present
      ∧ taken.hb.stretch = f.standing.stretch ∧ taken.hb.floor = f.standing.floor ∧ taken.hb.join = f.standing.join)
  obtain ⟨now1, -, dr1, lag1, sent1⟩ := measure
  obtain ⟨now2, -, dr2, lag2, sent2⟩ := closure
  obtain ⟨now3, -, dr3, lag3, sent3⟩ := head
  obtain ⟨now4, -, dr4, lag4, sent4⟩ := stand
  obtain ⟨now5, -, hb5⟩ := mend
  obtain ⟨now6, hb6, -⟩ := event
  rw [now6, now5, now4, now3, now2, now1, hb6, hb5]
  exact ⟨rfl, by rw [dr4, dr3, dr2, dr1], by rw [lag4, lag3, lag2, lag1], by rw [sent4, sent3, sent2, sent1], rfl, block⟩

/-- The node as the arrival of the returned frame, d ns after its origin, leaves it. -/
def State.backAt (s : State) (f : HbFrame) (sentAt d : Nat) : State :=
  { ((s.countSymErrs f.symErrs).advanceTo (sentAt + 1000 * d)) with hb := { ((s.countSymErrs f.symErrs).advanceTo (sentAt + 1000 * d)).hb with
    sent := s.hb.sent.filter (fun y => decide (sentAt < y.2.1)) } }

theorem execFrameReturn_inTime {f : HbFrame} {d : Nat} {x : Nat × Nat × Nat} {s : State} (alive : s.board.hbAlive = true) (banker : s.cascade.isBanker = true)
    (sent : s.hb.sent.find? (fun y => decide (y.1 = f.header.round)) = some x) (inTime : d ≤ 16000) :
    execFrameReturn f d s = .next ((s.backAt f x.2.1 d).returned f x.2.2 d) := by
  unfold execFrameReturn
  rw [if_neg (by simp [alive, banker])]
  dsimp only
  rw [show (s.countSymErrs f.symErrs).hb.sent = s.hb.sent from rfl, sent]
  exact congrArg Host.Outcome.next (if_neg (by omega))

/-! ### Lost nodes, a broken ring, slow entries -/

theorem execNodeLost_tells {a : Nat} {s : State} (banker : s.cascade.isBanker = true) (missing : 3 ≤ (aget a s.hb.missing).getD 0) (new : s.hb.lost.getLsbD a = false) :
    execNodeLost a s = .next (State.ringEvent { s with hb := { s.hb with lost := s.hb.lost ||| maskBit a } } 0x82 a) :=
  congrArg Host.Outcome.next (if_pos (by simp [banker, missing, new]))

theorem execRingBreak_tells {s : State} (banker : s.cascade.isBanker = true) (new : s.hb.broken = false)
    (late : 3 ≤ (s.hb.sent.filter (fun x => decide (x.2.1 + 16000000 < s.now))).length) :
    execRingBreak s = .next (State.ringEvent { s with hb := { s.hb with broken := true } } 0x84 0) :=
  congrArg Host.Outcome.next (if_pos (by simp [banker, new, late]))

theorem execSlowEntryPrepared_copies {i j : Nat} {x : SlowPrep} {e : OdEntry} {s : State} (slow : s.dict.slow = [x]) (index : x.index = i) (sub : x.sub = j)
    (new : x.copy = none) (entry : odEntry i j = some e) : execSlowEntryPrepared i j s = .next { s with
      now := max s.now (x.firstPs + 1000000000),
      dict := { s.dict with slow := [{ x with copy := some (State.odValue { s with now := max s.now (x.firstPs + 1000000000) } e i j) }] } } := by
  unfold execSlowEntryPrepared
  have found : s.dict.slow.find? (fun x => x.index = i && x.sub = j) = some x := by simp [slow, index, sub]
  rw [found, entry]
  simp [index, sub, new, slow, State.advanceTo, State.setSlow]

end Sys2Proof.Machine

namespace Sys2Proof.Proofs
open Sys2Proof Sys2Proof.Machine

/-- Settles O45, one clause per frame event: slots without calls pass as they are, and what a round tells is traced through its return. -/
theorem roundsGoRound : Obligations.RoundsGoRound := by
  unfold Obligations.RoundsGoRound
  refine ⟨fun f s alive node new free quiet => ?_, fun f s alive node seen => execHbFirstLapFrame_seen alive node seen,
    fun f s alive node free quiet good => execHbSecondLapFrame_free alive node free quiet good,
    fun s alive banker marked => ⟨fun stays quiet => ?_, fun leaves => ?_⟩, fun f d x s alive banker sent inTime free quiet => ?_,
    fun a s banker missing new => execNodeLost_tells banker missing new, fun s banker new late => execRingBreak_tells banker new late,
    fun i j x e s slow index sub new entry => execSlowEntryPrepared_copies slow index sub new entry⟩
  · obtain ⟨-, dup, addr, errs, seen⟩ := (s.arrived f).headed_keeps f
    obtain ⟨-, hb⟩ := ((s.arrived f).headed f).passStanding_keeps f.standing
    refine ⟨_, (s.arrived f).firstOut f, execHbFirstLapFrame_forwards alive node new, ?_⟩
    rw [State.forwardFirst_free (s := s.arrived f) quiet free]
    refine ⟨rfl, rfl, rfl, rfl, rfl, fun good alone lone => ?_, fun bad => ?_, fun good alone listed => ?_, ?_, ?_⟩
    · have adds := State.passStanding_adds (s := (s.arrived f).headed f) good (dup.trans alone) (fun e h => addr ▸ lone e h)
      rw [State.firstOut, adds, State.contribute_present, addr]
      rfl
    · rw [State.firstOut, State.passStanding_bad bad]
    · exact State.passStanding_double good (dup.trans alone) (addr ▸ listed)
    · exact (congrArg Hatband.seen hb).trans seen
    · exact (congrArg Hatband.symErrs hb).trans errs
  · obtain ⟨f, facts⟩ := s.originate_quiet quiet
    exact ⟨_, f, execRoundOrigin_originates alive banker marked stays, facts⟩
  · exact ⟨_, execRoundOrigin_handover alive banker marked leaves, rfl, rfl, rfl, rfl, rfl⟩
  · obtain ⟨now, dr, lag, kept, broken, block⟩ := State.returned_free (s := s.backAt f x.2.1 d) (f := f) x.2.2 d quiet free
    exact ⟨_, execFrameReturn_inTime alive banker sent inTime, dr, lag, broken, kept, now, block⟩

end Sys2Proof.Proofs
end


section
/-! The thermal controller, the trip, Sleep entry and wake (R460, R461, R491 to R496, R586 to R588). -/

namespace Sys2Proof.Machine

/-! ### Metering -/

/-- What an evaluation takes before its temperatures: the millisecond, the power and its energy (R451). -/
def State.metered (s : State) (r : Readings) : State :=
  { s with now := max s.now (1000000000 * max (s.power.lastMs + 1) (s.now / 1000000000)),
           power := { s.power with lastMs := max (s.power.lastMs + 1) (s.now / 1000000000), watts := r.power, energy := s.power.energy + r.power } }

theorem execThermalEvaluation_asleep {r : Readings} {s : State} (started : s.start.stage ≠ 0) (asleep : s.power.phase ≠ 0) :
    execThermalEvaluation r s = .next { s.metered r with power := { (s.metered r).power with tripCool := s.coolRun r.temps } } := by
  exact congrArg Host.Outcome.next ((if_neg started).trans (if_pos asleep))

theorem execThermalEvaluation_awake {r : Readings} {s : State} (started : s.start.stage ≠ 0) (awake : s.power.phase = 0) :
    execThermalEvaluation r s = .next ((((s.metered r).takeReadings r.temps).thermalSettle).thermalWithdraw).thermalRaise :=
  congrArg Host.Outcome.next ((if_neg started).trans (if_neg (by simp [State.advanceTo, awake])))

/-- What the controller never moves: the meter, the readings, seats, memory, Dealer and settings. -/
@[simp] abbrev State.Metered (t s : State) : Prop :=
  t.now = s.now ∧ t.power.lastMs = s.power.lastMs ∧ t.power.watts = s.power.watts ∧ t.power.energy = s.power.energy ∧ t.power.temps = s.power.temps
    ∧ t.seats = s.seats ∧ t.mem = s.mem ∧ t.dealer = s.dealer ∧ t.dict = s.dict

/-- The request for a longer period and the controller's state. -/
@[simp] abbrev State.Requests (t s : State) : Prop :=
  t.cad = s.cad ∧ t.power.thermal = s.power.thermal ∧ t.power.cool = s.power.cool

theorem State.noteBlind_keeps (s : State) : s.noteBlind.Metered s ∧ s.noteBlind.Requests s := by
  unfold State.noteBlind
  dsimp only
  generalize (List.range 9).filter (fun i => s.power.temps.getD i none = none && !s.power.blind.contains i) = bad
  have posts : ∀ (l : List Nat) (u : State), (l.foldl (fun s i => s.post (logItem 0 0 s.curDeal (placeDie i))) u).Metered u
      ∧ (l.foldl (fun s i => s.post (logItem 0 0 s.curDeal (placeDie i))) u).Requests u := by
    intro l
    induction l with
    | nil => simp
    | cons i l ih =>
      intro u
      simpa using ih (u.post (logItem 0 0 u.curDeal (placeDie i)))
  simpa using posts bad _

/-- With a reading from every die none is newly blind (R469). -/
theorem State.noteBlind_reading {s : State} (reads : ∀ i, i < 9 → s.power.temps.getD i none ≠ none) : s.noteBlind = s := by
  have none_bad : (List.range 9).filter (fun i => s.power.temps.getD i none = none && !s.power.blind.contains i) = [] :=
    List.filter_eq_nil_iff.mpr fun i listed => by
      have := reads i (List.mem_range.mp listed)
      simp_all
  rw [State.noteBlind, none_bad]
  simp

theorem State.takeReadings_keeps (s : State) (temps : List Temp) : (s.takeReadings temps).Requests s ∧ (s.takeReadings temps).Metered { s with power := { s.power with temps } } := by
  obtain ⟨metered, requests⟩ := State.noteBlind_keeps
    { s with power := { s.power with temps, cold := (temps.any fun t => match t with | some t => decide (t < 0) | none => false) && (s.power.cold || s.start.stage ≠ 2), tripCool := s.coolRun temps } }
  exact ⟨requests, metered⟩

theorem State.takeReadings_blind {s : State} {temps : List Temp} (reads : ∀ i, i < 9 → temps.getD i none ≠ none) : (s.takeReadings temps).power.blind = s.power.blind := by
  rw [State.takeReadings, State.noteBlind_reading (by exact reads)]

/-! ### The controller's three steps (R461) -/

/-- Settling ends a request that is being met, and moves nothing else. -/
theorem State.thermalSettle_cases (s : State) : s.thermalSettle = s ∨ (s.power.thermal = 1 ∧ s.thermalSettle = { s with power := { s.power with thermal := 2 } }) := by
  unfold State.thermalSettle
  split
  · split
    next met => exact .inr ⟨by simp_all, rfl⟩
    next => exact .inl rfl
  · exact .inl rfl

theorem State.thermalWithdraw_keeps (s : State) : s.thermalWithdraw.Metered s := by
  unfold State.thermalWithdraw
  extract_lets
  split <;> exact ⟨rfl, rfl, rfl, rfl, rfl, rfl, rfl, rfl, rfl⟩

theorem State.thermalWithdraw_warm {s : State} (warm : (s.coolNow && decide (100 * s.power.watts ≤ 95 * s.dict.settings.powerOn)) = false) :
    s.thermalWithdraw = { s with power := { s.power with cool := 0 } } := by
  rw [State.thermalWithdraw, warm]
  exact if_neg (by simp)

theorem State.thermalWithdraw_cool {s : State} (cool : s.coolNow = true) (low : 100 * s.power.watts ≤ 95 * s.dict.settings.powerOn) (held : s.power.cool = s.dict.settings.withdraw) :
    s.thermalWithdraw = { s with cad := { s.cad with stretchReq := 0, stretchRaises := [] }, power := { s.power with cool := s.dict.settings.withdraw + 1, thermal := 0, metSince := none } } := by
  rw [State.thermalWithdraw, cool, decide_eq_true low, held]
  exact if_pos (Nat.le_refl _)

theorem State.thermalRaise_keeps (s : State) : s.thermalRaise.Metered s := by
  unfold State.thermalRaise
  split <;> simp

theorem State.thermalRaise_raises {s : State} (free : s.power.thermal ≠ 1) (above : s.dict.settings.powerOn < s.power.watts) (below : s.cad.stretchReq ≠ 160) :
    s.thermalRaise.cad.stretchReq = min 160 (max (max s.cad.stretchReq s.cad.period) 40 + s.dict.settings.step) ∧ s.thermalRaise.power.thermal = 1 := by
  rw [State.thermalRaise, if_neg (by simp [free, above, below])]
  simp

theorem State.thermalRaise_rests {s : State} (cold : s.hot = false) (under : ¬ s.dict.settings.powerOn < s.power.watts) : s.thermalRaise = s :=
  if_pos (by simp [cold, under])

/-! ### The evaluation -/

/-- The device as an evaluation in Run leaves it. -/
def State.evaluated (s : State) (r : Readings) : State := ((((s.metered r).takeReadings r.temps).thermalSettle).thermalWithdraw).thermalRaise

theorem State.thermalSettle_keeps (s : State) : s.thermalSettle.Metered s ∧ s.thermalSettle.cad = s.cad ∧ s.thermalSettle.power.cool = s.power.cool
    ∧ s.thermalSettle.power.blind = s.power.blind := by
  rcases s.thermalSettle_cases with same | ⟨-, met⟩
  · rw [same]; simp
  · rw [met]; simp

theorem State.evaluated_meters (s : State) (r : Readings) : (s.evaluated r).Metered { s.metered r with power := { (s.metered r).power with temps := r.temps } } := by
  have raised := State.thermalRaise_keeps ((((s.metered r).takeReadings r.temps).thermalSettle).thermalWithdraw)
  have withdrawn := State.thermalWithdraw_keeps (((s.metered r).takeReadings r.temps).thermalSettle)
  obtain ⟨settled, -⟩ := State.thermalSettle_keeps ((s.metered r).takeReadings r.temps)
  obtain ⟨-, read⟩ := State.takeReadings_keeps (s.metered r) r.temps
  simp_all [State.evaluated]

theorem State.evaluated_raises {s : State} {r : Readings} (above : s.dict.settings.powerOn < r.power) (free : s.power.thermal ≠ 1) (below : s.cad.stretchReq ≠ 160) :
    (s.evaluated r).cad.stretchReq = min 160 (max (max s.cad.stretchReq s.cad.period) 40 + s.dict.settings.step) ∧ (s.evaluated r).power.thermal = 1 := by
  obtain ⟨⟨cad, thermal, -⟩, read⟩ := State.takeReadings_keeps (s.metered r) r.temps
  have cad : ((s.metered r).takeReadings r.temps).cad = s.cad := cad
  have thermal : ((s.metered r).takeReadings r.temps).power.thermal = s.power.thermal := thermal
  have watts : ((s.metered r).takeReadings r.temps).power.watts = r.power := read.2.2.1
  have dict : ((s.metered r).takeReadings r.temps).dict = s.dict := read.2.2.2.2.2.2.2.2
  unfold State.evaluated
  generalize (s.metered r).takeReadings r.temps = t at *
  have settled : t.thermalSettle = t := t.thermalSettle_cases.resolve_right fun met => free (thermal ▸ met.1)
  have warm : (t.coolNow && decide (100 * t.power.watts ≤ 95 * t.dict.settings.powerOn)) = false := by
    rw [watts, dict, decide_eq_false (by omega), Bool.and_false]
  rw [settled, State.thermalWithdraw_warm warm]
  have raised := State.thermalRaise_raises (s := { t with power := { t.power with cool := 0 } }) (thermal ▸ free) (by simpa only [watts, dict] using above)
    (by simpa only [cad] using below)
  simpa only [cad, dict] using raised

theorem State.evaluated_withdraws {s : State} {r : Readings} {x : Int} (top : hottest r.temps = some x) (off : tempAtMost x s.dict.settings.stretchOff = true)
    (on : tempAtLeast x s.dict.settings.stretchOn = false) (reads : ∀ i, i < 9 → r.temps.getD i none ≠ none) (sees : s.power.blind = [])
    (low : 100 * r.power ≤ 95 * s.dict.settings.powerOn) (held : s.power.cool = s.dict.settings.withdraw) :
    (s.evaluated r).cad.stretchReq = 0 ∧ (s.evaluated r).power.thermal = 0 := by
  obtain ⟨⟨-, -, run⟩, read⟩ := State.takeReadings_keeps (s.metered r) r.temps
  obtain ⟨settled, -, kept, blindKept⟩ := State.thermalSettle_keeps ((s.metered r).takeReadings r.temps)
  have blind : ((s.metered r).takeReadings r.temps).thermalSettle.power.blind = [] := blindKept.trans ((State.takeReadings_blind reads).trans sees)
  have cool : ((s.metered r).takeReadings r.temps).thermalSettle.power.cool = s.power.cool := kept.trans run
  have watts : ((s.metered r).takeReadings r.temps).thermalSettle.power.watts = r.power := settled.2.2.1.trans read.2.2.1
  have temps : ((s.metered r).takeReadings r.temps).thermalSettle.power.temps = r.temps := settled.2.2.2.2.1.trans read.2.2.2.2.1
  have dict : ((s.metered r).takeReadings r.temps).thermalSettle.dict = s.dict := settled.2.2.2.2.2.2.2.2.trans read.2.2.2.2.2.2.2.2
  unfold State.evaluated
  generalize ((s.metered r).takeReadings r.temps).thermalSettle = t at *
  have cold : t.coolNow = true := by simp [State.coolNow, blind, temps, top, dict, off]
  rw [State.thermalWithdraw_cool cold (by rw [watts, dict]; exact low) (by rw [cool, dict]; exact held), State.thermalRaise_rests]
  · exact ⟨rfl, rfl⟩
  · simp [State.hot, blind, temps, top, dict, on]
  · simp only [watts, dict]; omega

/-! ### The trip (R586 to R588) -/

@[simp] theorem State.leaveTable_holdThermal (s : State) (rank detail : Nat) (next : CadState) : (s.leaveTable rank detail next).cad.holdThermal = s.cad.holdThermal := by
  have departed : (s.departMisdeal rank detail).cad.holdThermal = s.cad.holdThermal := by rw [s.departMisdeal_cad]
  unfold State.leaveTable
  dsimp only
  rw [State.flushEvents_cad]
  simp only [State.sendNotice_frame]
  split <;> split <;> exact departed

/-- Off to LEFT from any state, with the hold kept; of the board only the load hint moves. -/
theorem State.toLeft_leaves (s : State) (detail : Nat) : (s.toLeft detail).cad.st = .left ∧ (s.toLeft detail).cad.holdThermal = s.cad.holdThermal
    ∧ (s.toLeft detail).power = s.power ∧ (s.toLeft detail).board.thermN = s.board.thermN ∧ (s.toLeft detail).board.critN = s.board.critN := by
  unfold State.toLeft
  split
  · obtain ⟨st, -⟩ := s.leaveTable_leaves 1 detail .left
    simp [st]
  · split
    next left => simp [left]
    next => simp [State.reacquire]

theorem State.trip_trips {s : State} (new : s.power.tripped = false) : s.trip.cad.st = .left ∧ s.trip.cad.holdThermal = true ∧ s.trip.power.tripped = true
    ∧ s.trip.board.thermN = true ∧ s.trip.board.critN = s.board.critN := by
  rw [State.trip, if_neg (by simp [new])]
  obtain ⟨st, hold, power, therm, crit⟩ := State.toLeft_leaves
    { s with board := { s.board with thermN := true }, power := { s.power with tripped := true, tripCool := 0 }, cad := { s.cad with holdThermal := true } } 0x05
  exact ⟨st, hold, congrArg Power.tripped power, therm, crit⟩

/-! ### Sleep entry (R491, R492) -/

@[simp] theorem State.standDown_debug (s : State) : s.standDown.sec.level = s.sec.level ∧ s.standDown.sec.openWait = s.sec.openWait := by
  unfold State.standDown
  split <;> simp

/-- An Open session goes on as Observe, and no Open grant waits (R492). -/
@[simp] theorem State.sleepDebug_ends (s : State) : s.sleepDebug.sec.level = (if s.sec.level = 2 then 1 else s.sec.level) ∧ s.sleepDebug.sec.openWait = none := by
  unfold State.sleepDebug
  cases wait : s.sec.openWait with
  | none =>
    dsimp only
    split
    next other => simp [wait]
    next opened => simp [wait, not_not.mp opened]
  | some grant =>
    dsimp only
    split
    next other => simp
    next opened => simp [not_not.mp opened]

/-- Stores lost and waiting key changes flushed: power, debug level and window stay (R284, R492). -/
theorem State.flushKeys_keeps (s : State) : s.flushKeys.power = s.power ∧ s.flushKeys.sec = s.sec ∧ s.flushKeys.svis = s.svis ∧ s.flushKeys.vault.keyPending = [] :=
  ⟨foldl_keeps State.power (fun u c => by unfold State.setKey; split <;> rfl) _ s, foldl_keeps State.sec (fun u c => by unfold State.setKey; split <;> rfl) _ s,
    foldl_keeps State.svis (fun u c => by unfold State.setKey; split <;> rfl) _ s, rfl⟩

/-- The device once it has stood down for Sleep, its Open session gone on as Observe (R492, steps 1 and 2). -/
def State.drowsy (s : State) : State :=
  { s.standDown.sleepDebug with
    cad := { s.standDown.sleepDebug.cad with stretchReq := 0, stretchRaises := [] }
    power := { s.standDown.sleepDebug.power with phase := 1, sleepReq := false, thermal := 0, metSince := none, cool := 0 } }

/-- Nothing left of what the stores and the key slots held (R492, steps 4 to 6). -/
def State.emptied (s : State) : State :=
  let t := ((s.onDies 0xFF Core.zeroMarks Cluster.zeroMarks).loseAllStores).flushKeys
  { t with vault := { t.vault with keys := [] } }

theorem State.emptied_keeps (s : State) : s.emptied.power = s.power ∧ s.emptied.sec = s.sec ∧ s.emptied.svis.openWin = s.svis.openWin
    ∧ s.emptied.vault.keys = [] ∧ s.emptied.vault.keyPending = [] := by
  obtain ⟨power, sec, svis, pending⟩ := ((s.onDies 0xFF Core.zeroMarks Cluster.zeroMarks).loseAllStores).flushKeys_keeps
  exact ⟨power, sec, (congrArg Svis.openWin svis :), rfl, pending⟩

/-- The device asleep but for what is still pinned. -/
def State.slept (s : State) (failed : List UnitRef) : State := (s.drowsy.closeWindow.bist failed).emptied

theorem execSleepEntry_sleeps {failed : List UnitRef} {s : State} (asked : s.power.sleepReq = true) (running : s.power.phase = 0) (calm : s.sec.preparing = false)
    (boundary : s.atBoundary = true) (clock : s.cad.st ≠ .flywheel) (whole : s.sec.lifeCycle ≠ 4) : execSleepEntry failed s = .next (s.slept failed) :=
  congrArg Host.Outcome.next (if_neg (by simp [asked, running, calm, State.mayStandDown, boundary, clock, whole]))

theorem execSleepEntry_waits {failed : List UnitRef} {s : State} (waits : s.atBoundary = false ∨ s.cad.st = .flywheel) : execSleepEntry failed s = .next s :=
  congrArg Host.Outcome.next (if_pos (by rcases waits with w | w <;> simp [State.mayStandDown, w]))

theorem State.slept_sleeps (s : State) (failed : List UnitRef) : (s.slept failed).power.phase = 1 ∧ (s.slept failed).power.sleepReq = false
    ∧ (s.slept failed).power.thermal = 0 ∧ (s.slept failed).vault.keys = [] ∧ (s.slept failed).vault.keyPending = []
    ∧ (s.slept failed).sec.level = (if s.sec.level = 2 then 1 else s.sec.level) ∧ (s.slept failed).sec.openWait = none ∧ (s.slept failed).svis.openWin = none := by
  obtain ⟨-, -, -, -, power, level, openWait, openWin⟩ := (s.drowsy.closeWindow.bist_beside failed).trans (State.closeWindow_beside s.drowsy)
  obtain ⟨stillPower, stillSec, stillWin, keys, pending⟩ := (s.drowsy.closeWindow.bist failed).emptied_keeps
  obtain ⟨ended, dropped⟩ := s.standDown.sleepDebug_ends
  rw [State.slept, stillPower, power, stillSec, level, openWait, stillWin, openWin]
  exact ⟨rfl, rfl, rfl, keys, pending, s.standDown_debug.1 ▸ ended, dropped, rfl⟩

/-! ### Wake (R494) -/

/-- Keys unwrapped into their slots: time, links, seats, memory and the wrapped keys stay. -/
theorem State.unwrapKeys_keeps (s : State) : s.unwrapKeys.now = s.now ∧ s.unwrapKeys.cascade = s.cascade ∧ s.unwrapKeys.seats = s.seats ∧ s.unwrapKeys.mem = s.mem
    ∧ s.unwrapKeys.nv.wrapped = s.nv.wrapped ∧ s.unwrapKeys.power = s.power ∧ s.unwrapKeys.dealer = s.dealer := by
  unfold State.unwrapKeys
  split
  · simp
  · have logged : ∀ (u : State) (d a b c e : Nat), (u.security d a b c e).nv.wrapped = u.nv.wrapped := fun u d a b c e => by
      rw [State.security, State.securityFor, (State.post_log _ _).2, (State.logAppend_nv _ _).1]
    refine ⟨foldl_keeps State.now (fun u w => ?_) _ s, foldl_keeps State.cascade (fun u w => ?_) _ s, foldl_keeps State.seats (fun u w => ?_) _ s,
      foldl_keeps State.mem (fun u w => ?_) _ s, foldl_keeps (fun u => u.nv.wrapped) (fun u w => ?_) _ s, foldl_keeps State.power (fun u w => ?_) _ s,
      foldl_keeps State.dealer (fun u w => ?_) _ s⟩ <;> split <;> simp [logged]

/-- One wrapped key stands in its slot where it unwraps (R284). -/
theorem State.unwrapKeys_one {s : State} {w : Nat × Nat × BitVec 320} (one : s.nv.wrapped = [w]) (allowed : s.keysAllowed = true) (good : s.sec.lcBad = false) :
    aget w.1 s.unwrapKeys.vault.keys = (match Config.keyUnwrap w.2.2 with | some x => some (w.2.1, x) | none => aget w.1 s.vault.keys) := by
  rw [State.unwrapKeys, if_neg (by simp [allowed, good]), one, List.foldl_cons, List.foldl_nil]
  cases Config.keyUnwrap w.2.2 with
  | none => simp
  | some x => simp

/-- A link that is to train, unless it is held. -/
def DeckLink.train (x : DeckLink) : DeckLink := if x.st = 3 then x else { x with st := 1 }

def trainLink (l : List (Nat × DeckLink)) (k : Nat) : List (Nat × DeckLink) := aset k ((aget k l).getD {}).train l

theorem State.trainLinks_links (s : State) : s.trainLinks.cascade.links = (List.range 8).foldl trainLink s.cascade.links := rfl

theorem aget_untrained (l : List (Nat × DeckLink)) {n k : Nat} (outside : n ≤ k) : aget k ((List.range n).foldl trainLink l) = aget k l := by
  induction n with
  | zero => rfl
  | succ n ih =>
    rw [List.range_succ, List.foldl_concat]
    exact (aget_aset_other k n _ _ (by omega)).trans (ih (by omega))

theorem aget_trained (l : List (Nat × DeckLink)) {n k : Nat} (inside : k < n) :
    aget k ((List.range n).foldl trainLink l) = some ((aget k l).getD {}).train := by
  induction n with
  | zero => omega
  | succ n ih =>
    rw [List.range_succ, List.foldl_concat, trainLink]
    by_cases last : k = n
    · rw [last, aget_aset_same, aget_untrained l (Nat.le_refl n)]
    · rw [aget_aset_other k n _ _ last]
      exact ih (by omega)

theorem State.deckLink_trainLinks (s : State) {k : Nat} (inside : k < 8) : s.trainLinks.deckLink k = (s.deckLink k).train := by
  rw [State.deckLink, State.trainLinks_links, aget_trained s.cascade.links inside]
  rfl

/-- The device awake. -/
def State.woken (s : State) : State :=
  let t := s.unwrapKeys.trainLinks
  State.postAll { t with power := { t.power with phase := 0, wakeCheck := false, wakePs := t.now }, dealer := { t.dealer with afterWake := [] } } t.dealer.afterWake

theorem execWakeComplete_wakes {ok : Bool} {s : State} (waking : s.power.phase = 3) (checked : s.power.wakeCheck = true → ok = true) :
    execWakeComplete ok s = .next s.woken :=
  congrArg Host.Outcome.next ((if_neg (by simp [waking])).trans (if_neg (by simpa using checked)))

theorem execWakeComplete_fails {ok : Bool} {s : State} (waking : s.power.phase = 3) (check : s.power.wakeCheck = true) (fails : ok = false) :
    execWakeComplete ok s = .next ((s.security 0xA8 0 0 0 0).reboot 3) :=
  congrArg Host.Outcome.next ((if_neg (by simp [waking])).trans (if_pos (by simp [check, fails])))

theorem State.woken_wakes (s : State) : s.woken.power.phase = 0 ∧ s.woken.power.wakeCheck = false ∧ s.woken.power.wakePs = s.now
    ∧ (∀ k, k < 8 → (s.deckLink k).st ≠ 3 → (s.woken.deckLink k).st = 1) ∧ s.woken.nv.wrapped = s.nv.wrapped ∧ s.woken.seats = s.seats ∧ s.woken.mem = s.mem
    ∧ s.woken.vault = s.unwrapKeys.vault := by
  obtain ⟨now, links, seats, mem, wrapped, -⟩ := s.unwrapKeys_keeps
  have stored : ∀ (l : List EvReq) (u : State), (u.postAll l).nv.wrapped = u.nv.wrapped := fun l u =>
    foldl_keeps (fun u => u.nv.wrapped) (fun u r => congrArg Nv.wrapped ((State.post_log u r).2.trans (State.logAppend_nv u r).1)) l u
  have trained : ∀ k, s.woken.deckLink k = s.unwrapKeys.trainLinks.deckLink k := fun k => by simp [State.woken, State.deckLink]
  refine ⟨by simp [State.woken], by simp [State.woken], ?_, fun k inside free => ?_, ?_, ?_, ?_, ?_⟩
  · simpa [State.woken, State.trainLinks] using now
  · rw [trained, State.deckLink_trainLinks _ inside, show s.unwrapKeys.deckLink k = s.deckLink k by rw [State.deckLink, links]; rfl, DeckLink.train, if_neg free]
  · exact (stored _ _).trans wrapped
  · simpa [State.woken, State.trainLinks] using seats
  · simpa [State.woken, State.trainLinks] using mem
  · simp [State.woken, State.trainLinks]

end Sys2Proof.Machine

namespace Sys2Proof.Proofs
open Sys2Proof Sys2Proof.Machine

/-- Settles O50: the controller's steps one by one, the trip through the table left, Sleep entry through what it empties, the wake through the keys and the links. -/
theorem heatAndSleep : Obligations.HeatAndSleep := by
  unfold Obligations.HeatAndSleep
  refine ⟨fun r s started => ⟨fun asleep => execThermalEvaluation_asleep started asleep, fun awake => ?_⟩,
    fun n s up new => ⟨fun hot => ?_, fun hot => ?_, fun cold => ⟨?_, ?_⟩⟩, fun s tripped cool => ?_,
    fun l s asked running calm boundary clock whole => ⟨_, execSleepEntry_sleeps asked running calm boundary clock whole, s.slept_sleeps l⟩,
    fun l s waits => execSleepEntry_waits waits, fun s entering => ⟨fun pins deferred pending idle => ?_, fun busy => ?_⟩,
    fun ok s waking => ⟨fun checked => ?_, fun check fails => execWakeComplete_fails waking check fails⟩⟩
  · obtain ⟨now, ms, watts, energy, temps, seats, mem, dealer, -⟩ := s.evaluated_meters r
    exact ⟨_, execThermalEvaluation_awake started awake, ms, watts, energy, temps, now, seats, mem, dealer,
      fun above free below => State.evaluated_raises above free below,
      fun x top off on reads sees low held => State.evaluated_withdraws top off on reads sees low held⟩
  · obtain ⟨st, hold, tripped, therm, crit⟩ := State.trip_trips new
    exact ⟨_, congrArg Host.Outcome.next (if_pos (by simp [hot, up])), therm, crit, tripped, hold, st⟩
  · obtain ⟨st, hold, tripped, therm, crit⟩ := State.trip_trips (s := { s with board := { s.board with critN := true } }) new
    exact ⟨_, congrArg Host.Outcome.next (if_pos (by simp [hot, up])), crit, therm, tripped, st⟩
  · exact congrArg Host.Outcome.next (if_neg (by simp; omega))
  · exact congrArg Host.Outcome.next (if_neg (by simp; omega))
  · exact congrArg Host.Outcome.next (if_pos (by simp [tripped, cool]))
  · exact congrArg Host.Outcome.next (if_neg (by simp [entering, pins, deferred, pending, idle]))
  · exact congrArg Host.Outcome.next (if_pos (by rcases busy with b | b <;> simp [b]))
  · obtain ⟨phase, check, since, links, wrapped, seats, mem, vault⟩ := s.woken_wakes
    exact ⟨_, execWakeComplete_wakes waking checked, phase, check, since, links, wrapped, seats, mem,
      fun w one allowed good => vault ▸ State.unwrapKeys_one one allowed good⟩

end Sys2Proof.Proofs
end


section
/-! Control writes: join mark, handover, group binding, halt and step, power, debug sessions, signed records, staging, rollback and firmware reset (R371, R376, R381, R475 to R496, R523 to R531). -/

namespace Sys2Proof.Machine

variable {s : State} {p : Path}

/-! ### Whole values with a check's answer -/

/-- A whole value whose effect is accepted is answered OK, whatever its entry's own check answers. -/
theorem State.wholeWrite_ok {i j : Nat} {b : Bytes} {ok : Bool} {e : OdEntry} {t : State} (opened : s.gate p i j true = 0) (entry : odEntry i j = some e)
    (fits : if typeWidth e.type = 0 then b.length ≤ e.max else b.length = typeWidth e.type)
    (effect : s.dictWrite (s.securedPath p) ok i j b = wOk t) : answerWrite (s.wholeWrite p i j b ok) = t.wroteOk := by
  rw [State.wholeWrite_fits s p i j b ok e opened entry fits, effect]
  rfl

/-! ### Cascade and group -/

theorem execJoinMark_marks (d : Word64) (opened : s.gate p 0x2500 0x09 true = 0) :
    execJoinMark p d s = .next (State.wroteOk { s with cad := { s.cad with joinMark := some (d.toNat % 2 ^ 48), joinPs := s.now } }) := by
  refine State.written_ok opened rfl (toLe_length _ _) ?_
  have value : leAll (toLe d.toNat 8) = d.toNat := leAll_toLe _ _ d.isLt
  show s.joinWrite (leAll (toLe d.toNat 8)) = _
  rw [value]
  rfl

theorem execHandover_hands {a : Nat} (opened : s.gate p 0x2500 0x03 true = 0) (inside : a ≤ 31) (banker : s.cascade.isBanker = true)
    (able : ∃ e ∈ s.hb.order, e.addr = a ∧ e.elig = true) (other : a ≠ s.hb.addr) (free : s.cascade.handoverTo = none) :
    execHandover p a s = .next (State.wroteOk { s with cascade := { s.cascade with handoverTo := some a } }) := by
  refine State.written_ok opened rfl (toLe_length _ _) ?_
  show s.handoverWrite (leAll (toLe a 1)) = _
  have listed : s.hb.order.any (fun e => e.addr = a && e.elig) = true := by simpa using able
  rw [leAll_toLe a 1 (by omega), State.handoverWrite, if_neg (by omega), if_neg (by simp [banker]), if_neg (by simp only [listed]; decide), if_neg other, if_neg (by simp [free])]

theorem State.bindWrite_stores {v : Bytes} (length : v.length = 64) (clean : nonzero v 5 3 = false) (spare : nonzero v 0x20 28 = false) (legal : s.bindingStatus v = 0) :
    s.bindWrite v = wOk { s with group := { s.group with stored := some (if le v 0 2 = 0 then none else some (parseBinding v)) } } := by
  rw [State.bindWrite, if_neg (by simp [length]), if_neg (by simp [clean, spare]), legal]
  rfl

theorem State.bindWrite_refuses {v : Bytes} (length : v.length = 64) (clean : nonzero v 5 3 = false) (spare : nonzero v 0x20 28 = false) (bad : s.bindingStatus v ≠ 0) :
    s.bindWrite v = wRefused (s.bindingStatus v) s := by
  rw [State.bindWrite, if_neg (by simp [length]), if_neg (by simp [clean, spare])]
  split
  next legal => exact absurd legal bad
  next => rfl

theorem execGroupBinding_stores {v : Bytes} (opened : s.gate p 0x2500 0x10 true = 0) (length : v.length = 64) (clean : nonzero v 5 3 = false)
    (spare : nonzero v 0x20 28 = false) (legal : s.bindingStatus v = 0) : execGroupBinding p v s = .next (State.wroteOk { s with group := { s.group with
      stored := some (if le v 0 2 = 0 then none else some (parseBinding v)) } }) := by
  exact State.written_ok opened rfl (by show v.length ≤ 64; omega) (State.bindWrite_stores length clean spare legal)

theorem execGroupBinding_refused {v : Bytes} (opened : s.gate p 0x2500 0x10 true = 0) (length : v.length = 64) (clean : nonzero v 5 3 = false)
    (spare : nonzero v 0x20 28 = false) (bad : s.bindingStatus v ≠ 0) :
    execGroupBinding p v s = .next (s.answered { status := 0x1A, detail := s.bindingStatus v, data := [] }) := by
  have effect : s.wholeWrite p 0x2500 0x10 v true = s.bindWrite v :=
    (State.wholeWrite_fits s p 0x2500 0x10 v true _ opened rfl (by show v.length ≤ 64; omega)).trans rfl
  rw [execGroupBinding, State.written, effect, State.bindWrite_refuses length clean spare bad]
  rfl

/-! ### The Dealer's halt and step, power -/

theorem execDealerHalt_sets {v : Nat} (opened : s.gate p 0x1400 0x0B true = 0) (flag : v ≤ 1) (idle : s.dealing = false) (calm : s.sec.preparing = false) :
    execDealerHalt p v s = .next (State.wroteOk { s with dealer := { s.dealer with halted := decide (v = 1) } }) := by
  refine State.written_ok opened rfl (toLe_length _ _) ?_
  show s.haltWrite (leAll (toLe v 1)) = _
  rw [leAll_toLe v 1 (by omega), State.haltWrite, if_neg (by omega), if_neg (by simp [State.openActionShut, idle, calm])]

theorem execDealerStep_steps {n : Nat} (opened : s.gate p 0x1400 0x0C true = 0) (least : 1 ≤ n) (few : n ≤ 65535) (idle : s.dealing = false) (calm : s.sec.preparing = false)
    (halted : s.dealer.halted = true) : execDealerStep p n s = .next (State.wroteOk { s with dealer := { s.dealer with stepsDone := s.dealer.stepsDone + n } }) := by
  refine State.written_ok opened rfl (toLe_length _ _) ?_
  have effect : ∀ b, s.dictWrite (s.securedPath p) true 0x1400 0x0C b = s.stepWrite (leAll b) := fun _ => rfl
  rw [effect, leAll_toLe n 4 (by omega), State.stepWrite, if_neg (by simp; omega), if_neg (by simp [State.openActionShut, idle, calm, halted])]

theorem execSleepRequest_asks (opened : s.gate p 0x1300 0x01 true = 0) (running : s.power.phase = 0) :
    execSleepRequest p s = .next (State.wroteOk { s with power := { s.power with sleepReq := true } }) := by
  refine State.written_ok opened rfl rfl ?_
  show s.powerWrite 1 = _
  simp [State.powerWrite, running]

/-- A Run request has its effect by the phase of Sleep it meets (R496). -/
theorem execRunRequest_asks {t : State} (opened : s.gate p 0x1300 0x01 true = 0) (effect : s.powerWrite 2 = wOk t) : execRunRequest p s = .next t.wroteOk :=
  State.written_ok opened rfl rfl effect

/-! ### Debug sessions -/

/-- Keys unwrapped and an end noted move nothing of the serving unit, nor the life cycle and the grant that waits. -/
theorem State.unwrapKeys_session (s : State) :
    s.unwrapKeys.svis = s.svis ∧ s.unwrapKeys.sec.lifeCycle = s.sec.lifeCycle ∧ s.unwrapKeys.sec.openWait = s.sec.openWait := by
  unfold State.unwrapKeys
  split
  · exact ⟨rfl, rfl, rfl⟩
  · exact ⟨foldl_keeps State.svis (fun u w => by split <;> simp) _ s, foldl_keeps (fun u => u.sec.lifeCycle) (fun u w => by split <;> simp) _ s,
      foldl_keeps (fun u => u.sec.openWait) (fun u w => by split <;> simp) _ s⟩

@[simp] theorem State.noteEnd_frame (s : State) : s.noteEnd.seats = s.seats ∧ s.noteEnd.mem = s.mem ∧ s.noteEnd.svis = s.svis
    ∧ s.noteEnd.sec.lifeCycle = s.sec.lifeCycle ∧ s.noteEnd.sec.openWait = s.sec.openWait := by
  unfold State.noteEnd
  split <;> simp

/-- A session that ends leaves the base level, no expiry and no wait (R475). -/
theorem State.closeDebug_ends {s : State} {ok : Bool} (opened : s.sec.session = true) (checked : s.sec.level = 2 → s.keysAllowed = true → ok = true) :
    (s.closeDebug ok).sec.session = false ∧ (s.closeDebug ok).sec.level = baseLevel s.sec.lifeCycle ∧ (s.closeDebug ok).sec.expiry = none
      ∧ (s.closeDebug ok).sec.openWait = s.sec.openWait ∧ (s.sec.level ≠ 2 → (s.closeDebug ok).sec.events = s.sec.events + 1)
      ∧ (s.closeDebug ok).seats = s.seats ∧ (s.closeDebug ok).mem = s.mem ∧ (s.closeDebug ok).svis = s.svis := by
  rw [State.closeDebug, if_neg (by simp [opened]), State.changeLevel]
  split
  next leaves =>
    simp only [Bool.and_eq_true, decide_eq_true_eq] at leaves
    obtain ⟨⟨wasOpen, -⟩, allowed⟩ := leaves
    rw [if_pos (checked wasOpen allowed)]
    obtain ⟨svis, life, wait⟩ := s.unwrapKeys_session
    obtain ⟨-, -, seats, mem, -⟩ := s.unwrapKeys_keeps
    obtain ⟨endSeats, endMem, endVis, endLife, endWait⟩ := s.unwrapKeys.noteEnd_frame
    refine ⟨?_, rfl, rfl, endWait.trans wait, fun other => absurd wasOpen other, endSeats.trans seats, endMem.trans mem, endVis.trans svis⟩
    simp [State.setLevel, life]
  next =>
    have noted : s.noteEnd.sec = { s.sec with events := s.sec.events + 1 } := by simp [State.noteEnd, opened]
    obtain ⟨seats, mem, svis, -, wait⟩ := s.noteEnd_frame
    refine ⟨?_, rfl, rfl, wait, fun _ => congrArg Sec.events noted, seats, mem, svis⟩
    simp [State.setLevel]

theorem State.endSessionWrite_ends {ok : Bool} (calm : s.sec.preparing = false) :
    s.endSessionWrite 1 ok = wOk (State.closeDebug { s with sec := { s.sec with openWait := none } } ok) := by
  rw [State.endSessionWrite, if_neg (by decide), if_neg (by simp [calm])]

theorem execEndDebugSession_ends {ok : Bool} (opened : s.gate p 0x1400 0x03 true = 0) (calm : s.sec.preparing = false) :
    execEndDebugSession p ok s = .next (State.wroteOk (State.closeDebug { s with sec := { s.sec with openWait := none } } ok)) :=
  congrArg Host.Outcome.next (State.wholeWrite_ok opened rfl rfl (State.endSessionWrite_ends calm))

/-! ### Signed records -/

/-- A well-formed record, due in no other way, waits for its verification (R482). -/
theorem State.signedWrite_waits {kind : Nat} {r : Bytes} (length : r.length = 256) (clean : signedRsvd kind r = false) (running : s.power.phase = 0)
    (legal : s.signedRefusal kind r = 0) : s.signedWrite kind r = wOk { s with sec := { s.sec with verifying := some (parseSigned kind r) } } := by
  have filled : r ≠ [] := by
    rintro rfl
    simp at length
  rw [State.signedWrite, if_neg (by simp [length]), if_neg (by simp [clean]), if_neg (by simp [running]), if_neg (by simp [filled]), legal]
  rfl

theorem written_grant {r : Bytes} (opened : s.gate p 0x1400 0x02 true = 0) (length : r.length = 256) (clean : signedRsvd 0 r = false) (running : s.power.phase = 0)
    (legal : s.signedRefusal 0 r = 0) : s.written p 0x1400 0x02 r = .next (State.wroteOk { s with sec := { s.sec with verifying := some (parseSigned 0 r) } }) :=
  State.written_ok opened rfl (by show r.length ≤ 2048; omega) (State.signedWrite_waits length clean running legal)

theorem execCrownAuthorisation_waits {r : Bytes} (opened : s.gate p 0x1500 0x14 true = 0) (length : r.length = 256) (clean : signedRsvd 2 r = false)
    (running : s.power.phase = 0) (legal : s.signedRefusal 2 r = 0) :
    execCrownAuthorisation p r s = .next (State.wroteOk { s with sec := { s.sec with verifying := some (parseSigned 2 r) } }) :=
  State.written_ok opened rfl (by show r.length ≤ 256; omega) (State.signedWrite_waits length clean running legal)

theorem execBlankOpenGrant_opens (opened : s.gate p 0x1400 0x02 true = 0) (running : s.power.phase = 0) (blank : s.sec.lifeCycle = 0) (free : s.securityBusy = false) :
    execBlankOpenGrant p s = .next (State.wroteOk (s.noteEnd.setLevel 2 3 none)) := by
  refine State.written_ok opened rfl (Nat.zero_le _) ?_
  show s.signedWrite 0 [] = _
  rw [State.signedWrite, if_neg (by simp), if_neg (by simp), if_neg (by simp [running]), if_pos (by simp [blank]), if_neg (by simp [free])]

theorem State.noteEnd_authSeq (s : State) : s.noteEnd.nv.authSeq = s.nv.authSeq := by
  unfold State.noteEnd
  split
  · rw [State.security, State.securityFor, (State.post_log _ _).2, (State.logAppend_nv _ _).1]
  · rfl

/-! ### Staging, rollback and the firmware reset -/

/-- The boot record reads back as it was written, but for its number (R511). -/
theorem State.boot_writeBoot (s : State) (b : Boot) : ∃ n, (s.writeBoot b).boot = { b with seq := n } :=
  ⟨_, if_neg (Nat.lt_irrefl _)⟩

/-- What is staged is no longer authorised, and no copy of it is pending (R523, R525). -/
theorem State.clearStaged_clears (s : State) : s.clearStaged.boot.pend = 0 ∧ s.clearStaged.start.auths = 0 ∧ s.clearStaged.nv.rescueStaged = false
    ∧ s.clearStaged.nv.staging = s.nv.staging ∧ s.clearStaged.nv.stagingState = s.nv.stagingState ∧ s.clearStaged.nv.slotA = s.nv.slotA
    ∧ s.clearStaged.nv.slotB = s.nv.slotB ∧ s.clearStaged.nv.crown = s.nv.crown ∧ s.clearStaged.seats = s.seats ∧ s.clearStaged.mem = s.mem := by
  unfold State.clearStaged
  dsimp only
  split
  · refine ⟨?_, rfl, rfl, rfl, rfl, rfl, rfl, rfl, rfl, rfl⟩
    obtain ⟨n, back⟩ := State.boot_writeBoot { s with start := { s.start with auths := 0 }, nv := { s.nv with rescueStaged := false } } { s.boot with pend := 0 }
    exact congrArg Boot.pend back
  next none => exact ⟨not_not.mp none, rfl, rfl, rfl, rfl, rfl, rfl, rfl, rfl, rfl⟩

/-- A piece staged anew (R523). -/
def State.piece (s : State) (k : Nat) (v : Bytes) : State := { s with nv := { s.nv with staging := aset k v s.nv.staging, stagingState := 1 } }

theorem odEntry_piece {k : Nat} (inside : k < 16) : odEntry 0x1500 (0x20 + k) = odWo 10 .pf0Bmc 1048576 := by
  have listed : (0x20 ≤ 0x20 + k && 0x20 + k ≤ 0x2F) = true := by simp; omega
  unfold odEntry
  rw [if_neg (by omega), if_neg (by decide), if_neg (by decide)]
  show od1500 (0x20 + k) = _
  unfold od1500
  exact if_pos (by simpa using listed)

theorem State.dictWrite_piece (s : State) (secured ok : Bool) (k : Nat) (v : Bytes) : s.dictWrite secured ok 0x1500 (0x20 + k) v = s.pieceWrite k v := by
  have plain : (isPolicy 0x1500 (0x20 + k) || fixedBelow.any (fun e => e.1 = 0x1500 && e.2.1 = 0x20 + k)) = false := by simp [isPolicy, fixedBelow]
  have noTable : isTableSlot 0x1500 (0x20 + k) = false := by simp [isTableSlot]
  unfold State.dictWrite
  dsimp only
  rw [if_neg (by simp [plain]), if_neg (by simp [noTable]), if_neg (by decide), if_neg (by decide), if_neg (by decide), if_pos (by simp), Nat.add_sub_cancel_left]

theorem execStagingPieceWrite_stages {k : Nat} {v : Bytes} (opened : s.gate p 0x1500 (0x20 + k) true = 0) (inside : k < 16) (fits : v.length ≤ 1048576) :
    execStagingPieceWrite p k v s = .next (s.piece k v).clearStaged.wroteOk := by
  refine State.written_ok opened (odEntry_piece inside) fits ?_
  rw [State.dictWrite_piece, State.pieceWrite, if_neg (by omega)]
  rfl

theorem execStageCheck_checks (opened : s.gate p 0x1500 0x11 true = 0) (free : s.nv.stagingState ≠ 2) :
    execStageCheck p s = .next (State.wroteOk { s with nv := { s.nv with stagingState := 2 } }) := by
  refine State.written_ok opened rfl rfl ?_
  show s.checkWrite 1 = _
  rw [State.checkWrite, if_neg (by decide), if_neg free, if_pos rfl]

theorem execDiscard_discards (opened : s.gate p 0x1500 0x11 true = 0) (free : s.nv.stagingState ≠ 2) :
    execDiscard p s = .next (State.clearStaged { s with nv := { s.nv with staging := [], stagingState := 0 } }).wroteOk := by
  refine State.written_ok opened rfl rfl ?_
  show s.checkWrite 2 = _
  rw [State.checkWrite, if_neg (by decide), if_neg free, if_neg (by decide)]

/-- The boot record a rollback leaves (R530). -/
def State.rolledBoot (s : State) : Boot :=
  { (if s.start.trial then s.boot.setSlot s.start.runB 3 else s.boot) with activeB := !s.start.runB, tried := false, last := 0xB6 }

@[simp] theorem Boot.slot_setSlot_same (b : Boot) (isB : Bool) (v : Nat) : (b.setSlot isB v).slot isB = v := by cases isB <;> rfl
@[simp] theorem Boot.slot_setSlot_other (b : Boot) (isB : Bool) (v : Nat) : (b.setSlot isB v).slot (!isB) = b.slot (!isB) := by cases isB <;> rfl

theorem State.rolledBoot_slots (s : State) : s.rolledBoot.slot s.start.runB = (if s.start.trial then 3 else s.boot.slot s.start.runB)
    ∧ s.rolledBoot.slot (!s.start.runB) = s.boot.slot (!s.start.runB) := by
  have moved : ∀ isB, s.rolledBoot.slot isB = (if s.start.trial then s.boot.setSlot s.start.runB 3 else s.boot).slot isB := fun _ => rfl
  rw [moved, moved]
  cases s.start.trial <;> simp

theorem execRollback_rolls (opened : s.gate p 0x1500 0x19 true = 0) (confirmed : s.boot.slot (!s.start.runB) = 1)
    (floor : s.boot.brimFloor ≤ svn (if s.start.runB then s.nv.slotA else s.nv.slotB).header) :
    execRollback p 0x4B434252#32 true s = .next (s.writeBoot s.rolledBoot).wroteOk := by
  refine congrArg Host.Outcome.next (State.wholeWrite_ok opened rfl (toLe_length _ _) ?_)
  have value : leAll (toLe (0x4B434252#32).toNat 4) = 0x4B434252 := by decide
  show s.rollbackWrite (leAll (toLe (0x4B434252#32).toNat 4)) true = _
  have image : (if (!s.start.runB) = true then s.nv.slotB else s.nv.slotA) = (if s.start.runB then s.nv.slotA else s.nv.slotB) := by cases s.start.runB <;> rfl
  rw [value, State.rollbackWrite]
  dsimp only
  rw [image, if_neg (by simp [confirmed, floor]), if_neg (by decide)]
  rfl

theorem execFirmwareReset_resets {t : State} (opened : s.gate p 0x1500 0x1E true = 0)
    (effect : (if s.atBoundary then wOk (s.reboot 3) else wOk { s with start := { s.start with resetReq := true } }) = wOk t) :
    execFirmwareReset p 0x54455352#32 s = .next t.wroteOk := by
  refine State.written_ok opened rfl (toLe_length _ _) ?_
  have value : leAll (toLe (0x54455352#32).toNat 4) = 0x54455352 := by decide
  show s.resetWrite (leAll (toLe (0x54455352#32).toNat 4)) = _
  rw [value, State.resetWrite, if_neg (by decide), effect]

end Sys2Proof.Machine

namespace Sys2Proof.Proofs
open Sys2Proof Sys2Proof.Machine

/-- Settles O42, one clause per entry: what the entry's effect does to a legal value, and the answer OK. -/
theorem controlWrites : Obligations.ControlWrites := by
  unfold Obligations.ControlWrites
  refine ⟨fun p d s opened => execJoinMark_marks d opened,
    fun p a s opened inside banker able other free => execHandover_hands opened inside banker able other free,
    fun p v s opened length clean spare => ⟨execGroupBinding_stores opened length clean spare, execGroupBinding_refused opened length clean spare⟩,
    fun p v s opened flag idle calm => execDealerHalt_sets opened flag idle calm,
    fun p n s opened least most idle calm halted => execDealerStep_steps opened least most idle calm halted,
    fun p s opened => ⟨execSleepRequest_asks opened, fun run => execRunRequest_asks opened (by simp [State.powerWrite, run]),
      fun entering => execRunRequest_asks opened (by simp [State.powerWrite, entering]), fun asleep => execRunRequest_asks opened (by simp [State.powerWrite, asleep])⟩,
    fun p ok s opened calm => ⟨fun none => ?_, fun session checked => ?_⟩,
    fun p r s opened length clean running legal => ⟨fun _ => written_grant opened length clean running legal, fun _ => written_grant opened length clean running legal⟩,
    fun p s opened running blank free => ?_,
    fun p r s opened length clean running legal => execCrownAuthorisation_waits opened length clean running legal,
    fun p k v s opened inside fits => ?_, fun p s opened free => ⟨execStageCheck_checks opened free, ?_⟩, fun p s opened confirmed floor => ?_,
    fun p s opened within => execFirmwareReset_resets opened (if_neg (by simp [within])), fun p s opened boundary => execFirmwareReset_resets opened (if_pos boundary)⟩
  case refine_1 =>
    rw [show exec (.endDebugSession p ok) s = execEndDebugSession p ok s from rfl, execEndDebugSession_ends opened calm, State.closeDebug, if_pos (by simp [none])]
  case refine_2 =>
    obtain ⟨closed, level, expiry, wait, events, seats, mem, svis⟩ := State.closeDebug_ends (s := { s with sec := { s.sec with openWait := Option.none } }) session checked
    exact ⟨_, execEndDebugSession_ends opened calm, closed, level, expiry, wait, events, rfl, seats, mem, svis⟩
  case refine_3 =>
    obtain ⟨seats, mem, svis, life, -⟩ := s.noteEnd_frame
    refine ⟨_, execBlankOpenGrant_opens opened running blank free, rfl, ?_, rfl, rfl, rfl, seats, mem, svis, s.noteEnd_authSeq⟩
    show decide (2 ≠ baseLevel s.noteEnd.sec.lifeCycle) = true
    rw [life, blank]
    rfl
  case refine_4 =>
    obtain ⟨pend, auths, rescue, staging, state, slotA, slotB, crown, seats, mem⟩ := (s.piece k v).clearStaged_clears
    exact ⟨_, execStagingPieceWrite_stages opened inside fits, staging, state, rescue, auths, pend, rfl, slotA, slotB, crown, seats, mem⟩
  case refine_5 =>
    obtain ⟨pend, auths, rescue, staging, state, slotA, slotB, crown, -⟩ := State.clearStaged_clears { s with nv := { s.nv with staging := [], stagingState := 0 } }
    exact ⟨_, execDiscard_discards opened free, staging, state, rescue, auths, pend, rfl, slotA, slotB, crown⟩
  case refine_6 =>
    obtain ⟨n, back⟩ := s.boot_writeBoot s.rolledBoot
    obtain ⟨own, other⟩ := s.rolledBoot_slots
    exact ⟨_, execRollback_rolls opened confirmed floor, congrArg Boot.activeB back, congrArg Boot.tried back, congrArg Boot.last back,
      (congrArg (Boot.slot · s.start.runB) back).trans own, (congrArg (Boot.slot · (!s.start.runB)) back).trans (other.trans confirmed), rfl, rfl, rfl, rfl⟩

end Sys2Proof.Proofs
end


section
/-! How a device starts: the ROM and the Crown, the Brim's start, staging checks and confirmation (R509, R512 to R527, R568). -/

namespace Sys2Proof.Machine

variable {s : State}

/-! ### What an UPDATE event leaves alone -/

/-- An UPDATE event writes the logs and rings alone. -/
@[simp] theorem State.update_frame (s : State) (detail version : Nat) (slotB : Bool) : (s.update detail version slotB).start = s.start
    ∧ (s.update detail version slotB).sec = s.sec ∧ (s.update detail version slotB).seats = s.seats ∧ (s.update detail version slotB).mem = s.mem
    ∧ (s.update detail version slotB).forms = s.forms ∧ (s.update detail version slotB).dealer = s.dealer ∧ (s.update detail version slotB).now = s.now
    ∧ (s.update detail version slotB).cascade = s.cascade ∧ (s.update detail version slotB).dict = s.dict := by simp [State.update]

/-- Of the hub store an UPDATE event writes the persistent log alone. -/
theorem State.update_nv (s : State) (detail version : Nat) (slotB : Bool) :
    (s.update detail version slotB).nv = { s.nv with plog := (s.update detail version slotB).nv.plog } := by
  rw [State.update, (State.post_log _ _).2]
  exact (State.logAppend_nv _ _).1

/-- What reads the hub store past its log reads the same after an UPDATE event. -/
theorem State.update_reads {α : Type} (f : Nv → α) (past : ∀ (n : Nv) l, f { n with plog := l } = f n) (s : State) (detail version : Nat) (slotB : Bool) :
    f (s.update detail version slotB).nv = f s.nv := by
  rw [s.update_nv]
  exact past _ _

theorem State.update_boot (s : State) (detail version : Nat) (slotB : Bool) : (s.update detail version slotB).boot = s.boot := by
  unfold State.boot State.bootRec
  rw [s.update_nv]

/-! ### Release: the ROM and the Crown (R513, R568) -/

theorem execResetRelease_rails {st : Straps} {ck : BootChecks} (down : s.start.up = false) (fair : s.start.railFault = false) (low : st.railsOk = false) :
    execResetRelease st ck s = .next { s with board := { s.board with bankerEn := st.bankerEn, hbAddr := st.hbAddr % 32 }, start := { s.start with railFault := true } } :=
  congrArg Host.Outcome.next ((if_neg (by simp [down, fair])).trans (if_pos (by simp [low])))

/-- The straps sampled, and the ring address of boot record `b` or of the straps (R416, R568). -/
def State.strapped (s : State) (st : Straps) (b : Boot) : State :=
  { s with board := { s.board with bankerEn := st.bankerEn, hbAddr := st.hbAddr % 32, hbAlive := true },
           hb := { s.hb with addr := if b.ringValid then b.ringAddr else st.hbAddr % 32 } }

theorem State.boot_of_bootRec {b : Boot} (record : s.bootRec = some b) : s.boot = b := by rw [State.boot, record]; rfl

/-- With nothing pending the ROM asks only whether the Crown verifies. -/
theorem romBoot_plain {ck : BootChecks} {b : Boot} (whole : b.crownCopy = false) (idle : b.pend = 0) (n : Nv) (img : Image) : romBoot ck b n img = (b, n, ck.crownOk) := by
  rw [romBoot, if_neg (by simp [whole]), if_neg (by simp [idle])]

/-- The Crown with nothing pending: the slot it starts after a trial is judged, and what the record is then (R513). -/
theorem crownBoot_plain {ck : BootChecks} {b : Boot} (idle : b.pend = 0) (n : Nv) (img : Image) : crownBoot ck b n img =
    (let c := crownTrial b
     let verifies := fun isB => if isB then ck.slotBOk else ck.slotAOk
     if verifies c.activeB then (c, n, .brim)
     else if c.slot (!c.activeB) = 1 && verifies (!c.activeB) then (Boot.setSlot { c with activeB := !c.activeB, last := 0xB5 } c.activeB 3, n, .brim)
     else (c, n, .rescue)) := by
  have copies : crownCopies ck b n img = (b, n, ck.slotAOk, ck.slotBOk) := if_pos (by simp [idle])
  rw [crownBoot, copies]

/-- The Crown's part for a device whose boot record `b` has nothing pending (R513). -/
def State.crownRun (s : State) (ck : BootChecks) (b : Boot) : State :=
  if ck.crownOk then
    let r := crownBoot ck b s.nv s.stagedImage
    let t := State.writeBoot { s with nv := r.2.1.stagingAtStart } r.1
    if r.2.2 = .rescue then t.enterRescue else { t with start := { t.start with up := true, runB := r.1.activeB, trial := r.1.slot r.1.activeB = 2 } }
  else s.enterLamed

section
variable {st : Straps} {ck : BootChecks} {b : Boot}

theorem execResetRelease_runs (down : s.start.up = false) (fair : s.start.railFault = false) (rails : st.railsOk = true) (fuse : s.nv.fuse ≠ 4)
    (record : s.bootRec = some b) (whole : b.crownCopy = false) (idle : b.pend = 0) : execResetRelease st ck s = .next ((s.strapped st b).crownRun ck b) := by
  unfold execResetRelease
  rw [if_neg (by simp [down, fair]), if_neg (by simp [rails])]
  extract_lets _ boot ringAddr _ _ sampled sec start img copy
  have known : boot = some b := record
  have copies : copy = 0 := by simp [copy, known, whole, idle]
  have ring : ringAddr = (if b.ringValid then b.ringAddr else st.hbAddr % 32) := by simp only [ringAddr, known]
  clear_value copy boot ringAddr
  subst copies known ring
  have samples : sampled = s.strapped st b := rfl
  have images : img = sampled.stagedImage := rfl
  have secs : sec = sampled.sec := rfl
  have starts : start = sampled.start := rfl
  clear_value sampled img sec start
  subst secs starts images samples
  have strapped : (s.strapped st b).boot = b := State.boot_of_bootRec (s := s.strapped st b) record
  have rom : romBoot ck (s.strapped st b).boot (s.strapped st b).nv (s.strapped st b).stagedImage = (b, (s.strapped st b).nv, ck.crownOk) := by
    rw [strapped, romBoot_plain whole idle]
  have blown : (s.strapped st b).nv.fuse ≠ 4 := fuse
  generalize s.strapped st b = u at *
  rw [if_neg blown, rom]
  dsimp only
  unfold State.crownRun
  cases ck.crownOk with
  | false => simp [whole]
  | true => simp

end

/-- The Brim started from the slot that boot record `c` names. -/
def State.brimRun (s : State) (c : Boot) : State :=
  let t := State.writeBoot { s with nv := s.nv.stagingAtStart } c
  { t with start := { t.start with up := true, runB := c.activeB, trial := c.slot c.activeB = 2 } }

theorem State.crownRun_brim {ck : BootChecks} {b c : Boot} (good : ck.crownOk = true) (boots : crownBoot ck b s.nv s.stagedImage = (c, s.nv, .brim)) :
    s.crownRun ck b = s.brimRun c := by
  rw [State.crownRun, if_pos good, boots]
  exact if_neg (show BootPath.brim ≠ .rescue by decide)

theorem State.crownRun_rescue {ck : BootChecks} {b c : Boot} (good : ck.crownOk = true) (boots : crownBoot ck b s.nv s.stagedImage = (c, s.nv, .rescue)) :
    s.crownRun ck b = (State.writeBoot { s with nv := s.nv.stagingAtStart } c).enterRescue := by
  rw [State.crownRun, if_pos good, boots]
  exact if_pos rfl

theorem crownTrial_confirmed {b : Boot} (confirmed : b.slot b.activeB ≠ 2) : crownTrial b = b := if_pos confirmed

theorem crownTrial_first {b : Boot} (trial : b.slot b.activeB = 2) (new : b.tried = false) : crownTrial b = { b with tried := true } := by
  rw [crownTrial, if_neg (not_not.mpr trial), if_neg (by simp [new])]

theorem crownTrial_again {b : Boot} (trial : b.slot b.activeB = 2) (tried : b.tried = true) :
    crownTrial b = Boot.setSlot { b with activeB := !b.activeB, last := 0xB5 } b.activeB 3 := by
  rw [crownTrial, if_neg (not_not.mpr trial), if_pos tried]

/-- The slot in the record verifies: its Brim starts. -/
theorem crownBoot_brim {ck : BootChecks} {b c : Boot} (idle : b.pend = 0) (trial : crownTrial b = c) (verifies : (if c.activeB then ck.slotBOk else ck.slotAOk) = true)
    (n : Nv) (img : Image) : crownBoot ck b n img = (c, n, .brim) := by
  rw [crownBoot_plain idle, trial]
  exact if_pos verifies

/-- No slot verifies: the rescue (R515). -/
theorem crownBoot_rescue {ck : BootChecks} {b : Boot} (idle : b.pend = 0) (noA : ck.slotAOk = false) (noB : ck.slotBOk = false)
    (n : Nv) (img : Image) : crownBoot ck b n img = (crownTrial b, n, .rescue) := by
  rw [crownBoot_plain idle]
  simp [noA, noB]

theorem State.brimRun_boot (s : State) (c : Boot) : ∃ n, (s.brimRun c).boot = { c with seq := n } := State.boot_writeBoot _ c

/-- The images and the fuse are not the Crown's to move when nothing is pending. -/
theorem State.brimRun_images (s : State) (c : Boot) : (s.brimRun c).nv.slotA = s.nv.slotA ∧ (s.brimRun c).nv.slotB = s.nv.slotB
    ∧ (s.brimRun c).nv.crown = s.nv.crown ∧ (s.brimRun c).nv.fuse = s.nv.fuse := by
  have kept : s.nv.stagingAtStart.slotA = s.nv.slotA ∧ s.nv.stagingAtStart.slotB = s.nv.slotB ∧ s.nv.stagingAtStart.crown = s.nv.crown
      ∧ s.nv.stagingAtStart.fuse = s.nv.fuse := by
    unfold Nv.stagingAtStart
    split <;> exact ⟨rfl, rfl, rfl, rfl⟩
  exact kept

/-- A record that gives up on the slot it names, for the other one (R513). -/
def Boot.fallBack (b : Boot) : Boot := Boot.setSlot { b with activeB := !b.activeB, last := 0xB5 } b.activeB 3

theorem Boot.fallBack_falls (b : Boot) : b.fallBack.activeB = !b.activeB ∧ b.fallBack.last = 0xB5 ∧ b.fallBack.slot b.activeB = 3
    ∧ b.fallBack.slot (!b.activeB) = b.slot (!b.activeB) := by
  refine ⟨?_, ?_, Boot.slot_setSlot_same _ _ _, Boot.slot_setSlot_other _ _ _⟩ <;> (unfold Boot.fallBack Boot.setSlot; cases b.activeB <;> rfl)

/-! ### The Brim's start (R509, R516 to R522) -/

/-- What the user layer and the effects completed at start leave alone. -/
@[simp] abbrev State.Loads (t s : State) : Prop :=
  t.now = s.now ∧ t.seats = s.seats ∧ t.sec.lifeCycle = s.sec.lifeCycle ∧ t.nv.scrubOwed = s.nv.scrubOwed

theorem State.Loads.trans {s t u : State} (h : u.Loads t) (g : t.Loads s) : u.Loads s :=
  ⟨h.1.trans g.1, h.2.1.trans g.2.1, h.2.2.1.trans g.2.2.1, h.2.2.2.trans g.2.2.2⟩

theorem State.post_scrubOwed (s : State) (r : EvReq) : (s.post r).nv.scrubOwed = s.nv.scrubOwed := by rw [(State.post_log _ _).2, (State.logAppend_nv _ _).1]

theorem State.cfgDiverge_loads (s : State) (detail : Nat) : (s.cfgDiverge detail).Loads s := by
  unfold State.cfgDiverge
  split
  · simp
  · exact ⟨by simp, by simp, by simp, State.post_scrubOwed _ _⟩

theorem State.putSetting_loads (s : State) (index sub v : Nat) : (s.putSetting index sub v).Loads s := by
  fun_cases State.putSetting s index sub v <;> exact ⟨rfl, rfl, rfl, rfl⟩

theorem State.applyRec_loads (s : State) (r : UserRec) : (s.applyRec r).Loads s := by
  unfold State.applyRec
  split
  · exact ⟨rfl, rfl, rfl, rfl⟩
  · split
    · exact State.putSetting_loads _ _ _ _
    · exact ⟨rfl, rfl, rfl, rfl⟩

theorem State.syncRingAddr_loads (s : State) : s.syncRingAddr.Loads s := by
  fun_cases State.syncRingAddr s <;> exact ⟨rfl, rfl, rfl, rfl⟩

theorem applyRec_foldl (l : List UserRec) (s : State) : (l.foldl State.applyRec s).Loads s := by
  induction l generalizing s with
  | nil => exact ⟨rfl, rfl, rfl, rfl⟩
  | cons r l ih => exact (ih _).trans (s.applyRec_loads r)

theorem State.loadUser_loads (s : State) : s.loadUser.Loads s := by
  unfold State.loadUser
  extract_lets _ _ _ chosen choice told applied
  have tells : told.Loads s := (State.cfgDiverge_loads _ _).trans ⟨rfl, rfl, rfl, rfl⟩
  have applies : applied.Loads told := by
    unfold applied
    split
    · exact applyRec_foldl _ _
    · exact ⟨rfl, rfl, rfl, rfl⟩
  exact applied.syncRingAddr_loads.trans (applies.trans tells)

theorem State.security_scrubOwed (s : State) (d a b c e : Nat) : (s.security d a b c e).nv.scrubOwed = s.nv.scrubOwed := State.post_scrubOwed _ _

/-- The life cycle at start: the fuse's, else the record's where it reads well, else Deployed (R471). -/
theorem State.startSecurity_starts (s : State) (lifeOk : Bool) : (s.startSecurity lifeOk).now = s.now ∧ (s.startSecurity lifeOk).seats = s.seats
    ∧ (s.startSecurity lifeOk).sec.lifeCycle = (if s.nv.fuse = 3 then 3 else if lifeOk then s.nv.lifeCycle else 2) := by
  unfold State.startSecurity
  dsimp only
  split
  · exact ⟨rfl, rfl, rfl⟩
  · simp [State.setLevel]

theorem State.completeEffects_completes (s : State) : s.completeEffects.now = s.now ∧ s.completeEffects.seats = s.seats
    ∧ s.completeEffects.sec.lifeCycle = s.sec.lifeCycle ∧ s.completeEffects.nv.scrubOwed = false := by
  unfold State.completeEffects
  extract_lets owed _ bounded _ scrubbed
  have bounds : bounded.Loads s := by
    unfold bounded
    split <;> exact ⟨rfl, rfl, rfl, rfl⟩
  have scrubs : scrubbed.now = bounded.now ∧ scrubbed.seats = bounded.seats ∧ scrubbed.sec.lifeCycle = bounded.sec.lifeCycle ∧ scrubbed.nv.scrubOwed = false := by
    unfold scrubbed
    split
    · refine ⟨by simp, by simp, by simp, ?_⟩
      rw [State.security_scrubOwed]
    next clean => exact ⟨rfl, rfl, rfl, by simpa using clean⟩
  obtain ⟨now, seats, life, -⟩ := bounds
  obtain ⟨now', seats', life', done⟩ := scrubs
  split
  · exact ⟨now'.trans now, seats'.trans seats, life'.trans life, done⟩
  · exact ⟨now'.trans now, seats'.trans seats, life'.trans life, done⟩

/-- The Brim loaded, before it takes the ring. -/
def State.loaded (s : State) (lifeOk : Bool) : State := (s.startSecurity lifeOk).completeEffects.loadUser

theorem State.loaded_loads (s : State) (lifeOk : Bool) : (s.loaded lifeOk).now = s.now ∧ (s.loaded lifeOk).seats = s.seats
    ∧ (s.loaded lifeOk).sec.lifeCycle = (if s.nv.fuse = 3 then 3 else if lifeOk then s.nv.lifeCycle else 2) ∧ (s.loaded lifeOk).nv.scrubOwed = false := by
  obtain ⟨now, seats, life⟩ := s.startSecurity_starts lifeOk
  obtain ⟨now', seats', life', done⟩ := (s.startSecurity lifeOk).completeEffects_completes
  obtain ⟨now'', seats'', life'', kept⟩ := (s.startSecurity lifeOk).completeEffects.loadUser_loads
  exact ⟨now''.trans (now'.trans now), seats''.trans (seats'.trans seats), life''.trans (life'.trans life), kept.trans done⟩

/-- The Brim on the ring, its field map `field` (R510, R516). -/
def State.takeRing (s : State) (field : RepairMap) : State := { s with nv := { s.nv with field }, start := { s.start with stage := 1, readyPs := s.now } }

theorem State.takeRing_takes (s : State) (field : RepairMap) : (s.takeRing field).start.stage = 1 ∧ (s.takeRing field).start.readyPs = s.now
    ∧ (s.takeRing field).nv.field = field ∧ (s.takeRing field).sec = s.sec ∧ (s.takeRing field).nv.scrubOwed = s.nv.scrubOwed ∧ (s.takeRing field).seats = s.seats :=
  ⟨rfl, rfl, rfl, rfl, rfl, rfl⟩

/-- The device Hatband-ready; without a field map it says so (R510). -/
def State.hatbandUp (s : State) (nv : NvChecks) : State :=
  let u := (s.loaded nv.lifeOk).takeRing ((fieldAtStart nv s.nv).getD {})
  if (fieldAtStart nv s.nv).isSome then u else u.update 0xBB u.brimVersion u.start.runB

section
variable {nv : NvChecks} (up : s.start.up = true) (early : s.start.stage = 0) (fair : s.start.factoryBad = false) (whole : s.sec.lifeCycle ≠ 4)
include up early fair whole

theorem execHatbandReady_ready (good : nv.factoryOk = true) : execHatbandReady nv s = .next (s.hatbandUp nv) := by
  unfold execHatbandReady
  rw [if_neg (by simp [up, early, fair, whole]), if_neg (by simp [good])]
  extract_lets field _ loaded _ _ ring
  have loads : loaded = s.loaded nv.lifeOk := rfl
  clear_value loaded
  subst loads
  have takes : ring = (s.loaded nv.lifeOk).takeRing (field.getD {}) := rfl
  unfold State.hatbandUp
  rw [takes]

theorem execHatbandReady_held (bad : nv.factoryOk = false) (stable : s.start.trial = false) :
    execHatbandReady nv s = .next { s with start := { s.start with factoryBad := true } } :=
  congrArg Host.Outcome.next ((if_neg (by simp [up, early, fair, whole])).trans ((if_pos (by simp [bad])).trans (if_neg (by simp [stable]))))
end

theorem State.hatbandUp_readies (s : State) (nv : NvChecks) : (s.hatbandUp nv).start.stage = 1 ∧ (s.hatbandUp nv).start.readyPs = s.now
    ∧ (s.hatbandUp nv).nv.field = (fieldAtStart nv s.nv).getD {}
    ∧ (s.hatbandUp nv).sec.lifeCycle = (if s.nv.fuse = 3 then 3 else if nv.lifeOk then s.nv.lifeCycle else 2) ∧ (s.hatbandUp nv).nv.scrubOwed = false
    ∧ (s.hatbandUp nv).seats = s.seats := by
  obtain ⟨now, seats, life, owed⟩ := s.loaded_loads nv.lifeOk
  obtain ⟨stage, since, field, sec, scrub, sits⟩ := (s.loaded nv.lifeOk).takeRing_takes ((fieldAtStart nv s.nv).getD {})
  have life := (congrArg Sec.lifeCycle sec).trans life
  unfold State.hatbandUp
  generalize (s.loaded nv.lifeOk).takeRing ((fieldAtStart nv s.nv).getD {}) = u at *
  dsimp only
  split
  · exact ⟨stage, since.trans now, field, life, scrub.trans owed, sits.trans seats⟩
  · obtain ⟨start, keepsSec, keepsSeats, -⟩ := u.update_frame 0xBB u.brimVersion u.start.runB
    rw [start, keepsSec, keepsSeats]
    exact ⟨stage, since.trans now, (State.update_reads Nv.field (fun _ _ => rfl) _ _ _ _).trans field, life,
      (State.update_reads Nv.scrubOwed (fun _ _ => rfl) _ _ _ _).trans (scrub.trans owed), sits.trans seats⟩

theorem State.startFailed_holds {cause : Nat} (stable : s.start.trial = false) (first : s.start.stage = 1) :
    s.startFailed cause = State.update { s with start := { s.start with stage := 3, heldCause := cause } } 0xBC s.brimVersion s.start.runB := by
  rw [State.startFailed, if_neg (by simp [stable]), if_neg (by simp [first])]

section
variable (starting : s.starting = true)
include starting

theorem execHbmTrained_trained (new : s.start.hbm = false) : execHbmTrained true s = .next { s with start := { s.start with hbm := true } } :=
  congrArg Host.Outcome.next ((if_neg (by simp [starting, new])).trans (if_pos rfl))

theorem execHbmTrained_fails (new : s.start.hbm = false) : execHbmTrained false s = .next (s.startFailed 1) :=
  congrArg Host.Outcome.next ((if_neg (by simp [starting, new])).trans (if_neg (by decide)))

/-- The vault stands: keys unwrapped, half-written images gone (R283, R296). -/
theorem execVaultMounted_mounts (new : s.start.vault = false) : execVaultMounted true s = .next { s.unwrapKeys with
    start := { s.unwrapKeys.start with vault := true }, nv := { s.unwrapKeys.nv with images := s.unwrapKeys.nv.images.filter (fun i => i.2.state ≠ 1) } } :=
  congrArg Host.Outcome.next ((if_neg (by simp [starting, new])).trans (if_pos rfl))

theorem execVaultMounted_fails (new : s.start.vault = false) : execVaultMounted false s = .next (s.startFailed 2) :=
  congrArg Host.Outcome.next ((if_neg (by simp [starting, new])).trans (if_neg (by decide)))
end

/-- Of the hub store a SECURITY event writes the persistent log alone. -/
theorem State.security_nv (s : State) (d a b c e : Nat) : (s.security d a b c e).nv = { s.nv with plog := (s.security d a b c e).nv.plog } := by
  rw [State.security, State.securityFor, (State.post_log _ _).2]
  exact (State.logAppend_nv _ _).1

/-- Keys unwrapped: of the start and the vault's store nothing moves. -/
theorem State.unwrapKeys_store (s : State) : s.unwrapKeys.start = s.start ∧ s.unwrapKeys.nv.images = s.nv.images ∧ s.unwrapKeys.nv.blocks = s.nv.blocks := by
  unfold State.unwrapKeys
  split
  · exact ⟨rfl, rfl, rfl⟩
  · refine ⟨foldl_keeps State.start (fun u w => by split <;> simp) _ s, foldl_keeps (fun u => u.nv.images) (fun u w => ?_) _ s,
      foldl_keeps (fun u => u.nv.blocks) (fun u w => ?_) _ s⟩ <;> split
    · rfl
    · show (u.security _ _ _ _ _).nv.images = _
      rw [State.security_nv]
    · rfl
    · show (u.security _ _ _ _ _).nv.blocks = _
      rw [State.security_nv]

/-! ### Run-ready (R361, R516, R522) -/

/-- The boot record written moves nothing but the hub store. -/
theorem State.writeBoot_keeps (s : State) (b : Boot) : (s.writeBoot b).start = s.start ∧ (s.writeBoot b).seats = s.seats ∧ (s.writeBoot b).forms = s.forms
    ∧ (s.writeBoot b).mem = s.mem ∧ (s.writeBoot b).cascade = s.cascade := ⟨rfl, rfl, rfl, rfl, rfl⟩

/-- In Run, the links training and the outcome of the boot record shown. -/
def State.inRun (s : State) : State := State.trainLinks { s with start := { s.start with stage := 2, outcome := s.boot.last } }

theorem State.inRun_runs (s : State) : s.inRun.start.stage = 2 ∧ s.inRun.start.outcome = s.boot.last ∧ s.inRun.boot = s.boot ∧ s.inRun.seats = s.seats
    ∧ s.inRun.forms = s.forms ∧ s.inRun.mem = s.mem ∧ ∀ k, k < 8 → (s.deckLink k).st ≠ 3 → (s.inRun.deckLink k).st = 1 := by
  refine ⟨rfl, rfl, rfl, rfl, rfl, rfl, fun k inside free => ?_⟩
  rw [State.inRun, State.deckLink_trainLinks _ inside]
  exact congrArg DeckLink.st (if_neg free)

/-- The outcome taken from the boot record (R522). -/
def State.takeOutcome (s : State) : State := s.writeBoot { s.boot with last := 0 }

theorem State.takeOutcome_takes (s : State) : s.takeOutcome.start = s.start ∧ s.takeOutcome.boot.last = 0 ∧ s.takeOutcome.seats = s.seats
    ∧ s.takeOutcome.forms = s.forms ∧ s.takeOutcome.mem = s.mem ∧ s.takeOutcome.cascade = s.cascade := by
  obtain ⟨n, back⟩ := s.boot_writeBoot { s.boot with last := 0 }
  obtain ⟨start, seats, forms, mem, links⟩ := s.writeBoot_keeps { s.boot with last := 0 }
  exact ⟨start, congrArg Boot.last back, seats, forms, mem, links⟩

/-- The device's outcome posted before it is taken (R522). -/
def State.postOutcome (s : State) : State :=
  (s.update s.boot.last (if s.boot.last = 0xB8 then imageField s.nv.crown.header 8 else s.brimVersion) s.start.runB).takeOutcome

theorem State.postOutcome_posts (s : State) : s.postOutcome.start = s.start ∧ s.postOutcome.boot.last = 0 ∧ s.postOutcome.seats = s.seats
    ∧ s.postOutcome.forms = s.forms ∧ s.postOutcome.mem = s.mem ∧ s.postOutcome.cascade = s.cascade := by
  unfold State.postOutcome
  generalize (if s.boot.last = 0xB8 then imageField s.nv.crown.header 8 else s.brimVersion) = version
  obtain ⟨start, -, seats, mem, forms, -, -, links, -⟩ := s.update_frame s.boot.last version s.start.runB
  obtain ⟨start', last, seats', forms', mem', links'⟩ := (s.update s.boot.last version s.start.runB).takeOutcome_takes
  exact ⟨start'.trans start, last, seats'.trans seats, forms'.trans forms, mem'.trans mem, links'.trans links⟩

/-- The device Run-ready. -/
def State.runUp (s : State) : State := if s.boot.last = 0 then s.inRun else s.inRun.postOutcome

section
variable (ready : s.start.stage = 1) (bist : s.start.bist = true) (hbm : s.start.hbm = true) (vault : s.start.vault = true)
include ready bist hbm vault

theorem execRunReady_runs (inTime : s.boundMissed = false) : execRunReady s = .next s.runUp :=
  congrArg Host.Outcome.next ((if_neg (by simp [ready, bist, hbm, vault])).trans (if_neg (by simp [inTime])))

theorem execRunReady_late (late : s.boundMissed = true) : execRunReady s = .next ((s.update 0xB4 s.brimVersion s.start.runB).reboot 3) :=
  congrArg Host.Outcome.next ((if_neg (by simp [ready, bist, hbm, vault])).trans (if_pos late))
end

theorem State.runUp_runs (s : State) : s.runUp.start.stage = 2 ∧ s.runUp.start.outcome = s.boot.last ∧ s.runUp.boot.last = 0 ∧ s.runUp.seats = s.seats
    ∧ s.runUp.forms = s.forms ∧ s.runUp.mem = s.mem ∧ ∀ k, k < 8 → (s.deckLink k).st ≠ 3 → (s.runUp.deckLink k).st = 1 := by
  obtain ⟨stage, outcome, boot, seats, forms, mem, trains⟩ := s.inRun_runs
  unfold State.runUp
  split
  next none => exact ⟨stage, outcome, (congrArg Boot.last boot).trans none, seats, forms, mem, trains⟩
  next =>
    obtain ⟨start, taken, sits, loaded, holds, links⟩ := s.inRun.postOutcome_posts
    refine ⟨(congrArg Start.stage start).trans stage, (congrArg Start.outcome start).trans outcome, taken, sits.trans seats, loaded.trans forms, holds.trans mem, ?_⟩
    intro k inside free
    rw [State.deckLink, links]
    exact trains k inside free

/-- A reset in the middle of a store leaves the boot record (R498). -/
theorem State.cutStore_boot (s : State) : s.cutStore.bootA = s.nv.bootA := by
  unfold State.cutStore
  split
  · rfl
  · dsimp only
    split <;> rfl

/-! ### Staging checks and confirmation (R525, R527) -/

/-- An image that passed its check: READY, a Brim's copy pending (R525). -/
def State.staged (s : State) : State :=
  let t : State := { s with nv := { s.nv with stagingState := if byteAt s.stagedHeader 6 = 2 then 4 else 3, rescueStaged := !decide (byteAt s.stagedHeader 6 = 2) && s.start.stage = 4 } }
  let u := if byteAt s.stagedHeader 6 = 2 then t else t.writeBoot { t.boot with pend := 1 }
  u.update 0xB0 (imageField s.stagedHeader 8) (if byteAt s.stagedHeader 6 = 2 then false else if u.nv.rescueStaged then false else !u.boot.activeB)

theorem execCheckComplete_passes {sig orphan : Bool} (checking : s.nv.stagingState = 2) (passes : s.stageRefusal sig orphan = 0) :
    execCheckComplete sig orphan s = .next s.staged := by
  unfold execCheckComplete
  rw [if_neg (by simp [checking]), passes]
  simp only
  rfl

theorem execCheckComplete_fails {sig orphan : Bool} (checking : s.nv.stagingState = 2) (fails : s.stageRefusal sig orphan ≠ 0) :
    execCheckComplete sig orphan s = .next { s with nv := { s.nv with stagingState := 5 }, start := { s.start with refusal := s.stageRefusal sig orphan } } := by
  unfold execCheckComplete
  rw [if_neg (by simp [checking])]
  split
  next passes => exact absurd passes fails
  next => rfl

theorem State.staged_keeps (s : State) : s.staged.nv.staging = s.nv.staging ∧ s.staged.nv.slotA = s.nv.slotA ∧ s.staged.nv.slotB = s.nv.slotB
    ∧ s.staged.nv.crown = s.nv.crown ∧ s.staged.seats = s.seats
    ∧ (if byteAt s.stagedHeader 6 = 2 then s.staged.nv.stagingState = 4 ∧ s.staged.boot.pend = s.boot.pend else s.staged.nv.stagingState = 3 ∧ s.staged.boot.pend = 1) := by
  unfold State.staged
  extract_lets _ t _ u
  have read : ∀ {α : Type} (f : Nv → α), (∀ (n : Nv) l, f { n with plog := l } = f n) → ∀ d v b, f (u.update d v b).nv = f u.nv := fun f past d v b => State.update_reads f past u d v b
  rw [read Nv.staging fun _ _ => rfl, read Nv.slotA fun _ _ => rfl, read Nv.slotB fun _ _ => rfl, read Nv.crown fun _ _ => rfl, read Nv.stagingState fun _ _ => rfl,
    State.update_boot, (State.update_frame _ _ _ _).2.2.1]
  unfold u
  split
  next crown => exact ⟨rfl, rfl, rfl, rfl, rfl, if_pos crown, rfl⟩
  next brim =>
    obtain ⟨n, back⟩ := t.boot_writeBoot { t.boot with pend := 1 }
    exact ⟨rfl, rfl, rfl, rfl, rfl, if_neg brim, congrArg Boot.pend back⟩

/-- The boot record a confirmation leaves (R527). -/
def State.confirmedBoot (s : State) : Boot := Boot.setSlot { s.boot with tried := false, brimFloor := max s.boot.brimFloor (svn s.brim.header) } s.start.runB 1

theorem State.confirmedBoot_stands (s : State) : s.confirmedBoot.slot s.start.runB = 1 ∧ s.confirmedBoot.tried = false
    ∧ s.confirmedBoot.brimFloor = max s.boot.brimFloor (svn s.brim.header) := by
  unfold State.confirmedBoot
  refine ⟨Boot.slot_setSlot_same _ _ _, ?_, ?_⟩ <;> cases s.start.runB <;> rfl

/-- The Brim confirmed, 30 s after reset at the earliest. -/
def State.confirmed (s : State) : State :=
  let t := State.writeBoot { s with now := max s.now 30000000000000 } s.confirmedBoot
  State.update { t with start := { t.start with trial := false } } 0xB3 t.brimVersion t.start.runB

theorem execBrimConfirm_confirms (trial : s.start.trial = true) (running : s.start.stage = 2) (deals : 100 ≤ s.confirmDeals) : execBrimConfirm s = .next s.confirmed :=
  congrArg Host.Outcome.next (if_neg (by simp [trial, running, deals]))

theorem State.confirmed_confirms (s : State) : s.confirmed.start.trial = false ∧ s.confirmed.boot.slot s.start.runB = 1 ∧ s.confirmed.boot.tried = false
    ∧ s.confirmed.boot.brimFloor = max s.boot.brimFloor (svn s.brim.header) ∧ 30000000000000 ≤ s.confirmed.now ∧ s.confirmed.seats = s.seats
    ∧ s.confirmed.dealer = s.dealer := by
  obtain ⟨slot, tried, floor⟩ := s.confirmedBoot_stands
  unfold State.confirmed
  extract_lets t _
  obtain ⟨n, back⟩ : ∃ n, t.boot = { s.confirmedBoot with seq := n } := State.boot_writeBoot _ _
  have kept : t.now = max s.now 30000000000000 ∧ t.seats = s.seats ∧ t.dealer = s.dealer := ⟨rfl, rfl, rfl⟩
  clear_value t
  obtain ⟨now, seats, dealer⟩ := kept
  rw [State.update_boot]
  have back : State.boot { t with start := { t.start with trial := false } } = { s.confirmedBoot with seq := n } := back
  rw [back]
  obtain ⟨start, -, sits, -, -, deals, clock, -⟩ := State.update_frame { t with start := { t.start with trial := false } } 0xB3 t.brimVersion t.start.runB
  exact ⟨congrArg Start.trial start, slot, tried, floor, by rw [clock, now]; exact Nat.le_max_right _ _, sits.trans seats, deals.trans dealer⟩

end Sys2Proof.Machine

namespace Sys2Proof.Proofs
open Sys2Proof Sys2Proof.Machine

/-- Settles O54, stage by stage: the release through what the Crown finds in the boot record, the Brim's start, Run-ready, the check of a staged image, and the confirmation. -/
theorem devicesStart : Obligations.DevicesStart := by
  unfold Obligations.DevicesStart
  refine ⟨fun st ck s down fair => ⟨fun low => execResetRelease_rails down fair low, fun b rails fuse record whole idle => ?release⟩,
    fun nv s up early fair whole => ⟨fun good => ⟨_, execHatbandReady_ready up early fair whole good, s.hatbandUp_readies nv⟩,
      fun bad stable => execHatbandReady_held up early fair whole bad stable⟩,
    fun s starting => ⟨fun new => execHbmTrained_trained starting new, fun new stable first => ?hbm, fun new => ?mounted, fun new stable first => ?vault⟩,
    fun s ready bist hbm vault inTime => ⟨_, execRunReady_runs ready bist hbm vault inTime, s.runUp_runs⟩, fun s missing => ?waits,
    fun s ready bist hbm vault trial late => ?late, fun sig orphan s checking => ?check, fun s trial running =>
      ⟨fun deals => ⟨_, execBrimConfirm_confirms trial running deals, s.confirmed_confirms⟩, fun few => congrArg Host.Outcome.next (if_pos (by simp [few]))⟩⟩
  case release =>
    have runs := execResetRelease_runs (ck := ck) down fair rails fuse record whole idle
    refine ⟨fun bad => ?lamed, fun good verifies confirmed => ?active, fun good verifies trial new => ?first, fun good verifies trial other tried => ?again,
      fun good noA noB new => ?rescue⟩
    case lamed =>
      refine ⟨_, runs, ?_⟩
      rw [State.crownRun, if_neg (by simp [bad])]
      exact ⟨rfl, rfl, rfl, rfl⟩
    case active =>
      have boots := crownBoot_brim (ck := ck) idle (crownTrial_confirmed (by omega)) verifies (s.strapped st b).nv (s.strapped st b).stagedImage
      refine ⟨_, runs, ?_⟩
      rw [State.crownRun_brim good boots]
      exact ⟨rfl, rfl, decide_eq_false (by omega), rfl, rfl, rfl, rfl, rfl, State.brimRun_images (s.strapped st b) b⟩
    case first =>
      have boots := crownBoot_brim (ck := ck) idle (crownTrial_first trial new) verifies (s.strapped st b).nv (s.strapped st b).stagedImage
      obtain ⟨n, back⟩ := (s.strapped st b).brimRun_boot { b with tried := true }
      refine ⟨_, runs, ?_⟩
      rw [State.crownRun_brim good boots]
      exact ⟨rfl, rfl, decide_eq_true trial, congrArg Boot.tried back⟩
    case again =>
      obtain ⟨active, last, given, taken⟩ := b.fallBack_falls
      have verified : (if b.fallBack.activeB then ck.slotBOk else ck.slotAOk) = true := by
        rw [active]
        cases side : b.activeB <;> simpa [side] using verifies
      have boots := crownBoot_brim (c := b.fallBack) idle (crownTrial_again trial tried) verified (s.strapped st b).nv (s.strapped st b).stagedImage
      obtain ⟨n, back⟩ := (s.strapped st b).brimRun_boot b.fallBack
      refine ⟨_, runs, ?_⟩
      rw [State.crownRun_brim good boots]
      have stable : b.fallBack.slot b.fallBack.activeB ≠ 2 := by rw [active, taken]; omega
      exact ⟨rfl, active, decide_eq_false stable, (congrArg Boot.last back).trans last, (congrArg (Boot.slot · b.activeB) back).trans given⟩
    case rescue =>
      refine ⟨_, runs, ?_⟩
      rw [State.crownRun_rescue good (crownBoot_rescue idle noA noB _ _), State.enterRescue, (State.update_frame _ _ _ _).1]
      exact ⟨rfl, rfl⟩
  case hbm =>
    refine ⟨_, execHbmTrained_fails starting new, ?_⟩
    rw [State.startFailed_holds stable first, (State.update_frame _ _ _ _).1]
    exact ⟨rfl, rfl, new⟩
  case mounted =>
    obtain ⟨start, images, blocks⟩ := s.unwrapKeys_store
    exact ⟨_, execVaultMounted_mounts starting new, rfl, by rw [images], (congrArg Start.hbm start :), blocks⟩
  case vault =>
    refine ⟨_, execVaultMounted_fails starting new, ?_⟩
    rw [State.startFailed_holds stable first, (State.update_frame _ _ _ _).1]
    exact ⟨rfl, rfl⟩
  case waits => exact congrArg Host.Outcome.next (if_pos (by rcases missing with m | m | m <;> simp [m]))
  case late =>
    refine ⟨_, execRunReady_late ready bist hbm vault (by simp [State.boundMissed, trial, late]), rfl, rfl, ?_⟩
    exact (State.cutStore_boot _).trans (State.update_reads Nv.bootA (fun _ _ => rfl) _ _ _ _)
  case check =>
    by_cases passes : s.stageRefusal sig orphan = 0
    · obtain ⟨staging, slotA, slotB, crown, seats, state⟩ := s.staged_keeps
      exact ⟨_, execCheckComplete_passes checking passes, staging, slotA, slotB, crown, seats, by rw [if_pos passes]; exact state⟩
    · exact ⟨_, execCheckComplete_fails checking passes, rfl, rfl, rfl, rfl, rfl, by rw [if_neg passes]; exact ⟨rfl, rfl, rfl⟩⟩

end Sys2Proof.Proofs
end
